-- ==== Sys2Proof/Word.lean ====
section
/-! DEFINITION. The words of the part: bytes, the 32-bit values of registers and time bases, the 16-bit generations. -/

namespace Sys2Proof

/-- One byte of the memory window or of a panel frame. -/
abbrev Byte := BitVec 8

/-- A 16-bit value: an arm generation (R25), a plan generation (R85), a frame CRC (R136). -/
abbrev Half16 := BitVec 16

/-- A 32-bit value: a register, a time base value (R165), a sequence word (R171, R184). -/
abbrev Word := BitVec 32

end Sys2Proof
end

