-- ==== Sys2Proof/Syntax.lean ====
section
/-! DEFINITION. The commands: one constructor per row of spec/opcode_table.json, with its operands. -/

namespace Sys2Proof

/-- The three panel lines (chapter 8). -/
inductive Line where
  | seat | end_ | door
  deriving DecidableEq, Repr

/-- The owners of distance marks (1.6). -/
inductive Owner where
  | tracker | notices
  deriving DecidableEq, Repr

/-- The tag of a mark: the tracker's kind and arm generation (R27), or a notice id and plan generation (R92). -/
inductive MarkTag where
  | approach (gen : Half16)
  | pass (gen : Half16)
  | notice (id : Nat) (gen : Half16)
  deriving DecidableEq, Repr

/-- The owner of a mark with this tag: the block that armed it and receives it (1.6). -/
def MarkTag.owner : MarkTag → Owner
  | .approach _ => .tracker
  | .pass _ => .tracker
  | .notice _ _ => .notices

/-- The five table kinds (chapter 10). -/
inductive Kind where
  | coachProfile | stopList | reservationTable | noticeTable | contentSet
  deriving DecidableEq, Repr

/-- What the board and the host do to memory around one step of the part (log 5). Addresses are those of the local
memory bus (R168). -/
structure Bus where
  /-- bytes the host has written since the step before, in order -/
  host : List Host.Cell := []
  /-- bytes the host writes between this step's last read and its first write (R176, R183) -/
  late : List Host.Cell := []
  /-- addresses whose reads end with the board's error handshake during this step (R169) -/
  readErrors : List Nat := []
  /-- addresses whose writes end with the board's error handshake during this step (R169) -/
  writeErrors : List Nat := []
  /-- the step's head-block write has not had its turn when the step ends (R171: one write at a time; R188; log 15) -/
  wait : Bool := false
  deriving DecidableEq, Repr

/-- A character received on RXD: the eight data bits, the parity bit and the stop bit as sampled (R135). -/
structure RxChar where
  data : Byte
  parity : Bool
  stop : Bool
  deriving DecidableEq, Repr

/-- The commands. Each stands for one whole, indivisible step of the part; `Machine.exec` gives its effect. -/
inductive Instr where
  | powerOnReset
  | wheelEdge (rising : Bool)
  | capture
  | silenceSample
  | doorSample (level : Bool)
  | setLegDistance (mm : Word)
  | reduceLegDistance (mm : BitVec 40)
  | armMark (tag : MarkTag) (mm : BitVec 40)
  | clearMarks (owner : Owner)
  | clearNotice (owner : Owner)
  | odometerProfileLoad
  | distanceAdvanced
  | motionChange
  | doorChange
  | trackerMark
  | placeAtStop (bus : Bus)
  | placeInLeg (bus : Bus)
  | unplace (bus : Bus)
  | trackerProfileLoad
  | stopListLoadStart
  | stopListLoadComplete (bus : Bus)
  | trackerOwedLoad
  | reservationJourneyEvent
  | seatMapLoad
  | reservationLoadStart
  | reservationLoadComplete (bus : Bus)
  | reservationOwedLoad
  | amendmentSlotRead (bus : Bus)
  | add
  | cancel
  | clear
  | amendInvalidAction
  | noticeJourneyEvent
  | noticeMark
  | noticeCountdown
  | noticeProfileLoad
  | noticeLoadStart
  | noticeLoadComplete (bus : Bus)
  | chimeRequest
  | tonePartEnd
  | composerJourneyEvent
  | progressEvent
  | seatModuleMark
  | selectionMark
  | composerSweepMark
  | composerProfileLoad
  | panelOnlineMark
  | panelOffline
  | compositionBegin (bus : Bus)
  | elementBegin (bus : Bus)
  | glyphDecodeEnd (bus : Bus)
  | compositionComplete
  | loadExchange (line : Line)
  | addressedShow (line : Line)
  | broadcastShow (line : Line)
  | queryExchange (line : Line)
  | frameSent (line : Line)
  | reply (line : Line) (chars : List RxChar)
  | replyTimeout (line : Line) (chars : List RxChar)
  | cutOffQuietEnd (line : Line)
  | lineSweepAgeing (line : Line)
  | holdLimitReached (line : Line) (group : Nat)
  | idleCountFull (line : Line) (address : Nat)
  | probeCountdownEnd (line : Line) (address : Nat)
  | lineProfileLoad (line : Line)
  | sweepBoundary
  | sweepPulseEnd
  | leadPulseEnd
  | tsyncRisingEdge
  | tsyncTrailingEdge
  | syncSilenceExpiry
  | sweepProfileLoad
  | boundaryOperation (bus : Bus)
  | switchCompletion (kind : Kind) (bus : Bus)
  | switchRefusal (kind : Kind) (bus : Bus)
  | statusPageWrite (bus : Bus) (reach : Nat)
  | statusPageWriteDone (bus : Bus)
  | runSet (value : Word)
  | runClear (value : Word)
  | engineReset (value : Word)
  | freezeSet (value : Word)
  | freezeClear (value : Word)
  | windowBaseWrite (value : Word)
  | attentionWrite (value : Word)
  | attentionEnableWrite (value : Word)
  | ignoredRegisterWrite (number : Nat) (value : Word)
  | quietTimeStartBit (line : Line)
  deriving DecidableEq, Repr

end Sys2Proof
end

