-- ==== Sys2Proof/Decode.lean ====
section
/-! DEFINITION. The command a word spells, for the rows of spec/opcode_table.json that give bits. No row gives any
(98_reader.md: n_rows_with_fixed 0, n_rows_with_fields 0), so no word spells a command. -/

namespace Sys2Proof

/-- No row of the table has bits, so no word spells a command. -/
def decodeTableWord (_nbits _w : Nat) : Option Instr := none

end Sys2Proof
end

