-- ==== Sys2Proof/Config.lean ====
section
/-! DEFINITION. What an implementation fixes and the manual does not: constants without a body (free values). -/

namespace Sys2Proof

/-- Free value (log 8). R16: "marks of equal distance in either order". The rank of the mark at place `i` of the Mark
Set at the capture numbered `n`; among marks of one distance the lower rank is handed out first. -/
opaque Config.tieRank (n i : Nat) : Nat

/-- Free value (log 16). R171 does not say whether a head-block write that a bus error cuts short before its sequence
word still adds 1 to the sequence counter. -/
opaque Config.failedWriteCounts : Bool

/-- Free value (log 18). What a status-page field at the given offset holds while its datum is absent, where 11.5 does
not state it. -/
opaque Config.absentField (offset : Nat) : Nat

end Sys2Proof
end

