-- ==== Sys2Proof/Machine/State.lean ====
section
/-! DEFINITION. The state of the part: every item the spec gives a block, and the queue of commands. Plain data. -/

namespace Sys2Proof.Machine

/-- The memory of the local bus: (bus address, byte) pairs, addresses strictly rising, none equal to what an unlisted
address reads as (`Memory.wf`, log 6). -/
abbrev Memory := List Host.Cell

/-! ### Odometer (chapter 1) -/

/-- Debounced motion (R12). -/
inductive Motion where
  | still | moving
  deriving DecidableEq, Repr

/-- Debounced door release (R14). -/
inductive Door where
  | locked | released
  deriving DecidableEq, Repr

/-- The parameters of R3 that have no DORMANT value: edge select, D, C and the profile's P. -/
structure WheelParams where
  rising : Bool
  d : Nat
  c : Nat
  p : Nat
  deriving DecidableEq, Repr

/-- The parameters of R3 that have a DORMANT value. -/
structure MotionParams where
  vMove : Nat
  vStop : Nat
  nMove : Nat
  nStill : Nat
  nDoor : Nat
  deriving DecidableEq, Repr

/-- A distance mark (1.6). -/
structure Mark where
  tag : MarkTag
  distance : Nat
  deriving DecidableEq, Repr

/-- What the odometer hands the tracker on one ordered way (R6, R16, R18); motion and door changes have their own. -/
inductive OdoEvent where
  | advanced (mm : Nat)
  | mark (tag : MarkTag)
  | cleared
  deriving DecidableEq, Repr

/-- What the odometer hands the notice scheduler (R16, R18). -/
inductive NoticeEvent where
  | mark (id : Nat) (gen : Half16)
  | cleared
  deriving DecidableEq, Repr

/-! ### The coach profile (11.3) -/

/-- A panel of a line: address and group (R141). -/
structure PanelPlace where
  address : Nat
  group : Nat
  deriving DecidableEq, Repr

/-- A group's mode and hold limit (R141). -/
structure GroupConfig where
  grouped : Bool
  hold : Nat
  deriving DecidableEq, Repr

/-- A line's configuration (R141). `rate` is the code of 11.3. -/
structure LineConfig where
  rate : Nat
  panels : List PanelPlace
  groups : List GroupConfig
  thresholds : List Nat
  levels : List Nat
  deriving DecidableEq, Repr

/-- The halves of a seat-label module (4.1). -/
inductive SeatHalf where
  | left | right
  deriving DecidableEq, Repr

/-- A seat map entry (4.1). -/
structure SeatPlace where
  number : Nat
  address : Nat
  half : SeatHalf
  deriving DecidableEq, Repr

/-- Train sync role (R156). -/
inductive Role where
  | alone | lead | follow
  deriving DecidableEq, Repr

/-- Sources of the output lines (R166). -/
inductive OutSource where
  | off | on | chime | doorsReleased | moving | sweepPulse | panelFault | attention
  deriving DecidableEq, Repr

/-- An output line's setting (R166). -/
structure OutSetting where
  source : OutSource
  invert : Bool
  deriving DecidableEq, Repr

/-- The values of a coach profile, as validation read them (R175, R177). -/
structure Profile where
  wheel : WheelParams
  motion : MotionParams
  portion : Nat
  a : Nat
  w : Nat
  o : Nat
  period : Nat
  wrap : Nat
  role : Role
  outs : List OutSetting
  endPage : Nat
  doorPage : Nat
  seatPages : List Nat
  seat : LineConfig
  end_ : LineConfig
  door : LineConfig
  seatMap : List SeatPlace
  deriving DecidableEq, Repr

/-- The odometer (R1). `wheel` is absent in DORMANT mode and present in ACTIVE mode (R2). -/
structure Odometer where
  wheel : Option WheelParams
  motionParams : MotionParams
  edgeCount : Nat
  acc : Nat
  legDistance : Nat
  speedRef : Option Word
  speed : Nat
  silence : Option Word
  motion : Motion
  movingRun : Nat
  stillRun : Nat
  door : Door
  doorRun : Nat
  workingP : Option Nat
  pendingP : Option Nat
  marks : List Mark
  /-- ms of the time base since the last 10 ms step (R14) -/
  doorMs : Nat
  /-- a 10 ms step has come and its sample has not been taken (log 1) -/
  doorStepDue : Bool
  profiles : List Profile
  deriving DecidableEq, Repr

/-! ### Tracker (chapter 2) -/

/-- The tracker state with its current leg k (R25). -/
inductive Phase where
  | unplaced
  | atStop (k : Nat)
  | running (k : Nat)
  | approaching (k : Nat)
  | halted (k : Nat)
  | doubt (k : Nat)
  | ended
  | lost
  deriving DecidableEq, Repr

/-- A stop record of the stop store (2.1). A reference is absent or an offset. -/
structure StopRecord where
  code : Nat
  name : Option Nat
  shortName : Option Nat
  mask : Nat
  divide : Bool
  join : Bool
  legLength : Nat
  mapX : Nat
  arrival : Option Nat
  departure : Option Nat
  deriving DecidableEq, Repr

/-- A served stop (R23). `legLength` is L_j, and 0 at the last served stop, which has no leg. -/
structure ServedStop where
  code : Nat
  mapX : Nat
  index : Nat
  divide : Bool
  join : Bool
  legLength : Nat
  deriving DecidableEq, Repr

/-- Causes of journey events (R44). -/
inductive Cause where
  | depart | arrive | doors | approach | halt | doubt | resume | pass | overrun | place | unplace | remap
  deriving DecidableEq, Repr

/-- A journey event (R44). -/
structure JourneyEvent where
  cause : Cause
  phase : Phase
  code : Option Nat
  view : List ServedStop
  deriving DecidableEq, Repr

/-- An arrival, departure or pass record (R42). -/
structure JourneyRecord where
  code : Nat
  measured : Nat
  expected : Nat
  ms : Word
  deriving DecidableEq, Repr

/-- The two places of a table kind (chapter 10). -/
inductive Copy where
  | a | b
  deriving DecidableEq, Repr

/-- A loader's load state (R25, R63, R85): none, loading a pinned copy, or owed. -/
inductive LoadState where
  | idle
  | loading (copy : Copy) (address : Nat) (edition : Nat)
  | owed
  deriving DecidableEq, Repr

/-- Kinds of position request that reach the tracker (R183). -/
inductive PositionKind where
  | placeAtStop | placeInLeg | unplace
  deriving DecidableEq, Repr

/-- A position request (R183). -/
structure PositionRequest where
  kind : PositionKind
  code : Nat
  metres : Nat
  deriving DecidableEq, Repr

/-- The tracker (R25). `motion` and `door` are the states last reported to it (log 9). -/
structure Tracker where
  phase : Phase
  gen : Half16
  passDue : Bool
  load : LoadState
  arrival : Option JourneyRecord
  departure : Option JourneyRecord
  passed : Option JourneyRecord
  stops : List StopRecord
  view : List ServedStop
  portion : Option Nat
  a : Nat
  w : Nat
  o : Nat
  motion : Motion
  door : Door
  inbox : List OdoEvent
  motionIn : List Motion
  doorIn : List Door
  request : Option PositionRequest
  told : Nat
  profiles : List Profile
  boundaries : Nat
  deriving DecidableEq, Repr

/-! ### Reservation engine (chapter 4) -/

/-- Segment kinds (R63). -/
inductive SegKind where
  | reserved | blocked
  deriving DecidableEq, Repr

/-- A segment's resolution (R68). -/
inductive Resolution where
  | resolved (fi ti : Nat) (fromFallback toFallback : Bool)
  | empty (fi ti : Nat)
  | unresolved
  deriving DecidableEq, Repr

/-- A segment (R63). -/
structure Segment where
  kind : SegKind
  fromCode : Nat
  toCode : Nat
  label : Option Nat
  note : Option Nat
  resolution : Resolution
  deriving DecidableEq, Repr

/-- Seat display states (R73). -/
inductive SeatDisplay where
  | unknown | free | reservedNow | reservedLater | blocked | off
  deriving DecidableEq, Repr

/-- Shown fields (R74). -/
structure Shown where
  kind : SegKind
  fromCode : Nat
  toCode : Nat
  label : Option Nat
  note : Option Nat
  deriving DecidableEq, Repr

/-- A seat record (R63). -/
structure Seat where
  number : Nat
  address : Nat
  half : SeatHalf
  segments : List Segment
  display : SeatDisplay
  shown : Option Shown
  reviewResolution : Bool
  reviewLatched : Bool
  deriving DecidableEq, Repr

/-- A seat entry of a reservation table (4.3). -/
structure SeatEntry where
  number : Nat
  segments : List Segment
  deriving DecidableEq, Repr

/-- The reservation engine (R63). -/
structure Reservations where
  seats : List Seat
  pages : Option (List Nat)
  storeEdition : Option Nat
  load : LoadState
  refPhase : Phase
  refLeg : Option Nat
  refView : List Nat
  skipped : Nat
  lowestSkipped : Option Nat
  journeys : List JourneyEvent
  told : Nat
  profiles : List Profile
  boundaries : Nat
  deriving DecidableEq, Repr

/-! ### Notice scheduler (chapter 5) -/

/-- Notice triggers (5.1). -/
inductive Trigger where
  | approach | distance | depart | arrive | pass | doors | halt
  deriving DecidableEq, Repr

/-- Stop filters (R90). -/
inductive StopFilter where
  | all | divideAhead | joinAhead | terminusAhead | code
  deriving DecidableEq, Repr

/-- End conditions (R98). -/
inductive EndCondition where
  | timer | arrive | depart | legChange
  deriving DecidableEq, Repr

/-- A notice definition (5.1). -/
structure NoticeDef where
  id : Nat
  trigger : Trigger
  metres : Nat
  filter : StopFilter
  filterCode : Nat
  toEnd : Bool
  toDoor : Bool
  page : Nat
  priority : Nat
  duration : Nat
  gap : Nat
  endCondition : EndCondition
  tones : Nat
  deriving DecidableEq, Repr

/-- Phases of an active notice (R95). -/
inductive NoticePhase where
  | showing | resting
  deriving DecidableEq, Repr

/-- An entry of the active notice list (R95); its place is its position in the list. -/
structure NoticeEntry where
  id : Nat
  phase : NoticePhase
  countdown : Nat
  deriving DecidableEq, Repr

/-- Status of a pending DISTANCE trigger (R92). -/
inductive TriggerStatus where
  | waiting | armed | fired
  deriving DecidableEq, Repr

/-- A pending DISTANCE trigger (R92). -/
structure PendingTrigger where
  id : Nat
  distance : Nat
  status : TriggerStatus
  deriving DecidableEq, Repr

/-- A group's selection (R99): DEFAULT (none) or a notice id, with the page it shows. -/
structure Selection where
  id : Option Nat
  page : Option Nat
  deriving DecidableEq, Repr

/-- The notice groups (chapter 5). -/
inductive NoticeGroup where
  | endGroup | doorGroup
  deriving DecidableEq, Repr

/-- The notice scheduler (R85). The reference keeps the served view that the last journey event carried (R89). `legFired`:
the ids whose triggers have fired on the leg of the plan (R88, R92). -/
structure Notices where
  store : List NoticeDef
  load : LoadState
  refPhase : Phase
  refView : List ServedStop
  active : List NoticeEntry
  plan : Option (List PendingTrigger)
  legFired : List Nat
  planGen : Half16
  selEnd : Selection
  selDoor : Selection
  defaultEnd : Option Nat
  defaultDoor : Option Nat
  lastDropped : Option Nat
  journeys : List JourneyEvent
  inbox : List NoticeEvent
  told : Nat
  profiles : List Profile
  boundaries : Nat
  deriving DecidableEq, Repr

/-! ### Composer (chapters 3, 6 and 7) -/

/-- The position record (R47); `phase` holds its state and k. -/
structure PositionRecord where
  phase : Phase
  xNear : Option Nat
  xFar : Option Nat
  len : Option Nat
  distance : Nat
  marker : Option Nat
  deriving DecidableEq, Repr

/-- A render-store slot's state (R123). -/
inductive SlotState where
  | free
  | rendering (line : Line) (address : Nat)
  | waiting (line : Line) (address : Nat)
  | loading (line : Line) (address : Nat)
  deriving DecidableEq, Repr

/-- A render-store slot (R123): one byte per pixel, raster order. -/
structure Slot where
  state : SlotState
  image : List Byte
  deriving DecidableEq, Repr

/-- A configured panel as the composer knows it: moving flag (R116) and kept windows (R113). -/
structure PanelDraw where
  line : Line
  address : Nat
  moving : Bool
  strip : Bool
  bars : List Nat
  deriving DecidableEq, Repr

/-- An entry of the run code table (7.1). -/
structure RunEntry where
  x : Nat
  endFlag : Bool
  deriving DecidableEq, Repr

/-- The run code table (7.1). -/
structure RunTable where
  short : Bool
  commonX : Nat
  endMode : Bool
  zeros : Bool
  entries : List RunEntry
  deriving DecidableEq, Repr

/-- A strip header (11.4); `pixels` is an offset from the start of the copy. -/
structure StripHeader where
  width : Nat
  height : Nat
  pixels : Nat
  deriving DecidableEq, Repr

/-- What a composition reads at its start (R118), the run code table apart. -/
structure ContentItems where
  pageCount : Nat
  poolLength : Nat
  strips : List StripHeader
  markerGlyph : Nat
  deriving DecidableEq, Repr

/-- A rectangle of pixels: left column, top row, width, height. -/
structure Rect where
  x : Nat
  y : Nat
  w : Nat
  h : Nat
  deriving DecidableEq, Repr

/-- An area of a panel image (R108): a whole panel, or one half of a seat-label module. -/
structure Area where
  rect : Rect
  half : Option SeatHalf
  deriving DecidableEq, Repr

/-- The page being drawn: its area, its place and size, and the windows left. -/
structure PageDraw where
  area : Area
  seat : Option Nat
  address : Nat
  width : Nat
  height : Nat
  paper : Nat
  windows : Nat
  next : Nat
  deriving DecidableEq, Repr

/-- A glyph to be decoded and laid (R110, R55). `win` and `area` are in image coordinates; the pen is counted from
the window's left column. -/
structure GlyphJob where
  glyph : Nat
  width : Nat
  height : Nat
  offset : Nat
  length : Nat
  pen : Int
  top : Nat
  zoomH : Nat
  zoomV : Nat
  ink : Nat
  win : Rect
  area : Rect
  deriving DecidableEq, Repr

/-- The pinned content-set copy of a composition: which copy, and its window offset (R118). -/
structure ContentPin where
  copy : Copy
  address : Nat
  deriving DecidableEq, Repr

/-- The composition in flight (R105, R117 to R121). -/
structure Composition where
  line : Line
  address : Nat
  slot : Nat
  pin : Option ContentPin
  items : Option ContentItems
  areas : List Area
  page : Option PageDraw
  glyphs : List GlyphJob
  image : List Byte
  overflowed : Bool
  strip : Bool
  bars : List Nat
  deriving DecidableEq, Repr

/-- What the tracker hands the composer, in order (R48). -/
inductive ComposerEvent where
  | journey (e : JourneyEvent)
  | progress (mm : Nat)
  deriving DecidableEq, Repr

/-- What a line controller tells the composer of a panel's health (R144). -/
inductive PanelEvent where
  | online (line : Line) (address : Nat)
  | offline (line : Line) (address : Nat)
  deriving DecidableEq, Repr

/-- The run decoder (R125, R127, R130): working copy, glyph buffer (ink true), bit position, pixel index, colour of the
next run. -/
structure Decoder where
  table : Option RunTable
  buffer : List Bool
  bitPos : Nat
  pixelIndex : Nat
  ink : Bool
  deriving DecidableEq, Repr

/-- The composer (R105). Its activity is COMPOSING while a composition is in flight. -/
structure Composer where
  comp : Option Composition
  lastLine : Line
  refreshSeat : List Nat
  refreshEnd : List Nat
  refreshDoor : List Nat
  slots : List Slot
  panels : List PanelDraw
  position : PositionRecord
  decoder : Decoder
  events : List ComposerEvent
  moduleMarks : List Nat
  selectionMarks : List NoticeGroup
  panelEvents : List PanelEvent
  boundaries : Nat
  profiles : List Profile
  deriving DecidableEq, Repr

/-! ### Panel lines (chapter 8) -/

/-- Panel health (R143). -/
inductive Health where
  | absent | joining | online | failing | offline
  deriving DecidableEq, Repr

/-- The five failure counters (R140). -/
structure Counters where
  noReply : Nat
  char : Nat
  length : Nat
  check : Nat
  address : Nat
  deriving DecidableEq, Repr

/-- A health record (R141). `queryDue` is R147's "a QUERY is due" by the counts as they last moved (log 20). -/
structure Panel where
  address : Nat
  group : Nat
  health : Health
  goodRun : Nat
  failRun : Nat
  idle : Nat
  probe : Nat
  light : Option Nat
  owed : Bool
  counters : Counters
  queryDue : Bool
  deriving DecidableEq, Repr

/-- A member of a round (R149). -/
structure Member where
  address : Nat
  staged : Bool
  deriving DecidableEq, Repr

/-- An open round (R149). -/
structure Round where
  members : List Member
  age : Nat
  deriving DecidableEq, Repr

/-- A group's state (R141). `changed`: a load changed the mode while its broadcast SHOW was in flight (R152). -/
structure Group where
  round : Option Round
  showDue : Bool
  completed : Bool
  syncFail : Bool
  sentStep : Option Nat
  candStep : Option Nat
  changed : Bool
  deriving DecidableEq, Repr

/-- What an exchange carries (8.2). A broadcast SHOW remembers whether every member was staged at the sending (R151). -/
inductive ExchangeKind where
  | load (slot : Nat)
  | showOne
  | broadcast (full : Bool)
  | query
  deriving DecidableEq, Repr

/-- The exchange in flight (R141): the frame's bytes, its rate, whether its sending has ended, and on the us time base
when its sending or its reply window ends (log 24). -/
structure Exchange where
  kind : ExchangeKind
  address : Nat
  group : Nat
  frame : List Byte
  rate : Nat
  awaiting : Bool
  due : Word
  deriving DecidableEq, Repr

/-- Characters being sent (R135): their bytes, the rate code, and the us value at the first start bit. -/
structure Sending where
  bytes : List Byte
  rate : Nat
  start : Word
  deriving DecidableEq, Repr

/-- A line controller (R141). `quiet`: a cut-off quiet time is running, to this us value (R138). `tail`: what a cut-off
exchange has sent or still sends, to the end of the character that was in hand (R138). -/
structure LineCtl where
  config : Option LineConfig
  exchange : Option Exchange
  quiet : Option Word
  tail : Option Sending
  loadPtr : Nat
  showPtr : Nat
  queryPtr : Nat
  groups : List Group
  panels : List Panel
  boundaries : Nat
  profiles : List Profile
  deriving DecidableEq, Repr

/-! ### Sweep timer (chapter 9) -/

/-- Sync states (R156). -/
inductive SyncState where
  | alone | leading | following | freewheel
  deriving DecidableEq, Repr

/-- The time of the last boundary on both time bases (R156). -/
structure Stamp where
  us : Word
  ms : Word
  deriving DecidableEq, Repr

/-- A chime being played (R102): tones left with this one, whether in the on-part, and the part's end on the ms base. -/
structure Playing where
  left : Nat
  on : Bool
  until_ : Word
  deriving DecidableEq, Repr

/-- The chime player (R102). -/
structure Chime where
  playing : Option Playing
  pending : Option Nat
  inbox : List Nat
  deriving DecidableEq, Repr

/-- The sweep timer (R156) with the time bases (R165). `usInMs` counts the us since the last addition to the ms base.
The sweep state is SWEEPING while CONTROL.RUN is 1 (R156). -/
structure Sweep where
  us : Word
  ms : Word
  usInMs : Nat
  period : Nat
  wrap : Nat
  role : Role
  outs : List OutSetting
  sync : SyncState
  number : Nat
  last : Option Stamp
  nextDue : Option Word
  silence : Option Word
  lastPulse : Option Word
  pulseStart : Option Word
  leadPulse : Option Word
  sweepPulse : Option Word
  chime : Chime
  profiles : List Profile
  deriving DecidableEq, Repr

/-! ### Edition unit and report unit (chapter 10) -/

/-- Results of a switch (R172). -/
inductive Result where
  | noResult | done | kind | count | order | duplicate | range | editionOrder | memory
  deriving DecidableEq, Repr

/-- A switch in flight (R172). -/
structure Switch where
  copy : Copy
  address : Nat
  request : Nat
  deriving DecidableEq, Repr

/-- The edition unit's state of one kind (R172). -/
structure KindState where
  live : Option Copy
  liveAddress : Option Nat
  liveEdition : Nat
  pinsA : Nat
  pinsB : Nat
  switch : Option Switch
  result : Result
  deriving DecidableEq, Repr

/-- An amendment record as read (11.3). -/
structure Amendment where
  edition : Nat
  seat : Nat
  action : Nat
  kind : Nat
  fromCode : Nat
  toCode : Nat
  label : Option Nat
  note : Option Nat
  deriving DecidableEq, Repr

/-- Results of an amendment (R82). -/
inductive AmendResult where
  | applied | replaced | stale | invalid | unknownSeat | refusedUnresolved | expired | refusedFull | notFound
  deriving DecidableEq, Repr

/-- What a delivery run waits for (R181): its read of a slot, the engine's answer, or its writes. -/
inductive RunStage where
  | reading
  | handed (r : Amendment)
  | answered (r : AmendResult)
  deriving DecidableEq, Repr

/-- A delivery run (R172, R181). `cut`: RUN became 0 while the engine held the record (R187, R188). -/
structure DeliveryRun where
  post : Nat
  count : Nat
  list : Nat
  stage : RunStage
  cut : Bool
  deriving DecidableEq, Repr

/-- Results of a position request (11.2). -/
inductive PositionResult where
  | done | notServed | lastStop | noStops | invalid
  deriving DecidableEq, Repr

/-- Writes answered and not yet made (R188): a completion's full write with the request value that began the switch, an
amendment's result write and take advance, a position write. -/
inductive OwedWrite where
  | full (kind : Kind) (request : Nat)
  | amend (slot : Nat) (r : AmendResult)
  | position (r : PositionResult)
  deriving DecidableEq, Repr

/-- The edition unit (R172). -/
structure Edition where
  profile : KindState
  stops : KindState
  reservations : KindState
  notices : KindState
  content : KindState
  take : Nat
  run : Option DeliveryRun
  owed : List OwedWrite
  seq : Word
  /-- a sweep boundary waits for its boundary operation (R170) -/
  boundary : Bool
  deriving DecidableEq, Repr

/-- Agents of memory errors (R169). -/
inductive Agent where
  | edition | tracker | reservations | notices | composer | report
  deriving DecidableEq, Repr

/-- Causes of memory errors (R169). -/
inductive ErrorCause where
  | bus | check | window | signature | amendIndex
  deriving DecidableEq, Repr

/-- The last memory error (R169). -/
structure MemoryError where
  agent : Agent
  address : Nat
  cause : ErrorCause
  deriving DecidableEq, Repr

/-- Causes of glyph stream faults (R131). -/
inductive StreamFault where
  | prefixFault | lengthFault
  deriving DecidableEq, Repr

/-- The last content fault (R132). -/
structure ContentFault where
  glyph : Nat
  cause : StreamFault
  deriving DecidableEq, Repr

/-- The report unit (R184, R186, R190). `pageImage` lists (offset, value) of the fields written; a field it does not
list differs. `writing`: a page write is in progress and its fields below this index have been reached. `deferred`: the
boundaries that came during it, each of which starts a write of its own when the one before it ends. -/
structure Report where
  attention : BitVec 10
  memoryError : Option MemoryError
  contentFault : Option ContentFault
  pageImage : List (Nat × Nat)
  pageSeq : Word
  writing : Option Nat
  deferred : Nat
  boundaries : Nat
  deriving DecidableEq, Repr

/-! ### Registers and pins -/

/-- The register bits that are not another block's (R185, R168, R186). -/
structure Registers where
  run : Bool
  freeze : Bool
  windowBase : Word
  attentionEnable : BitVec 10
  deriving DecidableEq, Repr

/-- Levels of the inputs WHEEL, DOOR and TSYNC. -/
structure Pins where
  wheel : Bool
  door : Bool
  tsync : Bool
  deriving DecidableEq, Repr

/-- The SPI target port (R193): whether SSEL is low; whether the port waits, after a reset, for SSEL to go high; the SDI
bits taken in the transaction in progress; the register value that a read captured; and the bit of it that the last
falling edge of SCK put on SDO, absent where the manual gives SDO no level. -/
structure Port where
  selected : Bool
  awaitHigh : Bool
  bits : List Bool
  captured : Option Word
  sending : Option Bool
  deriving DecidableEq, Repr

/-- The part: every block of the block diagram, the registers, the pins and the memory it reaches. -/
structure Part where
  mem : Memory
  regs : Registers
  pins : Pins
  spi : Port
  odo : Odometer
  trk : Tracker
  res : Reservations
  ntc : Notices
  cmp : Composer
  lineSeat : LineCtl
  lineEnd : LineCtl
  lineDoor : LineCtl
  swp : Sweep
  ed : Edition
  rep : Report
  /-- the model's own counter for the free value `Config.tieRank` (log 8) -/
  free : Nat
  deriving DecidableEq, Repr

/-- The state: the queue of waiting commands, first in first out, and the part. -/
structure State where
  pending : List Instr
  part : Part
  deriving DecidableEq, Repr

/-! ### How a step can stop -/

/-- Reasons of a fault. The spec gives the part no stop (every fault it names is handled and reported, R169), so no
command faults and the type has no constructor. -/
inductive Fault where
  deriving DecidableEq, Repr

/-- Reasons of a refusal. -/
inductive Refusal where
  /-- raised by an arm of `exec` whose command has no meaning yet, and by no meaning; safe -/
  | notModelled (mnemonic : String)
  deriving DecidableEq, Repr

/-! ### Reset -/

/-- R1. -/
def Odometer.reset : Odometer where
  wheel := none
  motionParams := { vMove := 30, vStop := 10, nMove := 4, nStill := 3, nDoor := 5 }
  edgeCount := 0
  acc := 0
  legDistance := 0
  speedRef := none
  speed := 0
  silence := none
  motion := .still
  movingRun := 0
  stillRun := 0
  door := .locked
  doorRun := 0
  workingP := none
  pendingP := none
  marks := []
  doorMs := 0
  doorStepDue := false
  profiles := []

/-- R25, R24. -/
def Tracker.reset : Tracker where
  phase := .unplaced
  gen := 0
  passDue := false
  load := .idle
  arrival := none
  departure := none
  passed := none
  stops := []
  view := []
  portion := none
  a := 2000
  w := 300
  o := 500
  motion := .still
  door := .locked
  inbox := []
  motionIn := []
  doorIn := []
  request := none
  told := 0
  profiles := []
  boundaries := 0

/-- R63. -/
def Reservations.reset : Reservations where
  seats := []
  pages := none
  storeEdition := none
  load := .idle
  refPhase := .unplaced
  refLeg := none
  refView := []
  skipped := 0
  lowestSkipped := none
  journeys := []
  told := 0
  profiles := []
  boundaries := 0

/-- R85. -/
def Notices.reset : Notices where
  store := []
  load := .idle
  refPhase := .unplaced
  refView := []
  active := []
  plan := none
  legFired := []
  planGen := 0
  selEnd := { id := none, page := none }
  selDoor := { id := none, page := none }
  defaultEnd := none
  defaultDoor := none
  lastDropped := none
  journeys := []
  inbox := []
  told := 0
  profiles := []
  boundaries := 0

/-- R47. -/
def PositionRecord.reset : PositionRecord where
  phase := .unplaced
  xNear := none
  xFar := none
  len := none
  distance := 0
  marker := none

/-- R125, R130. -/
def Decoder.reset : Decoder where
  table := none
  buffer := []
  bitPos := 0
  pixelIndex := 0
  ink := false

/-- A FREE slot holding no image (R105, log 22). -/
def Slot.freed : Slot := { state := .free, image := [] }

/-- R105. -/
def Composer.reset : Composer where
  comp := none
  lastLine := .door
  refreshSeat := []
  refreshEnd := []
  refreshDoor := []
  slots := List.replicate 8 Slot.freed
  panels := []
  position := PositionRecord.reset
  decoder := Decoder.reset
  events := []
  moduleMarks := []
  selectionMarks := []
  panelEvents := []
  boundaries := 0
  profiles := []

/-- R141: a group after either reset. -/
def Group.reset : Group where
  round := none
  showDue := false
  completed := false
  syncFail := false
  sentStep := none
  candStep := none
  changed := false

/-- R141. -/
def LineCtl.reset : LineCtl where
  config := none
  exchange := none
  quiet := none
  tail := none
  loadPtr := 0
  showPtr := 0
  queryPtr := 0
  groups := List.replicate 4 Group.reset
  panels := []
  boundaries := 0
  profiles := []

/-- R156, R103, R165. -/
def Sweep.reset : Sweep where
  us := 0
  ms := 0
  usInMs := 0
  period := 200
  wrap := 3000
  role := .alone
  outs := List.replicate 4 { source := .off, invert := false }
  sync := .alone
  number := 0
  last := none
  nextDue := none
  silence := none
  lastPulse := none
  pulseStart := none
  leadPulse := none
  sweepPulse := none
  chime := { playing := none, pending := none, inbox := [] }
  profiles := []

/-- R172: one kind. -/
def KindState.reset : KindState where
  live := none
  liveAddress := none
  liveEdition := 0
  pinsA := 0
  pinsB := 0
  switch := none
  result := .noResult

/-- R172. -/
def Edition.reset : Edition where
  profile := KindState.reset
  stops := KindState.reset
  reservations := KindState.reset
  notices := KindState.reset
  content := KindState.reset
  take := 0
  run := none
  owed := []
  seq := 0
  boundary := false

/-- R190. -/
def Report.reset : Report where
  attention := 0
  memoryError := none
  contentFault := none
  pageImage := []
  pageSeq := 0
  writing := none
  deferred := 0
  boundaries := 0

/-- The port with SSEL high: no transaction in progress (R193). -/
def Port.idle : Port := { selected := false, awaitHigh := false, bits := [], captured := none, sending := none }

/-- R193: the port after a reset ends the transaction in progress: it waits for SSEL to go high, which it is where the
port was not selected. -/
def Port.afterReset (s : Port) : Port := { Port.idle with selected := s.selected, awaitHigh := s.selected }

/-- The part right after power-on reset (R190); memory lists nothing (log 6), the input pins, SSEL among them, are low
(log 21). -/
def Part.reset : Part where
  mem := []
  regs := { run := false, freeze := false, windowBase := 0, attentionEnable := 0 }
  pins := { wheel := false, door := false, tsync := false }
  spi := Port.afterReset { Port.idle with selected := true }
  odo := Odometer.reset
  trk := Tracker.reset
  res := Reservations.reset
  ntc := Notices.reset
  cmp := Composer.reset
  lineSeat := LineCtl.reset
  lineEnd := LineCtl.reset
  lineDoor := LineCtl.reset
  swp := Sweep.reset
  ed := Edition.reset
  rep := Report.reset
  free := 0

/-- The machine right after power-on reset, with an empty queue. -/
def State.reset : State := { pending := [], part := Part.reset }

end Sys2Proof.Machine
end

