-- ==== Sys2Proof/Machine/Ops.lean ====
section
/-! DEFINITION. The operations every family shares: memory, the bus, time, access to a line, a kind and a group. -/

namespace Sys2Proof.Machine

/-! ### Memory -/

/-- What an unlisted byte of board RAM reads as (log 6). -/
def Memory.unlisted : Byte := 0

/-- The byte at a bus address. -/
def Memory.read : Memory → Nat → Byte
  | [], _ => Memory.unlisted
  | (k, v) :: rest, a => if k = a then v else Memory.read rest a

/-- The memory with the byte at a bus address written; the canonical form is kept. -/
def Memory.write : Memory → Nat → Byte → Memory
  | [], a, v => if v = Memory.unlisted then [] else [(a, v)]
  | (k, w) :: rest, a, v =>
    if a < k then (if v = Memory.unlisted then (k, w) :: rest else (a, v) :: (k, w) :: rest)
    else if a = k then (if v = Memory.unlisted then rest else (a, v) :: rest)
    else (k, w) :: Memory.write rest a v

/-- Every address is above the bound, they rise strictly, and no byte listed is what an unlisted one reads as. -/
def Memory.wfFrom : Nat → Memory → Bool
  | _, [] => true
  | lo, (k, v) :: rest => decide (lo ≤ k) && decide (v ≠ Memory.unlisted) && Memory.wfFrom (k + 1) rest

/-- The canonical form of memory. -/
def Memory.wf (m : Memory) : Bool := Memory.wfFrom 0 m

/-- Bytes written one after another (the host's writes, log 5). -/
def Memory.writeAll (m : Memory) (cells : List Host.Cell) : Memory :=
  cells.foldl (fun m c => Memory.write m c.1 c.2) m

/-- The window's size: 16 MiB (R168). -/
def windowSize : Nat := 16777216

/-- The bus address of a window offset (R168). -/
def busAddress (base : Word) (offset : Nat) : Nat := (base.toNat + offset) % 4294967296

/-- A memory error met while reading: its cause and the window offset concerned (R169). -/
structure MemFail where
  cause : ErrorCause
  address : Nat
  deriving DecidableEq, Repr

/-- What a step reads memory through: the memory, the window's base, and what the board does meanwhile. -/
structure View where
  mem : Memory
  base : Word
  bus : Bus
  deriving DecidableEq, Repr

/-- The byte at a window offset: a memory error of cause WINDOW outside the window (log 7), of cause BUS where the board
ends the read with its error handshake (R169). -/
def View.byte (v : View) (offset : Nat) : Except MemFail Byte :=
  if windowSize ≤ offset then .error { cause := .window, address := offset }
  else if v.bus.readErrors.contains (busAddress v.base offset) then .error { cause := .bus, address := offset }
  else .ok (Memory.read v.mem (busAddress v.base offset))

/-- `n` bytes from an offset, lowest address first; the first that fails ends the read (log 78). -/
def View.bytes (v : View) (offset : Nat) : Nat → Except MemFail (List Byte)
  | 0 => .ok []
  | n + 1 =>
    match v.byte offset with
    | .error e => .error e
    | .ok b =>
      match View.bytes v (offset + 1) n with
      | .error e => .error e
      | .ok bs => .ok (b :: bs)

/-- The value of bytes, least significant first (R191). -/
def littleEndian : List Byte → Nat
  | [] => 0
  | b :: bs => b.toNat + 256 * littleEndian bs

/-- `n` bytes of a value, least significant first (R191). -/
def toBytes : Nat → Nat → List Byte
  | 0, _ => []
  | n + 1, value => BitVec.ofNat 8 value :: toBytes n (value / 256)

/-- A field of `n` bytes (R191). -/
def View.field (v : View) (offset n : Nat) : Except MemFail Nat :=
  match v.bytes offset n with
  | .error e => .error e
  | .ok bs => .ok (littleEndian bs)

/-- One byte as a number. -/
def View.u8 (v : View) (offset : Nat) : Except MemFail Nat := v.field offset 1

/-- Two bytes as a number. -/
def View.u16 (v : View) (offset : Nat) : Except MemFail Nat := v.field offset 2

/-- Four bytes as a number. -/
def View.u32 (v : View) (offset : Nat) : Except MemFail Nat := v.field offset 4

/-- A field to be written: window offset, size in bytes, value. -/
structure FieldWrite where
  offset : Nat
  size : Nat
  value : Nat
  deriving DecidableEq, Repr

/-- Bytes written from an offset in rising order; the first byte the board refuses ends it (R169), with its offset, and the
bytes before it stay written (log 81). -/
def writeBytes (base : Word) (bus : Bus) : Memory → Nat → List Byte → Memory × Option Nat
  | m, _, [] => (m, none)
  | m, offset, b :: bs =>
    if bus.writeErrors.contains (busAddress base offset) then (m, some offset)
    else writeBytes base bus (Memory.write m (busAddress base offset) b) (offset + 1) bs

/-- Fields written in order; the fields after a bus error are left unwritten (R171), and of the field it meets the bytes
before it are written (log 81). -/
def writeFields (base : Word) (bus : Bus) : Memory → List FieldWrite → Memory × Option Nat
  | m, [] => (m, none)
  | m, f :: fs =>
    match writeBytes base bus m f.offset (toBytes f.size f.value) with
    | (m', none) => writeFields base bus m' fs
    | (m', some a) => (m', some a)

/-- The part's view of memory in this step. -/
def Part.view (p : Part) (bus : Bus) : View := { mem := p.mem, base := p.regs.windowBase, bus := bus }

/-- The host's writes since the step before have landed (log 5). -/
def Part.hostWrites (p : Part) (bus : Bus) : Part := { p with mem := Memory.writeAll p.mem bus.host }

/-- The host's writes between this step's reads and its writes have landed (R176, R183). -/
def Part.lateWrites (p : Part) (bus : Bus) : Part := { p with mem := Memory.writeAll p.mem bus.late }

/-- A board that neither writes nor refuses anything. -/
def Bus.quiet : Bus := { host := [], late := [], readErrors := [], writeErrors := [], wait := false }

/-! ### Time -/

/-- A deadline is reached when the time base has come to it or passed it, judged modulo 2^32 (R156). -/
def reached (now deadline : Word) : Bool := decide ((now - deadline).toNat < 2147483648)

/-- A deadline that is present and reached. -/
def reachedOpt (now : Word) (deadline : Option Word) : Bool :=
  match deadline with
  | none => false
  | some d => reached now d

/-! ### Phases -/

/-- The current leg k of a tracker state (R25). -/
def Phase.leg : Phase → Option Nat
  | .atStop k => some k
  | .running k => some k
  | .approaching k => some k
  | .halted k => some k
  | .doubt k => some k
  | .unplaced => none
  | .ended => none
  | .lost => none

/-- The leg states RUNNING, APPROACHING, HALTED and DOUBT with their leg (R47). -/
def Phase.runLeg : Phase → Option Nat
  | .running k => some k
  | .approaching k => some k
  | .halted k => some k
  | .doubt k => some k
  | .atStop _ => none
  | .unplaced => none
  | .ended => none
  | .lost => none

/-! ### Lists -/

/-- The place of the first element that the test holds of. -/
def findIndex {α : Type} (test : α → Bool) : List α → Option Nat
  | [] => none
  | x :: xs => if test x then some 0 else (findIndex test xs).map (· + 1)

/-- Insertion after every element that the new one does not come before: equal ones keep their order. -/
def insertBy {α : Type} (before : α → α → Bool) (x : α) : List α → List α
  | [] => [x]
  | y :: ys => if before x y then x :: y :: ys else y :: insertBy before x ys

/-- Stable insertion sort. -/
def sortBy {α : Type} (before : α → α → Bool) (xs : List α) : List α :=
  xs.foldl (fun acc x => insertBy before x acc) []

/-- The list with the element at a place changed. -/
def changeAt {α : Type} (f : α → α) : Nat → List α → List α
  | _, [] => []
  | 0, x :: xs => f x :: xs
  | n + 1, x :: xs => x :: changeAt f n xs

/-- The first element above the pointer, or the first of all: the round-robin of R145 over rising addresses. -/
def roundRobin (pointer : Nat) (rising : List Nat) : Option Nat :=
  match rising.find? (fun a => decide (pointer < a)) with
  | some a => some a
  | none => rising.head?

/-! ### Lines and kinds -/

/-- The controller of a line. -/
def Part.line (p : Part) : Line → LineCtl
  | .seat => p.lineSeat
  | .end_ => p.lineEnd
  | .door => p.lineDoor

/-- The part with a line's controller replaced. -/
def Part.setLine (p : Part) (l : Line) (c : LineCtl) : Part :=
  match l with
  | .seat => { p with lineSeat := c }
  | .end_ => { p with lineEnd := c }
  | .door => { p with lineDoor := c }

/-- A line's configuration in a profile (11.3). -/
def Profile.line (f : Profile) : Line → LineConfig
  | .seat => f.seat
  | .end_ => f.end_
  | .door => f.door

/-- A line's refresh list (R114). -/
def Composer.refresh (c : Composer) : Line → List Nat
  | .seat => c.refreshSeat
  | .end_ => c.refreshEnd
  | .door => c.refreshDoor

/-- The composer with a line's refresh list replaced. -/
def Composer.setRefresh (c : Composer) (l : Line) (r : List Nat) : Composer :=
  match l with
  | .seat => { c with refreshSeat := r }
  | .end_ => { c with refreshEnd := r }
  | .door => { c with refreshDoor := r }

/-- The edition unit's state of a kind (R172). -/
def Edition.kind (e : Edition) : Kind → KindState
  | .coachProfile => e.profile
  | .stopList => e.stops
  | .reservationTable => e.reservations
  | .noticeTable => e.notices
  | .contentSet => e.content

/-- The edition unit with a kind's state replaced. -/
def Edition.setKind (e : Edition) (k : Kind) (s : KindState) : Edition :=
  match k with
  | .coachProfile => { e with profile := s }
  | .stopList => { e with stops := s }
  | .reservationTable => { e with reservations := s }
  | .noticeTable => { e with notices := s }
  | .contentSet => { e with content := s }

/-- The number of a kind, 1 to 5 (chapter 10). -/
def Kind.number : Kind → Nat
  | .coachProfile => 1
  | .stopList => 2
  | .reservationTable => 3
  | .noticeTable => 4
  | .contentSet => 5

/-- The kinds in order. -/
def Kind.all : List Kind := [.coachProfile, .stopList, .reservationTable, .noticeTable, .contentSet]

/-- The lines in the order SEAT, END, DOOR (R115). -/
def Line.all : List Line := [.seat, .end_, .door]

/-- The record of the panel at an address (R141). -/
def LineCtl.panel (c : LineCtl) (a : Nat) : Option Panel := c.panels.find? (fun q => q.address == a)

/-- A panel's health; a panel without a record is ABSENT. -/
def LineCtl.health (c : LineCtl) (a : Nat) : Health :=
  match c.panel a with
  | none => .absent
  | some q => q.health

/-- The controller with the record of one panel changed. -/
def LineCtl.changePanel (c : LineCtl) (a : Nat) (f : Panel → Panel) : LineCtl :=
  { c with panels := c.panels.map (fun q => if q.address = a then f q else q) }

/-- A group's state (R141). -/
def LineCtl.group (c : LineCtl) (g : Nat) : Group := c.groups.getD g Group.reset

/-- The controller with one group's state changed. -/
def LineCtl.changeGroup (c : LineCtl) (g : Nat) (f : Group → Group) : LineCtl :=
  { c with groups := changeAt f g c.groups }

/-! ### Pins of table copies (R178) -/

/-- The pin count of a copy. -/
def KindState.pins (s : KindState) : Copy → Nat
  | .a => s.pinsA
  | .b => s.pinsB

/-- A reader takes a pin. -/
def KindState.pin (s : KindState) : Copy → KindState
  | .a => { s with pinsA := s.pinsA + 1 }
  | .b => { s with pinsB := s.pinsB + 1 }

/-- A reader drops its pin. -/
def KindState.unpin (s : KindState) : Copy → KindState
  | .a => { s with pinsA := s.pinsA - 1 }
  | .b => { s with pinsB := s.pinsB - 1 }

/-- A copy is busy while it is live or its pin count is above 0 (R178). -/
def KindState.busy (s : KindState) (c : Copy) : Bool := decide (s.live = some c) || decide (0 < s.pins c)

/-- The part with a kind's state changed. -/
def Part.changeKind (p : Part) (k : Kind) (f : KindState → KindState) : Part :=
  { p with ed := p.ed.setKind k (f (p.ed.kind k)) }

/-- Pin a copy of a kind. -/
def Part.pin (p : Part) (k : Kind) (c : Copy) : Part := p.changeKind k (fun s => s.pin c)

/-- Drop a pin on a copy of a kind. -/
def Part.unpin (p : Part) (k : Kind) (c : Copy) : Part := p.changeKind k (fun s => s.unpin c)

/-- Drop the pin of a load in flight, if there is one (R22, R65, R87). -/
def Part.dropLoadPin (p : Part) (k : Kind) (l : LoadState) : Part :=
  match l with
  | .loading c _ _ => p.unpin k c
  | .idle => p
  | .owed => p

/-! ### Outcomes -/

/-- The answer of every meaning. -/
abbrev Answer := Host.Outcome State Fault Refusal

/-- The state with the part changed; the queue is not touched. -/
def State.onPart (s : State) (f : Part → Part) : Answer := .next { s with part := f s.part }

end Sys2Proof.Machine
end

