-- ==== Sys2Proof/Machine/Glyph.lean ====
section
/-! DEFINITION. The run decoder (chapter 7). -/

namespace Sys2Proof.Machine

/-- How the decoding of a glyph can stop short (R131, R133). -/
inductive StreamStop where
  | fault (f : StreamFault)
  | memory (f : MemFail)
  deriving DecidableEq, Repr

/-- A symbol that stops short (R128, R129): why, and the bit position after the bits taken for it (R127). -/
structure SymbolStop where
  stop : StreamStop
  bitPos : Nat
  deriving DecidableEq, Repr

/-- R125: X(r); for r from 8 it is X(7) (R129). -/
def RunTable.tailBits (t : RunTable) (r : Nat) : Nat :=
  if t.short then t.commonX else ((t.entries[min r 7]?).map (·.x)).getD 0

/-- R125: the END index. It is absent too where END mode is ON and no entry has the flag, which R126 refuses: a prefix of
such a working copy ends as with END mode OFF (log 50). -/
def RunTable.endIndex (t : RunTable) : Option Nat := if t.endMode then findIndex (·.endFlag) t.entries else none

/-- R129: base(R), the sum of 2^X(r) over r below R. -/
def RunTable.base (t : RunTable) : Nat → Nat
  | 0 => 0
  | r + 1 => RunTable.base t r + 2 ^ t.tailBits r

/-- R127: bit p of a stream of `len` bytes from an address. -/
def View.streamBit (v : View) (a len pos : Nat) : Except StreamStop Bool :=
  if 8 * len ≤ pos then .error (.fault .lengthFault)
  else match v.byte (a + pos / 8) with
    | .error f => .error (.memory f)
    | .ok b => .ok (b.toNat.testBit (pos % 8))

/-- R128: the prefix, with the count so far: its prefix count and the bit position after it, which goes up by 1 with each
bit taken (R127), where the prefix stops short too. The first argument bounds the bits taken. -/
def View.streamPrefix (v : View) (a len : Nat) (t : RunTable) : Nat → Nat → Nat → Except SymbolStop (Nat × Nat)
  | 0, _, pos => .error { stop := .fault .prefixFault, bitPos := pos }
  | n + 1, count, pos =>
    if t.endIndex = some count then .ok (count, pos)
    else if 32 ≤ count then .error { stop := .fault .prefixFault, bitPos := pos }
    else match v.streamBit a len pos with
      | .error e => .error { stop := e, bitPos := pos }
      | .ok b => if b = t.zeros then .ok (count, pos + 1) else View.streamPrefix v a len t n (count + 1) (pos + 1)

/-- R129: `n` tail bits, the first the most significant: their value and the bit position after them (R127). -/
def View.streamTail (v : View) (a len : Nat) : Nat → Nat → Nat → Except SymbolStop (Nat × Nat)
  | 0, value, pos => .ok (value, pos)
  | n + 1, value, pos =>
    match v.streamBit a len pos with
    | .error e => .error { stop := e, bitPos := pos }
    | .ok b => View.streamTail v a len n (2 * value + (if b then 1 else 0)) (pos + 1)

/-- R128, R129: a symbol: the length of its run and the bit position after it; one that stops short gives no run, and its
bits count in the bit position all the same (R127; those that R129 discards, log 75). -/
def View.streamSymbol (v : View) (a len : Nat) (t : RunTable) (pos : Nat) : Except SymbolStop (Nat × Nat) :=
  match v.streamPrefix a len t 33 0 pos with
  | .error e => .error e
  | .ok (r, pos) =>
    match v.streamTail a len (t.tailBits r) 0 pos with
    | .error e => .error e
    | .ok (tail, pos) => .ok (t.base r + tail + 1, pos)

/-- R130: the decoder at a glyph's start. -/
def Decoder.start (d : Decoder) : Decoder := { d with buffer := [], bitPos := 0, pixelIndex := 0, ink := false }

/-- R130: a run written, cut at the glyph's N pixels. -/
def Decoder.run (d : Decoder) (n length pos : Nat) : Decoder :=
  let cut := min length (n - d.pixelIndex)
  { d with buffer := d.buffer ++ List.replicate cut d.ink, bitPos := pos, pixelIndex := d.pixelIndex + cut
           ink := !d.ink }

/-- R130: symbols decoded until the glyph has its N pixels, or one stops short; the bit position is then that after the last
bit taken (R127). Every symbol gives a pixel or more, so N symbols are enough. -/
def View.decodeRuns (v : View) (a len : Nat) (t : RunTable) (n : Nat) : Nat → Decoder → Decoder × Option StreamStop
  | 0, d => (d, none)
  | fuel + 1, d =>
    if n ≤ d.pixelIndex then (d, none)
    else match v.streamSymbol a len t d.bitPos with
      | .error e => ({ d with bitPos := e.bitPos }, some e.stop)
      | .ok (length, pos) => View.decodeRuns v a len t n fuel (d.run n length pos)

/-- R131: the pixels from the pixel index on are paper. -/
def Decoder.fillPaper (d : Decoder) (n : Nat) : Decoder :=
  { d with buffer := d.buffer ++ List.replicate (n - d.pixelIndex) false }

/-- R130, R131, R133: the decoding of a glyph of N pixels, all of them where a record changed since its validation gives more
than the 32 × 32 of R125 (log 50). At a fault the rest is paper; at a memory error the buffer
is discarded. -/
def View.decodeGlyph (v : View) (d : Decoder) (t : RunTable) (a len n : Nat) : Decoder × Option StreamStop :=
  match v.decodeRuns a len t n n d.start with
  | (d, none) => (d, none)
  | (d, some (.fault f)) => (d.fillPaper n, some (.fault f))
  | (d, some (.memory f)) => ({ d with buffer := [] }, some (.memory f))

end Sys2Proof.Machine
end

