-- ==== Sys2Proof/Machine/Flags.lean ====
section
/-! DEFINITION. Attention flags and ATTN, memory error reports, the output lines and the train sync drive. -/

namespace Sys2Proof.Machine

/-- The ten attention flags in bit order (11.7). -/
inductive Flag where
  | switchDone | switchRefused | journey | amend | noticeDrop | panel | groupSyncFail | trainSync | memory | content
  deriving DecidableEq, Repr

/-- The flag's bit (11.7). -/
def Flag.bit : Flag → Nat
  | .switchDone => 0
  | .switchRefused => 1
  | .journey => 2
  | .amend => 3
  | .noticeDrop => 4
  | .panel => 5
  | .groupSyncFail => 6
  | .trainSync => 7
  | .memory => 8
  | .content => 9

/-- The flag as a mask. -/
def Flag.mask (f : Flag) : BitVec 10 := 1#10 <<< f.bit

/-- R186: a flag is set by its event; setting a flag that is set leaves it set. -/
def Report.raise (r : Report) (f : Flag) : Report := { r with attention := r.attention ||| f.mask }

/-- R186 at the part. -/
def Part.raise (p : Part) (f : Flag) : Part := { p with rep := p.rep.raise f }

/-- R186 on a condition. -/
def Part.raiseIf (p : Part) (b : Bool) (f : Flag) : Part := if b then p.raise f else p

/-- R186: ATTN is active while at least one flag is set whose enable is set. -/
def Part.attn (p : Part) : Bool := decide (p.rep.attention &&& p.regs.attentionEnable ≠ 0)

/-- R169: the report unit replaces its last memory error and raises MEMORY. -/
def Part.memoryError (p : Part) (agent : Agent) (address : Nat) (cause : ErrorCause) : Part :=
  { p with rep := { p.rep with memoryError := some { agent := agent, address := address, cause := cause } } }.raise .memory

/-- R132: the report unit replaces its last content fault and raises CONTENT. -/
def Part.contentFault (p : Part) (glyph : Nat) (cause : StreamFault) : Part :=
  { p with rep := { p.rep with contentFault := some { glyph := glyph, cause := cause } } }.raise .content

/-- A configured panel of the line is OFFLINE (R144). -/
def LineCtl.anyOffline (c : LineCtl) : Bool := c.panels.any (fun q => decide (q.health = .offline))

/-- The chime player is in the on-part of a tone (R102). -/
def Chime.sounding (c : Chime) : Bool :=
  match c.playing with
  | none => false
  | some t => t.on

/-- R166: whether an output source is active. -/
def Part.sourceActive (p : Part) : OutSource → Bool
  | .off => false
  | .on => true
  | .chime => p.swp.chime.sounding
  | .doorsReleased => decide (p.odo.door = .released)
  | .moving => decide (p.odo.motion = .moving)
  | .sweepPulse => p.swp.sweepPulse.isSome
  | .panelFault => p.lineSeat.anyOffline || p.lineEnd.anyOffline || p.lineDoor.anyOffline
  | .attention => p.attn

/-- R166: the level of output line i, 0 to 3. -/
def Part.outLevel (p : Part) (i : Nat) : Bool :=
  match p.swp.outs[i]? with
  | none => false
  | some o => xor (p.sourceActive o.source) o.invert

/-- R160: what the part drives on TSYNC; none is not driven. A lead pulse is sent to its end after the role leaves
LEAD. -/
def Part.tsyncDrive (p : Part) : Option Bool :=
  match p.swp.leadPulse with
  | some _ => some true
  | none => if p.swp.sync = .leading then some false else none

end Sys2Proof.Machine
end

