-- ==== Sys2Proof/Machine/Odometer.lean ====
section
/-! DEFINITION. The odometer (chapter 1): edges, captures, speed, motion, doors, the Mark Set and its requests. -/

namespace Sys2Proof.Machine

/-- The greatest Leg Distance (R1, R7). -/
def legDistanceMax : Nat := 4294967295

/-! ### Motion detector -/

/-- R12: the runs after a sample is classed and counted. -/
def countSample (m : MotionParams) (v movingRun stillRun : Nat) : Nat × Nat :=
  if m.vMove ≤ v then (min (movingRun + 1) 31, 0)
  else if v < m.vStop then (0, min (stillRun + 1) 7)
  else (0, 0)

/-- R12: the motion state after counting. -/
def motionAfter (m : MotionParams) (state : Motion) (runs : Nat × Nat) : Motion :=
  match state with
  | .still => if m.nMove ≤ runs.1 then .moving else .still
  | .moving => if m.nStill ≤ runs.2 then .still else .moving

/-- R12: a speed sample at the motion detector; both runs become 0 at a change. The sample is also the speed value
(R10, R11). -/
def Odometer.takeSample (o : Odometer) (v : Nat) : Odometer :=
  let runs := countSample o.motionParams v o.movingRun o.stillRun
  let after := motionAfter o.motionParams o.motion runs
  if after = o.motion then { o with speed := v, movingRun := runs.1, stillRun := runs.2 }
  else { o with speed := v, motion := after, movingRun := 0, stillRun := 0 }

/-- R13: a change of motion state is sent to the tracker; no event for a sample that does not change it. -/
def Part.reportMotion (p : Part) (before : Motion) : Part :=
  if p.odo.motion = before then p
  else { p with trk := { p.trk with motionIn := p.trk.motionIn ++ [p.odo.motion] } }

/-! ### Distance and speed -/

/-- R6, R7: Leg Distance and acc after a capture. -/
def advance (w : WheelParams) (workingP acc legDistance : Nat) : Nat × Nat :=
  (min (legDistance + (acc + w.d * w.c) / workingP) legDistanceMax, (acc + w.d * w.c) % workingP)

/-- R10: the speed sample of a period of T us; a period of 0 is taken as 1, and the sample holds at 4000. -/
def speedSample (w : WheelParams) (workingP period : Nat) : Nat :=
  min (w.d * w.c * 36000 / (workingP * max period 1)) 4000

/-- R10: the sample a capture at time t gives, if the speed reference is present. -/
def captureSample (w : WheelParams) (workingP : Nat) (ref : Option Word) (t : Word) : Option Nat :=
  match ref with
  | none => none
  | some r => some (speedSample w workingP (t - r).toNat)

/-! ### The Mark Set -/

/-- The share of an owner (R15). -/
def markShare : Owner → Nat
  | .tracker => 2
  | .notices => 6

/-- The marks of an owner. -/
def marksOf (ms : List Mark) (o : Owner) : List Mark := ms.filter (fun m => m.tag.owner = o)

/-- A mark with its rank for ties (R16, log 8). -/
def rankMarks (n : Nat) : Nat → List Mark → List (Nat × Mark)
  | _, [] => []
  | i, m :: ms => (Config.tieRank n i, m) :: rankMarks n (i + 1) ms

/-- R16: the order in which one capture's marks are handed out: ascending distance, equal distances by the free rank. -/
def markBefore (x y : Nat × Mark) : Bool :=
  decide (x.2.distance < y.2.distance) || (decide (x.2.distance = y.2.distance) && decide (x.1 < y.1))

/-- R16: the marks that a Leg Distance fires, in the order they are handed out. -/
def firedMarks (n : Nat) (ms : List Mark) (legDistance : Nat) : List Mark :=
  ((sortBy markBefore (rankMarks n 0 ms)).map (·.2)).filter (fun m => decide (m.distance ≤ legDistance))

/-- R16: the marks that stay. -/
def keptMarks (ms : List Mark) (legDistance : Nat) : List Mark :=
  ms.filter (fun m => decide (legDistance < m.distance))

/-- The mark events among fired marks that are the tracker's. -/
def trackerMarks (ms : List Mark) : List OdoEvent := (marksOf ms .tracker).map (fun m => .mark m.tag)

/-- The notice scheduler's event of a mark. -/
def noticeEventOf (m : Mark) : Option NoticeEvent :=
  match m.tag with
  | .notice id gen => some (.mark id gen)
  | .approach _ => none
  | .pass _ => none

/-- The mark events among fired marks that are the notice scheduler's. -/
def noticeMarks (ms : List Mark) : List NoticeEvent := ms.filterMap noticeEventOf

/-! ### Captures -/

/-- The odometer's own state after a capture (R5, R6, R7, R10, R11, R16), given its wheel parameters. -/
def Odometer.afterCapture (o : Odometer) (w : WheelParams) (us ms : Word) : Odometer :=
  let workingP := o.workingP.getD w.p
  let moved := advance w workingP o.acc o.legDistance
  let o := { o with edgeCount := 0, legDistance := moved.1, acc := moved.2, silence := some (ms + 500#32)
                    marks := keptMarks o.marks moved.1 }
  match captureSample w workingP o.speedRef us with
  | none => { o with speedRef := some us }
  | some v => { o.takeSample v with speedRef := some us }

/-- R5: a capture, one event at the odometer. Toward the tracker the distance advanced event goes first, then the mark
events (R16). -/
def Part.takeCapture (p : Part) : Part :=
  match p.odo.wheel with
  | none => p
  | some w =>
    let odo := p.odo.afterCapture w p.swp.us p.swp.ms
    let fired := firedMarks p.free p.odo.marks odo.legDistance
    let trk := { p.trk with inbox := p.trk.inbox ++ (.advanced odo.legDistance :: trackerMarks fired) }
    let ntc := { p.ntc with inbox := p.ntc.inbox ++ noticeMarks fired }
    Part.reportMotion { p with odo := odo, trk := trk, ntc := ntc, free := p.free + 1 } p.odo.motion

/-- R5: an edge on WHEEL. In ACTIVE mode an edge of the selected direction counts, and the D-th makes a capture; in
DORMANT mode every edge is lost. -/
def Part.takeEdge (p : Part) (rising : Bool) : Part :=
  let p := { p with pins := { p.pins with wheel := rising } }
  match p.odo.wheel with
  | none => p
  | some w =>
    if rising = w.rising then
      if w.d ≤ p.odo.edgeCount + 1 then p.takeCapture
      else { p with odo := { p.odo with edgeCount := p.odo.edgeCount + 1 } }
    else p

/-- The next active edge brings the edge counter to D (R5). -/
def Odometer.captureDue (o : Odometer) : Bool :=
  match o.wheel with
  | none => false
  | some w => decide (w.d ≤ o.edgeCount + 1)

/-- CAPTURE: the D-th active edge; its WHEEL level is that of the selected edge. -/
def Part.captureEdge (p : Part) : Part :=
  match p.odo.wheel with
  | none => p
  | some w => if p.odo.captureDue then p.takeEdge w.rising else p

/-! ### Silence and doors -/

/-- R11: the silence sample. -/
def Odometer.silenceSample (o : Odometer) (ms : Word) : Odometer :=
  { o.takeSample 0 with speedRef := none, silence := some (ms + 500#32) }

/-- R11: when the ms time base reaches the silence deadline. -/
def Part.takeSilence (p : Part) : Part :=
  if reachedOpt p.swp.ms p.odo.silence then
    Part.reportMotion { p with odo := p.odo.silenceSample p.swp.ms } p.odo.motion
  else p

/-- The level of DOOR that matches a door state: high for RELEASED (R14). -/
def Door.level : Door → Bool
  | .locked => false
  | .released => true

/-- The other door state. -/
def Door.other : Door → Door
  | .locked => .released
  | .released => .locked

/-- R14: a sample of the DOOR line. -/
def Odometer.doorSample (o : Odometer) (level : Bool) : Odometer :=
  if level = o.door.level then { o with doorRun := 0 }
  else if o.motionParams.nDoor ≤ o.doorRun + 1 then { o with door := o.door.other, doorRun := 0 }
  else { o with doorRun := o.doorRun + 1 }

/-- R14: a 10 ms step; a change of door state is sent to the tracker. A DOOR_SAMPLE of the queue is itself such a step and
samples whether or not the part's own count has one due (log 56). -/
def Part.takeDoorSample (p : Part) (level : Bool) : Part :=
  let odo := { p.odo.doorSample level with doorStepDue := false }
  let p' := { p with odo := odo, pins := { p.pins with door := level } }
  if odo.door = p.odo.door then p'
  else { p' with trk := { p'.trk with doorIn := p'.trk.doorIn ++ [odo.door] } }

/-! ### Requests -/

/-- R18: one clear notice to each owner that had at least one mark in the set. -/
def Part.sendClearNotices (p : Part) (dropped : List Mark) : Part :=
  { p with
    trk := { p.trk with inbox := p.trk.inbox ++ (if (marksOf dropped .tracker).isEmpty then [] else [.cleared]) }
    ntc := { p.ntc with inbox := p.ntc.inbox ++ (if (marksOf dropped .notices).isEmpty then [] else [.cleared]) } }

/-- R8: working P at a set of Leg Distance. -/
def Odometer.applyPendingP (o : Odometer) : Option Nat :=
  match o.pendingP with
  | none => o.workingP
  | some q => some q

/-- R8: a set request. -/
def Part.setLeg (p : Part) (mm : Nat) : Part :=
  Part.sendClearNotices
    { p with odo := { p.odo with legDistance := min mm legDistanceMax, acc := 0, workingP := p.odo.applyPendingP
                                 pendingP := none, marks := [] } }
    p.odo.marks

/-- R9: a reduce request; Leg Distance floors at 0. -/
def Part.reduceLeg (p : Part) (mm : Nat) : Part :=
  Part.sendClearNotices { p with odo := { p.odo with legDistance := p.odo.legDistance - mm, marks := [] } } p.odo.marks

/-- R17: a clear request; no clear notice. -/
def Part.clearOwner (p : Part) (o : Owner) : Part :=
  { p with odo := { p.odo with marks := p.odo.marks.filter (fun m => m.tag.owner ≠ o) } }

/-- R15: the mark event of an arm request that fires at once, sent to its owner. -/
def Part.fireMark (p : Part) (tag : MarkTag) : Part :=
  match tag with
  | .approach g => { p with trk := { p.trk with inbox := p.trk.inbox ++ [.mark (.approach g)] } }
  | .pass g => { p with trk := { p.trk with inbox := p.trk.inbox ++ [.mark (.pass g)] } }
  | .notice id g => { p with ntc := { p.ntc with inbox := p.ntc.inbox ++ [.mark id g] } }

/-- R15: an arm request. A mark at or below Leg Distance fires at once and takes no place; another enters the set, if its
owner's share has a place (log 12). -/
def Part.armMark (p : Part) (tag : MarkTag) (mm : Nat) : Part :=
  if mm ≤ p.odo.legDistance then p.fireMark tag
  else if (marksOf p.odo.marks tag.owner).length < markShare tag.owner then
    { p with odo := { p.odo with marks := p.odo.marks ++ [{ tag := tag, distance := mm }] } }
  else p

/-- R18: an owner takes a clear notice, without action (R28, R93). -/
def Part.takeClearNotice (p : Part) (o : Owner) : Part :=
  match o with
  | .tracker =>
    match p.trk.inbox with
    | .cleared :: rest => { p with trk := { p.trk with inbox := rest } }
    | _ => p
  | .notices =>
    match p.ntc.inbox with
    | .cleared :: rest => { p with ntc := { p.ntc with inbox := rest } }
    | _ => p

/-! ### Coach-profile load -/

/-- R4: pending P after a later load: a P equal to working P makes it absent. -/
def pendingAfter (workingP : Option Nat) (newP : Nat) : Option Nat :=
  if workingP = some newP then none else some newP

/-- R4: the first load. Its comparisons with the values in force are made at later loads only, so the runs stand. -/
def Odometer.firstLoad (o : Odometer) (f : Profile) (ms : Word) : Odometer :=
  { o with wheel := some f.wheel, motionParams := f.motion, workingP := some f.wheel.p, pendingP := none
           edgeCount := 0, acc := 0, speedRef := none, silence := some (ms + 500#32) }

/-- R4: a later load, in ACTIVE mode. -/
def Odometer.laterLoad (o : Odometer) (w : WheelParams) (f : Profile) : Odometer :=
  let capture := decide (f.wheel.rising ≠ w.rising) || decide (f.wheel.d ≠ w.d)
  let motion := decide ({ f.motion with nDoor := o.motionParams.nDoor } ≠ o.motionParams)
  { o with wheel := some f.wheel, motionParams := f.motion
           edgeCount := if capture then 0 else o.edgeCount
           speedRef := if capture then none else o.speedRef
           pendingP := pendingAfter o.workingP f.wheel.p
           movingRun := if motion then 0 else o.movingRun
           stillRun := if motion then 0 else o.stillRun
           doorRun := if f.motion.nDoor = o.motionParams.nDoor then o.doorRun else 0 }

/-- R4: a coach-profile load. -/
def Odometer.load (o : Odometer) (f : Profile) (ms : Word) : Odometer :=
  match o.wheel with
  | none => o.firstLoad f ms
  | some w => o.laterLoad w f

/-- R4: the odometer takes the profile handed to it. One that was handed over before RUN became 0 is taken while RUN is 0
as well (R19; log 58). -/
def Part.odometerProfile (p : Part) : Part :=
  match p.odo.profiles with
  | [] => p
  | f :: rest => { p with odo := { p.odo.load f p.swp.ms with profiles := rest } }

/-! ### Meanings -/

/-- WHEEL_EDGE (R5). -/
def execWheelEdge (rising : Bool) (s : State) : Answer := s.onPart (·.takeEdge rising)

/-- CAPTURE (R5, R6, R7, R10, R11, R13, R16). -/
def execCapture (s : State) : Answer := s.onPart (·.captureEdge)

/-- SILENCE_SAMPLE (R11). -/
def execSilenceSample (s : State) : Answer := s.onPart (·.takeSilence)

/-- DOOR_SAMPLE (R14). -/
def execDoorSample (level : Bool) (s : State) : Answer := s.onPart (·.takeDoorSample level)

/-- SET_LEG_DISTANCE (R8). -/
def execSetLegDistance (mm : Word) (s : State) : Answer := s.onPart (·.setLeg mm.toNat)

/-- REDUCE_LEG_DISTANCE (R9). -/
def execReduceLegDistance (mm : BitVec 40) (s : State) : Answer := s.onPart (·.reduceLeg mm.toNat)

/-- ARM_MARK (R15). -/
def execArmMark (tag : MarkTag) (mm : BitVec 40) (s : State) : Answer := s.onPart (·.armMark tag mm.toNat)

/-- CLEAR_MARKS (R17). -/
def execClearMarks (owner : Owner) (s : State) : Answer := s.onPart (·.clearOwner owner)

/-- CLEAR_NOTICE (R18). -/
def execClearNotice (owner : Owner) (s : State) : Answer := s.onPart (·.takeClearNotice owner)

/-- ODOMETER_PROFILE_LOAD (R4). -/
def execOdometerProfileLoad (s : State) : Answer := s.onPart (·.odometerProfile)

end Sys2Proof.Machine
end

