-- ==== Sys2Proof/Machine/Tracker.lean ====
section
/-! DEFINITION. The tracker (chapter 2) but for its loads and position requests: the served view, marks, the moves
through the journey, remapping. -/

namespace Sys2Proof.Machine

/-! ### The served view (R23) -/

/-- The portion's bit of a portion mask (11.3: bits 0-3 for portions 1-4). -/
def StopRecord.serves (r : StopRecord) (portion : Nat) : Bool := r.mask.testBit (portion - 1)

/-- R23: the served view of the records from list index `i` on, with the sum of the leg lengths that stand before its
first served stop. -/
def servedFrom (portion : Nat) : Nat → List StopRecord → Nat × List ServedStop
  | _, [] => (0, [])
  | i, r :: rs =>
    let rest := servedFrom portion (i + 1) rs
    if r.serves portion then
      (0, { code := r.code, mapX := r.mapX, index := i, divide := r.divide, join := r.join
            legLength := if rest.2.isEmpty then 0 else r.legLength + rest.1 } :: rest.2)
    else (r.legLength + rest.1, rest.2)

/-- R23: the served view; empty while the portion is absent. -/
def servedView (stops : List StopRecord) (portion : Option Nat) : List ServedStop :=
  match portion with
  | none => []
  | some q => (servedFrom q 0 stops).2

/-- The code of a served stop (0 where the view has no such stop). -/
def codeAt (view : List ServedStop) (k : Nat) : Nat := (view[k]?.map (·.code)).getD 0

/-- L_k in metres (0 where the view has no such leg). -/
def legAt (view : List ServedStop) (k : Nat) : Nat := (view[k]?.map (·.legLength)).getD 0

/-- The served index of a stop code. -/
def indexOfCode (view : List ServedStop) (code : Nat) : Option Nat := findIndex (fun s => s.code == code) view

/-! ### Names (R26) -/

/-- R26: the current stop's place in the served view. -/
def currentStop (phase : Phase) (view : List ServedStop) : Option ServedStop :=
  match phase with
  | .ended => view.getLast?
  | .unplaced => none
  | .lost => none
  | .atStop k => view[k]?
  | .running k => view[k]?
  | .approaching k => view[k]?
  | .halted k => view[k]?
  | .doubt k => view[k]?

/-- R26: the next stop; absent in AT_STOP at the last served stop. -/
def nextStop (phase : Phase) (view : List ServedStop) : Option ServedStop :=
  match phase.leg with
  | none => none
  | some k => view[k + 1]?

/-! ### Publishing (R44) -/

/-- R44: a journey event, made from the tracker as it stands, to the reservation engine, the notice scheduler and the
composer. The report unit reads the tracker when it writes the page (R43, R184). -/
def Part.publish (p : Part) (cause : Cause) (code : Option Nat) : Part :=
  let e : JourneyEvent := { cause := cause, phase := p.trk.phase, code := code, view := p.trk.view }
  { p with
    res := { p.res with journeys := p.res.journeys ++ [e] }
    ntc := { p.ntc with journeys := p.ntc.journeys ++ [e] }
    cmp := { p.cmp with events := p.cmp.events ++ [.journey e] } }

/-- The tracker in another state. -/
def Part.enter (p : Part) (phase : Phase) : Part := { p with trk := { p.trk with phase := phase } }

/-! ### The tracker's marks (R27) -/

/-- R27: to drop its marks, the tracker sends a clear request and clears pass due. -/
def Part.dropMarks (p : Part) : Part :=
  let p := p.clearOwner .tracker
  { p with trk := { p.trk with passDue := false } }

/-- The distance of the APPROACH mark in mm (R27). -/
def approachMm (leg a : Nat) : Nat := (leg - a) * 1000

/-- The distance of the PASS mark in mm (R27). -/
def passMm (leg o : Nat) : Nat := (leg + o) * 1000

/-- R27: to arm for leg k. Marks that fire at once are the tracker's next events (log 11). -/
def Part.armForLeg (p : Part) (k : Nat) : Part :=
  let waiting := p.trk.inbox
  let gen := p.trk.gen + 1#16
  let p := Part.clearOwner { p with trk := { p.trk with gen := gen, inbox := [] } } .tracker
  let p := { p with trk := { p.trk with passDue := false } }
  let p := p.armMark (.approach gen) (approachMm (legAt p.trk.view k) p.trk.a)
  let p := p.armMark (.pass gen) (passMm (legAt p.trk.view k) p.trk.o)
  { p with trk := { p.trk with inbox := p.trk.inbox ++ waiting } }

/-! ### Records (R42) -/

/-- A record written now, with the measured metres of the present Leg Distance. -/
def Part.journeyRecord (p : Part) (code expected : Nat) : JourneyRecord :=
  { code := code, measured := p.odo.legDistance / 1000, expected := expected, ms := p.swp.ms }

/-! ### Tests -/

/-- The distance test of R32: APPROACHING at or beyond the approach distance, RUNNING below it. -/
def Part.runningOrApproaching (p : Part) (k : Nat) : Phase :=
  if approachMm (legAt p.trk.view k) p.trk.a ≤ p.odo.legDistance then .approaching k else .running k

/-- R30: Leg Distance is within the stop window of leg k. -/
def Part.inWindow (p : Part) (k : Nat) : Bool :=
  decide (legAt p.trk.view k * 1000 ≤ p.odo.legDistance + p.trk.w * 1000)

/-- R30: the confirmation condition on leg k. -/
def Part.confirms (p : Part) (k : Nat) : Bool :=
  decide (p.trk.motion = .still) && decide (p.trk.door = .released) && p.inWindow k

/-! ### Moves -/

/-- R29: a departure from served stop k. -/
def Part.depart (p : Part) (k : Nat) : Part :=
  let code := codeAt p.trk.view k
  if k + 1 < p.trk.view.length then
    let p := { p with trk := { p.trk with departure := some (p.journeyRecord code (legAt p.trk.view k)) } }
    ((p.enter (.running k)).publish .depart (some code)).armForLeg k
  else
    let p := { p with trk := { p.trk with departure := some (p.journeyRecord code 0) } }
    ((p.dropMarks).enter .ended).publish .depart (some code)

/-- R30: a confirmed stop at the end of leg k. -/
def Part.confirm (p : Part) (k : Nat) : Part :=
  let code := codeAt p.trk.view (k + 1)
  let p := { p with trk := { p.trk with arrival := some (p.journeyRecord code (legAt p.trk.view k)) } }
  let p := (p.dropMarks.setLeg 0).enter (.atStop (k + 1))
  (p.publish .arrive (some code)).publish .doors (some code)

/-- R31, R43: entry into DOUBT raises JOURNEY. -/
def Part.enterDoubt (p : Part) (k : Nat) : Part := ((p.enter (.doubt k)).publish .doubt none).raise .journey

/-- R31: entry into HALTED. -/
def Part.enterHalted (p : Part) (k : Nat) : Part := (p.enter (.halted k)).publish .halt none

/-- R33: a pass of served stop k+1. -/
def Part.passStop (p : Part) (k : Nat) : Part :=
  let code := codeAt p.trk.view (k + 1)
  let p := { p with trk := { p.trk with passed := some (p.journeyRecord code (legAt p.trk.view k)) } }
  let p := p.reduceLeg (legAt p.trk.view k * 1000)
  ((p.enter (p.runningOrApproaching (k + 1))).publish .pass (some code)).armForLeg (k + 1)

/-- R34: the terminus is overrun. -/
def Part.overrun (p : Part) (k : Nat) : Part :=
  let code := codeAt p.trk.view (k + 1)
  let p := { p with trk := { p.trk with passed := some (p.journeyRecord code (legAt p.trk.view k)) } }
  ((p.dropMarks.enter .lost).publish .overrun (some code)).raise .journey

/-- R33, R34: a pass, or an overrun where served stop k+1 is the terminus. -/
def Part.passOrOverrun (p : Part) (k : Nat) : Part :=
  if k + 2 < p.trk.view.length then p.passStop k else p.overrun k

/-- R31, R32: pass due is cleared and the pass or overrun taken. -/
def Part.takePassDue (p : Part) (k : Nat) : Part :=
  Part.passOrOverrun { p with trk := { p.trk with passDue := false } } k

/-- R32: to resume. -/
def Part.resume (p : Part) (k : Nat) : Part :=
  if p.trk.passDue then p.takePassDue k
  else (p.enter (p.runningOrApproaching k)).publish .resume none

/-! ### Motion and door reports -/

/-- R31: a motion report in RUNNING or APPROACHING that does not confirm. -/
def Part.motionOnLeg (p : Part) (k : Nat) : Part :=
  match p.trk.motion with
  | .still =>
    if p.inWindow k then p
    else match p.trk.door with
      | .locked => p.enterHalted k
      | .released => p.enterDoubt k
  | .moving => if p.trk.passDue then p.takePassDue k else p

/-- R29: the departure test. -/
def Part.testDeparture (p : Part) (k : Nat) : Part :=
  if p.trk.motion = .moving ∧ p.trk.door = .locked then p.depart k else p

/-- R29 to R32: the tracker judges the motion state last reported to it. -/
def Part.judgeMotion (p : Part) : Part :=
  match p.trk.phase with
  | .atStop k => p.testDeparture k
  | .running k => if p.confirms k then p.confirm k else p.motionOnLeg k
  | .approaching k => if p.confirms k then p.confirm k else p.motionOnLeg k
  | .halted k => if p.confirms k then p.confirm k else if p.trk.motion = .moving then p.resume k else p
  | .doubt k => if p.confirms k then p.confirm k else p
  | .unplaced => p
  | .ended => p
  | .lost => p

/-- R31: a door report in RUNNING or APPROACHING that does not confirm. -/
def Part.doorOnLeg (p : Part) (k : Nat) : Part :=
  if p.trk.door = .released ∧ p.trk.motion = .still ∧ ¬ p.inWindow k then p.enterDoubt k else p

/-- R29 to R32: the tracker judges the door state last reported to it. -/
def Part.judgeDoor (p : Part) : Part :=
  match p.trk.phase with
  | .atStop k =>
    match p.trk.door with
    | .released => p.publish .doors (some (codeAt p.trk.view k))
    | .locked => p.testDeparture k
  | .running k => if p.confirms k then p.confirm k else p.doorOnLeg k
  | .approaching k => if p.confirms k then p.confirm k else p.doorOnLeg k
  | .halted k =>
    if p.confirms k then p.confirm k
    else match p.trk.door with
      | .released => p.enterDoubt k
      | .locked => p
  | .doubt k =>
    if p.confirms k then p.confirm k
    else match p.trk.door, p.trk.motion with
      | .locked, .still => p.enterHalted k
      | .locked, .moving => p.resume k
      | .released, _ => p
  | .unplaced => p
  | .ended => p
  | .lost => p

/-- R31: the tracker takes a motion change. -/
def Part.takeMotionChange (p : Part) : Part :=
  match p.trk.motionIn with
  | [] => p
  | m :: rest => Part.judgeMotion { p with trk := { p.trk with motion := m, motionIn := rest } }

/-- R29: the tracker takes a door change. -/
def Part.takeDoorChange (p : Part) : Part :=
  match p.trk.doorIn with
  | [] => p
  | d :: rest => Part.judgeDoor { p with trk := { p.trk with door := d, doorIn := rest } }

/-- R45: a progress event with the present Leg Distance goes to the composer. -/
def Part.sendProgress (p : Part) : Part :=
  { p with cmp := { p.cmp with events := p.cmp.events ++ [.progress p.odo.legDistance] } }

/-- R45, R30: in the leg states the tracker passes each distance advanced event on as a progress event and tests the
confirmation condition; the progress event goes first, since it carries the Leg Distance of the event (log 34). -/
def Part.judgeDistance (p : Part) : Part :=
  match p.trk.phase.runLeg with
  | none => p
  | some k =>
    let p := p.sendProgress
    if p.confirms k then p.confirm k else p

/-- R30: the tracker takes a distance advanced event. -/
def Part.takeDistanceAdvanced (p : Part) : Part :=
  match p.trk.inbox with
  | .advanced _ :: rest => Part.judgeDistance { p with trk := { p.trk with inbox := rest } }
  | _ => p

/-! ### Marks taken (R28) -/

/-- R28: an APPROACH mark of the present generation. -/
def Part.takeApproach (p : Part) : Part :=
  match p.trk.phase with
  | .running k => (p.enter (.approaching k)).publish .approach none
  | .approaching _ => p.publish .approach none
  | .halted _ => p.publish .approach none
  | .doubt _ => p.publish .approach none
  | .atStop _ => p
  | .unplaced => p
  | .ended => p
  | .lost => p

/-- Pass due is set (R28). -/
def Part.setPassDue (p : Part) : Part := { p with trk := { p.trk with passDue := true } }

/-- R28: a PASS mark of the present generation. -/
def Part.takePass (p : Part) : Part :=
  match p.trk.phase with
  | .running k => if p.trk.motion = .moving then p.passOrOverrun k else p.setPassDue
  | .approaching k => if p.trk.motion = .moving then p.passOrOverrun k else p.setPassDue
  | .halted _ => p.setPassDue
  | .doubt _ => p.setPassDue
  | .atStop _ => p
  | .unplaced => p
  | .ended => p
  | .lost => p

/-- R28: a mark event acts if its tag carries the present arm generation. -/
def Part.judgeMark (p : Part) (tag : MarkTag) : Part :=
  match tag with
  | .approach g => if g = p.trk.gen then p.takeApproach else p
  | .pass g => if g = p.trk.gen then p.takePass else p
  | .notice _ _ => p

/-- R28: the tracker takes a mark event. -/
def Part.takeTrackerMark (p : Part) : Part :=
  match p.trk.inbox with
  | .mark tag :: rest => Part.judgeMark { p with trk := { p.trk with inbox := rest } } tag
  | _ => p

/-! ### Remapping (R40) -/

/-- R40: entry into LOST by a remap. -/
def Part.remapLost (p : Part) : Part := ((p.dropMarks.enter .lost).publish .remap none).raise .journey

/-- R40 case 4: the reference code is found at index j. -/
def Part.remapFound (p : Part) (j : Nat) : Part :=
  match p.trk.phase with
  | .atStop _ => (p.enter (.atStop j)).publish .remap none
  | .running _ =>
    if j + 1 < p.trk.view.length then ((p.enter (p.runningOrApproaching j)).publish .remap none).armForLeg j
    else (p.dropMarks.enter .ended).publish .remap none
  | .approaching _ =>
    if j + 1 < p.trk.view.length then ((p.enter (p.runningOrApproaching j)).publish .remap none).armForLeg j
    else (p.dropMarks.enter .ended).publish .remap none
  | .halted _ =>
    if j + 1 < p.trk.view.length then ((p.enter (.halted j)).publish .remap none).armForLeg j
    else (p.dropMarks.enter .ended).publish .remap none
  | .doubt _ =>
    if j + 1 < p.trk.view.length then ((p.enter (.doubt j)).publish .remap none).armForLeg j
    else (p.dropMarks.enter .ended).publish .remap none
  | .unplaced => p
  | .ended => p
  | .lost => p

/-- R40: a remap onto the served view that now stands, from the served view before it. -/
def Part.remap (p : Part) (old : List ServedStop) : Part :=
  if p.trk.phase = .unplaced then p
  else if p.trk.view.length < 2 then p.remapLost
  else match p.trk.phase.leg with
    | none => p.publish .remap none
    | some k =>
      match indexOfCode p.trk.view (codeAt old k) with
      | none => p.remapLost
      | some j => p.remapFound j

/-- R23, R39: the served view is rebuilt and the tracker remaps. -/
def Part.rebuildAndRemap (p : Part) : Part :=
  Part.remap { p with trk := { p.trk with view := servedView p.trk.stops p.trk.portion } } p.trk.view

/-! ### Coach-profile load (R24) -/

/-- R24: the tracker takes the profile's portion, A, W and O. -/
def Part.applyTrackerProfile (p : Part) (f : Profile) : Part :=
  let before := p.trk
  let p := { p with trk := { p.trk with portion := some f.portion, a := f.a, w := f.w, o := f.o } }
  if before.portion ≠ some f.portion then p.rebuildAndRemap
  else if before.a ≠ f.a ∨ before.o ≠ f.o then
    match p.trk.phase.runLeg with
    | none => p
    | some k => p.armForLeg k
  else p

/-- R24: the tracker takes the profile handed to it. -/
def Part.trackerProfile (p : Part) : Part :=
  match p.trk.profiles with
  | [] => p
  | f :: rest => Part.applyTrackerProfile { p with trk := { p.trk with profiles := rest } } f

/-! ### Meanings -/

/-- DISTANCE_ADVANCED (R30, R45). -/
def execDistanceAdvanced (s : State) : Answer := s.onPart (·.takeDistanceAdvanced)

/-- MOTION_CHANGE (R29 to R32). -/
def execMotionChange (s : State) : Answer := s.onPart (·.takeMotionChange)

/-- DOOR_CHANGE (R29 to R32). -/
def execDoorChange (s : State) : Answer := s.onPart (·.takeDoorChange)

/-- TRACKER_MARK (R28, R33, R34). -/
def execTrackerMark (s : State) : Answer := s.onPart (·.takeTrackerMark)

/-- TRACKER_PROFILE_LOAD (R24). -/
def execTrackerProfileLoad (s : State) : Answer := s.onPart (·.trackerProfile)

end Sys2Proof.Machine
end

