-- ==== Sys2Proof/Machine/Position.lean ====
section
/-! DEFINITION. Route position arithmetic (chapter 3): the position record and its six stages, in exact integers. -/

namespace Sys2Proof.Machine

/-! ### Stages 1 to 3 -/

/-- R49: stage 1, whole metres run on the leg. -/
def metresRun (distance : Nat) : Nat := distance / 1000

/-- R50: stage 2 on a leg from X_near to X_far of L metres. -/
def legMarker (xNear xFar len metres : Nat) : Nat := xNear + (xFar - xNear) * min metres len / len

/-- R50: stage 2, the marker position. -/
def PositionRecord.stage2 (r : PositionRecord) : Option Nat :=
  match r.phase with
  | .atStop _ => r.xNear
  | .ended => r.xNear
  | .unplaced => none
  | .lost => none
  | _ =>
    match r.xNear, r.xFar, r.len with
    | some near, some far, some len => some (legMarker near far len (metresRun r.distance))
    | _, _, _ => none

/-- R51: stage 3, the lit count of a bar of inner width B. -/
def PositionRecord.lit (r : PositionRecord) (b : Nat) : Nat :=
  match r.phase with
  | .atStop _ => 0
  | .ended => b
  | .unplaced => 0
  | .lost => 0
  | _ =>
    match r.len with
    | some len => b * min (metresRun r.distance) len / len
    | none => 0

/-- R51: the inner width of a BAR window. -/
def barInner (width height : Nat) : Nat := if width < 3 ∨ height < 3 then 0 else width - 2

/-! ### The record (R47, R48) -/

/-- R47: what the record copies from a journey event, with the present Leg Distance; the marker is the old one. -/
def PositionRecord.copied (r : PositionRecord) (e : JourneyEvent) (legDistance : Nat) : PositionRecord :=
  match e.phase with
  | .atStop k => { phase := e.phase, xNear := e.view[k]?.map (·.mapX), xFar := none, len := none, distance := 0
                   marker := r.marker }
  | .ended => { phase := e.phase, xNear := e.view.getLast?.map (·.mapX), xFar := none, len := none, distance := 0
                marker := r.marker }
  | .unplaced => { phase := e.phase, xNear := none, xFar := none, len := none, distance := 0, marker := r.marker }
  | .lost => { phase := e.phase, xNear := none, xFar := none, len := none, distance := 0, marker := r.marker }
  | .running k => { phase := e.phase, xNear := e.view[k]?.map (·.mapX), xFar := e.view[k + 1]?.map (·.mapX)
                    len := e.view[k]?.map (·.legLength), distance := legDistance, marker := r.marker }
  | .approaching k => { phase := e.phase, xNear := e.view[k]?.map (·.mapX), xFar := e.view[k + 1]?.map (·.mapX)
                        len := e.view[k]?.map (·.legLength), distance := legDistance, marker := r.marker }
  | .halted k => { phase := e.phase, xNear := e.view[k]?.map (·.mapX), xFar := e.view[k + 1]?.map (·.mapX)
                   len := e.view[k]?.map (·.legLength), distance := legDistance, marker := r.marker }
  | .doubt k => { phase := e.phase, xNear := e.view[k]?.map (·.mapX), xFar := e.view[k + 1]?.map (·.mapX)
                  len := e.view[k]?.map (·.legLength), distance := legDistance, marker := r.marker }

/-- The record with stage 2 evaluated and stored (R47). -/
def PositionRecord.evaluated (r : PositionRecord) : PositionRecord := { r with marker := r.stage2 }

/-- R47: a journey event at the record. -/
def PositionRecord.journey (r : PositionRecord) (e : JourneyEvent) (legDistance : Nat) : PositionRecord :=
  (r.copied e legDistance).evaluated

/-- R48: a progress event at the record. -/
def PositionRecord.progress (r : PositionRecord) (mm : Nat) : PositionRecord :=
  match r.phase.runLeg with
  | none => r
  | some _ => if r.distance ≤ mm then PositionRecord.evaluated { r with distance := mm } else r

/-! ### Stage 4 (R52, R53) -/

/-- R52: the scroll offset U. -/
def scrollOffset (marker : Option Nat) (wp ws : Nat) : Nat :=
  match marker with
  | none => 0
  | some m => if ws ≤ wp then 0 else min (m - 8 * wp) (16 * (ws - wp))

/-- R53: the source column or row, the last one repeated outward. A strip of size 0, which R106 refuses, reads row or column
0 (log 49). -/
def clampTo (size n : Nat) : Nat := min n (size - 1)

/-! ### Stage 5 (R54) -/

/-- R54: the strip filter. Above fy 15, which R106 refuses, 16 - fy counts as 0, and the pixel is cut to 8 bits where it is
stored (log 49). -/
def filterPixel (ul ur ll lr fx fy : Nat) : Nat :=
  (ul * (16 - fx) * (16 - fy) + ur * fx * (16 - fy) + ll * (16 - fx) * fy + lr * fx * fy + 128) / 256

/-! ### Stage 6 (R55) -/

/-- R55: the left column of a marker glyph of width gw. -/
def markerLeft (m u gw : Nat) : Int := ((m - u) / 16 : Nat) - ((gw / 2 : Nat) : Int)

/-- R55: the top row of a marker glyph of height gh. -/
def markerTop (hp gh : Nat) : Nat := if gh ≤ hp then (hp - gh) / 2 else 0

end Sys2Proof.Machine
end

