-- ==== Sys2Proof/Machine/HeadBlock.lean ====
section
/-! DEFINITION. The head block (11.2): its fields, and the head-block writes of R171. -/

namespace Sys2Proof.Machine

/-- Where a kind's slot entry stands (11.2). -/
def slotEntry (k : Kind) : Nat := 0x10 + 24 * (Kind.number k - 1)

/-- The signature's fixed value (11.2). -/
def signature : Nat := 0x52AC7240

/-- A copy's code: 1 A, 2 B, 0 none (11.2). -/
def copyCode : Option Copy → Nat
  | none => 0
  | some .a => 1
  | some .b => 2

/-- The code of a switch result (11.2). -/
def Result.code : Result → Nat
  | .noResult => 0
  | .done => 1
  | .kind => 2
  | .count => 3
  | .order => 4
  | .duplicate => 5
  | .range => 6
  | .editionOrder => 7
  | .memory => 8

/-- The code of a position result (11.2). -/
def PositionResult.code : PositionResult → Nat
  | .done => 1
  | .notServed => 2
  | .lastStop => 3
  | .noStops => 4
  | .invalid => 5

/-- 1 for a set condition. -/
def bitOf (b : Bool) : Nat := if b then 1 else 0

/-- R176: a request written back to 0. -/
def requestField (k : Kind) : FieldWrite := { offset := slotEntry k + 8, size := 1, value := 0 }

/-- R171: the fields of one kind in a full write. -/
def kindFields (k : Kind) (s : KindState) : List FieldWrite :=
  [ { offset := slotEntry k + 9, size := 1, value := copyCode s.live },
    { offset := slotEntry k + 10, size := 1, value := bitOf (s.busy .a) },
    { offset := slotEntry k + 11, size := 1, value := bitOf (s.busy .b) },
    { offset := slotEntry k + 12, size := 1, value := s.result.code },
    { offset := slotEntry k + 16, size := 4, value := s.liveEdition } ]

/-- R171: the take field. -/
def takeField (e : Edition) : FieldWrite := { offset := 0x8E, size := 1, value := e.take }

/-- R171: the fields of a full write; `back` are the kinds whose request is written back to 0, each with its kind's
fields (log 38). -/
def fullFields (e : Edition) (back : List Kind) : List FieldWrite :=
  Kind.all.flatMap (fun k => (if back.contains k then [requestField k] else []) ++ kindFields k (e.kind k))
    ++ [{ offset := 0x8C, size := 1, value := 64 }, takeField e]

/-- R183: the fields of a position write. -/
def positionFields (r : PositionResult) : List FieldWrite :=
  [{ offset := 0x91, size := 1, value := r.code }, { offset := 0x90, size := 1, value := 0 }]

/-- The sequence word's field. -/
def sequenceField (seq : Word) : FieldWrite := { offset := 4, size := 4, value := seq.toNat }

/-- R171: a head-block write: its fields, then the sequence word, of a counter that each write adds 1 to (log 16). A field or
a sequence word that meets a bus error has the bytes before the refused one written (log 81). -/
def Part.headWrite (p : Part) (bus : Bus) (fields : List FieldWrite) : Part :=
  match writeFields p.regs.windowBase bus p.mem fields with
  | (m, some a) =>
    Part.memoryError
      { p with mem := m
               ed := { p.ed with seq := if Config.failedWriteCounts then p.ed.seq + 1#32 else p.ed.seq } }
      .edition a .bus
  | (m, none) =>
    let p := { p with ed := { p.ed with seq := p.ed.seq + 1#32 } }
    match writeFields p.regs.windowBase bus m [sequenceField p.ed.seq] with
    | (m', none) => { p with mem := m' }
    | (m', some a) => Part.memoryError { p with mem := m' } .edition a .bus

/-- R171: a full write. -/
def Part.fullWrite (p : Part) (bus : Bus) (back : List Kind) : Part := p.headWrite bus (fullFields p.ed back)

/-- R181: a take write. -/
def Part.takeWrite (p : Part) (bus : Bus) : Part := p.headWrite bus [takeField p.ed]

/-- A write kept for the first boundary operation to make (R188). -/
def Part.owe (p : Part) (w : OwedWrite) : Part := { p with ed := { p.ed with owed := p.ed.owed ++ [w] } }

/-- R183: a position write, owed where RUN is 0 (R188) or it has not had its turn (log 15). -/
def Part.positionWrite (p : Part) (bus : Bus) (r : PositionResult) : Part :=
  if bus.wait || !p.regs.run then p.owe (.position r) else p.headWrite bus (positionFields r)

/-- R22, R65, R87, R179: a loader starts a load of the live copy, the load it had abandoned and its pin dropped. -/
def Part.beginLoad (p : Part) (k : Kind) (l : LoadState) : Part × LoadState :=
  let p := p.dropLoadPin k l
  if p.regs.run then
    match (p.ed.kind k).live, (p.ed.kind k).liveAddress with
    | some c, some a => (p.pin k c, .loading c a (p.ed.kind k).liveEdition)
    | none, _ => (p, .idle)
    | some _, none => (p, .idle)
  else (p, .owed)

end Sys2Proof.Machine
end

