-- ==== Sys2Proof/Machine/Tables.lean ====
section
/-! DEFINITION. The records of memory (chapter 11) as read, and the validation of the five table kinds (R174). -/

namespace Sys2Proof.Machine

/-! ### Checks -/

/-- Why a copy is refused: a memory error, or the result of a failed check (R174). -/
inductive Reject where
  | memory (f : MemFail)
  | result (r : Result)
  deriving DecidableEq, Repr

/-- A read within a validation. -/
def mustRead {α : Type} (x : Except MemFail α) : Except Reject α :=
  match x with
  | .error f => .error (.memory f)
  | .ok v => .ok v

/-- The result of the first condition that holds, in order. -/
def firstFailure : List (Bool × Result) → Option Result
  | [] => none
  | (bad, r) :: rest => if bad then some r else firstFailure rest

/-- A check made in order with others: it refuses with the first failure. -/
def refuseIf (failures : List (Bool × Result)) : Except Reject Unit :=
  match firstFailure failures with
  | none => .ok ()
  | some r => .error (.result r)

/-- Records read and checked one after another, each against those before it and each read whole before its first check
(log 59); a fault comes with the address of its record. -/
def readRecords {α : Type} (read : Nat → Except MemFail α) (check : List α → Nat → α → Option Result) (size : Nat) :
    Nat → Nat → Nat → List α → Except (Nat × Reject) (List α)
  | 0, _, _, before => .ok before
  | n + 1, i, a, before =>
    match read a with
    | .error f => .error (a, .memory f)
    | .ok r =>
      match check before i r with
      | some e => .error (a, .result e)
      | none => readRecords read check size n (i + 1) (a + size) (before ++ [r])

/-- The records as a validation reads them. -/
def mustReadRecords {α : Type} (x : Except (Nat × Reject) α) : Except Reject α :=
  match x with
  | .error (_, e) => .error e
  | .ok v => .ok v

/-- A reference, or a scheduled time: 0xFFFF is absent (11.1). -/
def optional16 (n : Nat) : Option Nat := if n = 65535 then none else some n

/-! ### The table header (R174, 11.3) -/

/-- A table header. -/
structure Header where
  kind : Nat
  edition : Nat
  length : Nat
  count : Nat
  deriving DecidableEq, Repr

/-- A header's four fields. -/
def View.header (v : View) (a : Nat) : Except MemFail Header := do
  let kind ← v.u8 a
  let edition ← v.u32 (a + 4)
  let length ← v.u32 (a + 8)
  let count ← v.u16 (a + 12)
  .ok { kind := kind, edition := edition, length := length, count := count }

/-- The least length of a copy of `n` records (11.3). -/
def leastLength (k : Kind) (n : Nat) : Nat :=
  match k with
  | .coachProfile => 416 + 4 * n
  | .stopList => 16 + 20 * n
  | .reservationTable => 16 + 52 * n
  | .noticeTable => 16 + 16 * n
  | .contentSet => 64

/-- R174: the header checks. -/
def View.validHeader (v : View) (k : Kind) (a : Nat) : Except Reject Header := do
  if a % 16 ≠ 0 ∨ windowSize < a + 16 then .error (.memory { cause := .window, address := a })
  else
    let h ← mustRead (v.header a)
    refuseIf [(decide (h.kind ≠ Kind.number k), .kind), (decide (h.length < leastLength k h.count), .count)]
    if windowSize < a + h.length then .error (.memory { cause := .window, address := a }) else .ok h

/-! ### Stop list (R21, 11.3) -/

/-- A stop record as it stands in memory; `mask` is the whole byte. Bits 2 to 7 of its flags are ignored (log 76). -/
def View.stop (v : View) (a : Nat) : Except MemFail StopRecord := do
  let code ← v.u16 a
  let name ← v.u16 (a + 2)
  let short ← v.u16 (a + 4)
  let mask ← v.u8 (a + 6)
  let flags ← v.u8 (a + 7)
  let leg ← v.u32 (a + 8)
  let mapX ← v.u16 (a + 12)
  let arrival ← v.u16 (a + 14)
  let departure ← v.u16 (a + 16)
  .ok { code := code, name := optional16 name, shortName := optional16 short, mask := mask
        divide := flags.testBit 0, join := flags.testBit 1, legLength := leg, mapX := mapX
        arrival := optional16 arrival, departure := optional16 departure }

/-- A scheduled time is present and above 1439 (R21). -/
def lateTime (t : Option Nat) : Bool :=
  match t with
  | none => false
  | some m => decide (1439 < m)

/-- R21: the checks of one record of a list of `n`. -/
def stopCheck (n : Nat) (before : List StopRecord) (i : Nat) (r : StopRecord) : Option Result :=
  firstFailure
    [ (decide (r.code = 0), .range),
      (before.any (fun q => q.code == r.code), .duplicate),
      (decide (r.mask = 0) || decide (16 ≤ r.mask), .range),
      (decide (i + 1 < n) && (decide (r.legLength = 0) || decide (1000000 < r.legLength)), .range),
      (decide (i + 1 = n) && decide (r.legLength ≠ 0), .range),
      ((match before.getLast? with
        | none => false
        | some q => decide (r.mapX ≤ q.mapX)), .order),
      (lateTime r.arrival || lateTime r.departure, .range) ]

/-- The stop records of a copy. -/
def View.stops (v : View) (a n : Nat) : Except (Nat × Reject) (List StopRecord) :=
  readRecords v.stop (stopCheck n) 20 n 0 (a + 16) []

/-- R21: the record count. -/
def stopCountBad (n : Nat) : Bool := decide (n = 0) || decide (64 < n)

/-! ### Reservation table (R64, 11.3) -/

/-- A segment as it stands in memory. -/
structure RawSegment where
  kind : Nat
  fromCode : Nat
  toCode : Nat
  label : Option Nat
  note : Option Nat
  deriving DecidableEq, Repr

/-- A seat entry as it stands in memory. -/
structure RawEntry where
  number : Nat
  count : Nat
  segments : List RawSegment
  deriving DecidableEq, Repr

/-- A segment place. -/
def View.segment (v : View) (a : Nat) : Except MemFail RawSegment := do
  let kind ← v.u8 a
  let f ← v.u16 (a + 2)
  let t ← v.u16 (a + 4)
  let label ← v.u16 (a + 6)
  let note ← v.u16 (a + 8)
  .ok { kind := kind, fromCode := f, toCode := t, label := optional16 label, note := optional16 note }

/-- The first `n` segment places from an address. -/
def View.segments (v : View) : Nat → Nat → Except MemFail (List RawSegment)
  | 0, _ => .ok []
  | n + 1, a => do
    let s ← v.segment a
    let rest ← View.segments v n (a + 12)
    .ok (s :: rest)

/-- A seat entry; of a segment count above 4, which a check refuses, no place is read. -/
def View.seatEntry (v : View) (a : Nat) : Except MemFail RawEntry := do
  let number ← v.u16 a
  let count ← v.u8 (a + 2)
  let segments ← v.segments (if 4 < count then 0 else count) (a + 4)
  .ok { number := number, count := count, segments := segments }

/-- A segment's kind code (11.3). -/
def segKindOf (n : Nat) : Option SegKind :=
  match n with
  | 1 => some .reserved
  | 2 => some .blocked
  | _ => none

/-- R64: the checks of one segment. A stop code of 0 is refused here, although R191 speaks of one kept as written in a
segment (log 64). -/
def segmentCheck (s : RawSegment) : Option Result :=
  firstFailure
    [ (decide (segKindOf s.kind = none), .range), (decide (s.fromCode = 0) || decide (s.toCode = 0), .range) ]

/-- R64: the checks of one entry and its segments. -/
def seatEntryCheck (before : List RawEntry) (_ : Nat) (e : RawEntry) : Option Result :=
  match firstFailure
    [ (decide (e.number = 0) || decide (999 < e.number), .range),
      (before.any (fun q => q.number == e.number), .duplicate),
      ((match before.getLast? with
        | none => false
        | some q => decide (e.number < q.number)), .order),
      (decide (4 < e.count), .count) ] with
  | some r => some r
  | none => e.segments.findSome? segmentCheck

/-- The seat entries of a copy. -/
def View.seatEntries (v : View) (a n : Nat) : Except (Nat × Reject) (List RawEntry) :=
  readRecords v.seatEntry seatEntryCheck 52 n 0 (a + 16) []

/-- R64: the record count. -/
def seatEntryCountBad (n : Nat) : Bool := decide (96 < n)

/-- A segment of a checked entry, not yet resolved. -/
def RawSegment.toSegment (s : RawSegment) : Segment :=
  { kind := (segKindOf s.kind).getD .reserved, fromCode := s.fromCode, toCode := s.toCode, label := s.label
    note := s.note, resolution := .unresolved }

/-- A checked entry. -/
def RawEntry.toEntry (e : RawEntry) : SeatEntry :=
  { number := e.number, segments := e.segments.map RawSegment.toSegment }

/-! ### Notice table (R86, 11.3) -/

/-- A notice definition as it stands in memory. -/
structure RawNotice where
  id : Nat
  trigger : Nat
  metres : Nat
  filter : Nat
  targets : Nat
  filterCode : Nat
  page : Nat
  priority : Nat
  duration : Nat
  gap : Nat
  endCondition : Nat
  tones : Nat
  deriving DecidableEq, Repr

/-- A notice definition. -/
def View.notice (v : View) (a : Nat) : Except MemFail RawNotice := do
  let id ← v.u8 a
  let trigger ← v.u8 (a + 1)
  let metres ← v.u16 (a + 2)
  let filter ← v.u8 (a + 4)
  let targets ← v.u8 (a + 5)
  let code ← v.u16 (a + 6)
  let page ← v.u8 (a + 8)
  let priority ← v.u8 (a + 9)
  let duration ← v.u16 (a + 10)
  let gap ← v.u16 (a + 12)
  let endCondition ← v.u8 (a + 14)
  let tones ← v.u8 (a + 15)
  .ok { id := id, trigger := trigger, metres := metres, filter := filter, targets := targets, filterCode := code
        page := page, priority := priority, duration := duration, gap := gap, endCondition := endCondition
        tones := tones }

/-- Trigger codes (11.3). -/
def triggerOf (n : Nat) : Option Trigger :=
  match n with
  | 0 => some .approach
  | 1 => some .distance
  | 2 => some .depart
  | 3 => some .arrive
  | 4 => some .pass
  | 5 => some .doors
  | 6 => some .halt
  | _ => none

/-- Stop filter codes (11.3). -/
def stopFilterOf (n : Nat) : Option StopFilter :=
  match n with
  | 0 => some .all
  | 1 => some .divideAhead
  | 2 => some .terminusAhead
  | 3 => some .code
  | 4 => some .joinAhead
  | _ => none

/-- End condition codes (11.3). -/
def endConditionOf (n : Nat) : Option EndCondition :=
  match n with
  | 0 => some .timer
  | 1 => some .arrive
  | 2 => some .depart
  | 3 => some .legChange
  | _ => none

/-- R86: the checks of one definition. -/
def noticeCheck (before : List RawNotice) (_ : Nat) (d : RawNotice) : Option Result :=
  firstFailure
    [ (decide (d.id = 0), .range),
      (before.any (fun q => q.id == d.id), .duplicate),
      (decide (triggerOf d.trigger = none) || decide (stopFilterOf d.filter = none)
        || decide (endConditionOf d.endCondition = none), .range),
      (decide (d.filter = 3) && decide (d.filterCode = 0), .range),
      (decide (d.targets % 4 = 0), .range),
      (decide (63 < d.page), .range),
      (decide (7 < d.priority), .range),
      (decide (d.duration = 0) || decide (1023 < d.duration), .range),
      (decide (1023 < d.gap), .range),
      (decide (3 < d.tones), .range) ]

/-- The definitions of a copy. -/
def View.notices (v : View) (a n : Nat) : Except (Nat × Reject) (List RawNotice) :=
  readRecords v.notice noticeCheck 16 n 0 (a + 16) []

/-- R86: the record count. -/
def noticeCountBad (n : Nat) : Bool := decide (32 < n)

/-- A checked definition; target bits 2 to 7 are ignored (11.1). -/
def RawNotice.toDef (d : RawNotice) : NoticeDef :=
  { id := d.id, trigger := (triggerOf d.trigger).getD .approach, metres := d.metres
    filter := (stopFilterOf d.filter).getD .all, filterCode := d.filterCode
    toEnd := d.targets.testBit 0, toDoor := d.targets.testBit 1, page := d.page, priority := d.priority
    duration := d.duration, gap := d.gap, endCondition := (endConditionOf d.endCondition).getD .timer
    tones := d.tones }

/-! ### Coach profile (R177, 11.3) -/

/-- R3: the odometer parameters. The section is read whole before its first check (log 59). -/
def View.profileOdometer (v : View) (a : Nat) : Except Reject (WheelParams × MotionParams) := do
  let edge ← mustRead (v.u8 (a + 0x10))
  let d ← mustRead (v.u8 (a + 0x11))
  let c ← mustRead (v.u16 (a + 0x12))
  let p ← mustRead (v.u8 (a + 0x14))
  let nMove ← mustRead (v.u8 (a + 0x15))
  let nStill ← mustRead (v.u8 (a + 0x16))
  let nDoor ← mustRead (v.u8 (a + 0x17))
  let vMove ← mustRead (v.u16 (a + 0x18))
  let vStop ← mustRead (v.u16 (a + 0x1A))
  refuseIf
    [ (decide (1 < edge), .range), (decide (d ≠ 1 ∧ d ≠ 4 ∧ d ≠ 16), .range),
      (decide (c < 1500 ∨ 4000 < c), .range), (decide (p < 1 ∨ 200 < p), .range),
      (decide (vMove < 1 ∨ 4000 < vMove), .range), (decide (3999 < vStop), .range),
      (decide (nMove < 1 ∨ 31 < nMove), .range), (decide (nStill < 1 ∨ 7 < nStill), .range),
      (decide (nDoor < 1 ∨ 31 < nDoor), .range), (decide (vMove ≤ vStop), .range) ]
  .ok ({ rising := decide (edge = 0), d := d, c := c, p := p },
       { vMove := vMove, vStop := vStop, nMove := nMove, nStill := nStill, nDoor := nDoor })

/-- Portion, A, W and O (R24). -/
structure TrackerParams where
  portion : Nat
  a : Nat
  w : Nat
  o : Nat
  deriving DecidableEq, Repr

/-- R24: the tracker parameters, read whole before their first check (log 59). -/
def View.profileTracker (v : View) (a : Nat) : Except Reject TrackerParams := do
  let portion ← mustRead (v.u8 (a + 0x1C))
  let approach ← mustRead (v.u16 (a + 0x1E))
  let w ← mustRead (v.u16 (a + 0x20))
  let o ← mustRead (v.u16 (a + 0x22))
  refuseIf
    [ (decide (portion < 1 ∨ 4 < portion), .range), (decide (60000 < approach), .range),
      (decide (10000 < w), .range), (decide (20000 < o), .range) ]
  .ok { portion := portion, a := approach, w := w, o := o }

/-- Role codes (11.3). -/
def roleOf (n : Nat) : Option Role :=
  match n with
  | 0 => some .alone
  | 1 => some .lead
  | 2 => some .follow
  | _ => none

/-- Output source codes (11.3). -/
def outSourceOf (n : Nat) : Option OutSource :=
  match n with
  | 0 => some .off
  | 1 => some .on
  | 2 => some .chime
  | 3 => some .doorsReleased
  | 4 => some .moving
  | 5 => some .sweepPulse
  | 6 => some .panelFault
  | 7 => some .attention
  | _ => none

/-- Sweep period, SWEEP_WRAP, role and outputs (R156). -/
structure SweepParams where
  period : Nat
  wrap : Nat
  role : Role
  outs : List OutSetting
  deriving DecidableEq, Repr

/-- An output byte of a profile: bits 0-6 the source, bit 7 invert (11.3). -/
def outSetting (b : Byte) : OutSetting :=
  { source := (outSourceOf (b.toNat % 128)).getD .off, invert := b.toNat.testBit 7 }

/-- R156: the sweep parameters, read whole before their first check (log 59). -/
def View.profileSweep (v : View) (a : Nat) : Except Reject SweepParams := do
  let period ← mustRead (v.u16 (a + 0x24))
  let wrap ← mustRead (v.u16 (a + 0x26))
  let role ← mustRead (v.u8 (a + 0x28))
  let outs ← mustRead (v.bytes (a + 0x2C) 4)
  refuseIf
    [ (decide (period < 50 ∨ 1000 < period), .range), (decide (roleOf role = none), .range),
      (outs.any (fun b => decide (outSourceOf (b.toNat % 128) = none)), .range) ]
  .ok { period := period, wrap := wrap, role := (roleOf role).getD .alone, outs := outs.map outSetting }

/-- Bytes in twos: panels of a line descriptor, address then group. -/
def pairsOf : List Byte → List PanelPlace
  | x :: y :: rest => { address := x.toNat, group := y.toNat } :: pairsOf rest
  | _ => []

/-- A group byte of a line descriptor (11.3). -/
def groupConfig (b : Byte) : GroupConfig := { grouped := b.toNat.testBit 0, hold := b.toNat / 16 }

/-- An address of the list that equals an earlier one (R141). -/
def repeatedAddress : List PanelPlace → Bool
  | [] => false
  | p :: rest => rest.any (fun q => q.address == p.address) || repeatedAddress rest

/-- The most panels of a line (R141). -/
def panelLimit : Line → Nat
  | .seat => 48
  | .end_ => 4
  | .door => 8

/-- Where a line's descriptor stands in a profile (11.3). -/
def lineOffset : Line → Nat
  | .seat => 0x38
  | .end_ => 0xB0
  | .door => 0x128

/-- R141: a line's part of a profile, its checks in the order given (log 36); what stands after the panel count is read
whole before the check that follows it (log 59). -/
def View.profileLine (v : View) (a : Nat) (l : Line) : Except Reject LineConfig := do
  let rate ← mustRead (v.u8 (a + lineOffset l))
  let count ← mustRead (v.u8 (a + lineOffset l + 1))
  refuseIf [(decide (panelLimit l < count), .count)]
  let groups ← mustRead (v.bytes (a + lineOffset l + 2) 4)
  let thresholds ← mustRead (v.bytes (a + lineOffset l + 6) 8)
  let levels ← mustRead (v.bytes (a + lineOffset l + 14) 9)
  let places ← mustRead (v.bytes (a + lineOffset l + 24) (2 * count))
  let panels := pairsOf places
  refuseIf
    [ (panels.any (fun q => decide (q.address = 0) || decide (63 < q.address)), .range),
      (repeatedAddress panels, .duplicate),
      (panels.any (fun q => decide (3 < q.group)) || (groups.map groupConfig).any (fun g => decide (g.hold = 0)), .range),
      (decide (3 < rate), .range),
      (levels.any (fun b => decide (15 < b.toNat)), .range) ]
  .ok { rate := rate, panels := panels, groups := groups.map groupConfig, thresholds := thresholds.map (·.toNat)
        levels := levels.map (·.toNat) }

/-- A seat map entry as it stands in memory. -/
structure RawSeat where
  number : Nat
  address : Nat
  half : Nat
  deriving DecidableEq, Repr

/-- A seat map entry (11.3). -/
def View.seatPlace (v : View) (a : Nat) : Except MemFail RawSeat := do
  let number ← v.u16 a
  let address ← v.u8 (a + 2)
  let half ← v.u8 (a + 3)
  .ok { number := number, address := address, half := half }

/-- R61: the checks of one seat map entry, against the SEAT line of the same profile. -/
def seatPlaceCheck (seatLine : LineConfig) (before : List RawSeat) (_ : Nat) (e : RawSeat) : Option Result :=
  firstFailure
    [ (decide (e.number = 0) || decide (999 < e.number), .range),
      (before.any (fun q => q.number == e.number), .duplicate),
      (decide (e.address = 0) || decide (63 < e.address), .range),
      (! seatLine.panels.any (fun q => q.address == e.address), .range),
      (decide (1 < e.half), .range),
      (before.any (fun q => q.address == e.address && q.half == e.half), .duplicate) ]

/-- A checked seat map entry. -/
def RawSeat.toPlace (e : RawSeat) : SeatPlace :=
  { number := e.number, address := e.address, half := if e.half = 0 then .left else .right }

/-- R61: the seat map and the six seat pages. -/
def View.profileSeats (v : View) (a n : Nat) (seatLine : LineConfig) : Except Reject (List SeatPlace × List Nat) := do
  refuseIf [(decide (96 < n), .count)]
  let seats ← mustReadRecords (readRecords v.seatPlace (seatPlaceCheck seatLine) 4 n 0 (a + 0x1A0) [])
  let pages ← mustRead (v.bytes (a + 0x30) 6)
  refuseIf [(pages.any (fun b => decide (63 < b.toNat)), .range)]
  .ok (seats.map RawSeat.toPlace, pages.map (·.toNat))

/-- R177: a coach profile, section by section. -/
def View.profile (v : View) (a n : Nat) : Except Reject Profile := do
  let odo ← v.profileOdometer a
  let trk ← v.profileTracker a
  let swp ← v.profileSweep a
  let endPage ← mustRead (v.u8 (a + 0x29))
  let doorPage ← mustRead (v.u8 (a + 0x2A))
  refuseIf [(decide (63 < endPage), .range), (decide (63 < doorPage), .range)]
  let seat ← v.profileLine a .seat
  let end_ ← v.profileLine a .end_
  let door ← v.profileLine a .door
  let seats ← v.profileSeats a n seat
  .ok { wheel := odo.1, motion := odo.2, portion := trk.portion, a := trk.a, w := trk.w, o := trk.o
        period := swp.period, wrap := swp.wrap, role := swp.role, outs := swp.outs
        endPage := endPage, doorPage := doorPage, seatPages := seats.2, seat := seat, end_ := end_, door := door
        seatMap := seats.1 }

/-! ### Content set (R106, R126, R192, 11.4) -/

/-- The directory of a content set. -/
structure Directory where
  pageTable : Nat
  poolOffset : Nat
  poolLength : Nat
  markerGlyph : Nat
  stripCount : Nat
  glyphTable : Nat
  streamOffset : Nat
  streamLength : Nat
  deriving DecidableEq, Repr

/-- The directory, the run code table and the strip offsets apart. -/
def View.directory (v : View) (a : Nat) : Except MemFail Directory := do
  let pageTable ← v.u32 (a + 0x10)
  let poolOffset ← v.u32 (a + 0x14)
  let poolLength ← v.u16 (a + 0x18)
  let marker ← v.u8 (a + 0x1A)
  let strips ← v.u8 (a + 0x1B)
  let glyphTable ← v.u32 (a + 0x1C)
  let streamOffset ← v.u32 (a + 0x20)
  let streamLength ← v.u32 (a + 0x24)
  .ok { pageTable := pageTable, poolOffset := poolOffset, poolLength := poolLength, markerGlyph := marker
        stripCount := strips, glyphTable := glyphTable, streamOffset := streamOffset, streamLength := streamLength }

/-- The offset of strip i's header (11.4). -/
def View.stripOffset (v : View) (a i : Nat) : Except MemFail Nat := v.u32 (a + 0x34 + 4 * i)

/-- A strip header at its address (11.4). -/
def View.stripHeader (v : View) (a : Nat) : Except MemFail StripHeader := do
  let width ← v.u16 a
  let height ← v.u8 (a + 2)
  let pixels ← v.u32 (a + 4)
  .ok { width := width, height := height, pixels := pixels }

/-- Strip i of the copy at `a`. -/
def View.strip (v : View) (a i : Nat) : Except MemFail StripHeader := do
  let offset ← v.stripOffset a i
  v.stripHeader (a + offset)

/-- Strips `i` to `i + n - 1` of the copy at `a`. -/
def View.strips (v : View) (a : Nat) : Nat → Nat → Except MemFail (List StripHeader)
  | 0, _ => .ok []
  | n + 1, i => do
    let s ← v.strip a i
    let rest ← View.strips v a n (i + 1)
    .ok (s :: rest)

/-- The offsets of the strip headers `i` to `i + n - 1`. -/
def View.stripOffsets (v : View) (a : Nat) : Nat → Nat → Except MemFail (List Nat)
  | 0, _ => .ok []
  | n + 1, i => do
    let s ← v.stripOffset a i
    let rest ← View.stripOffsets v a n (i + 1)
    .ok (s :: rest)

/-- How many strip headers a copy has a place for (11.4, R192). -/
def stripsHeld (count : Nat) : Nat := if 2 < count then 0 else count

/-- A page descriptor: its sizes, paper and window count (11.4). -/
structure PageHead where
  width : Nat
  height : Nat
  paper : Nat
  windows : Nat
  deriving DecidableEq, Repr

/-- A page descriptor at its address. -/
def View.pageHead (v : View) (a : Nat) : Except MemFail PageHead := do
  let width ← v.u16 a
  let height ← v.u8 (a + 2)
  let paper ← v.u8 (a + 3)
  let windows ← v.u8 (a + 4)
  .ok { width := width, height := height, paper := paper, windows := windows }

/-- What a window's kind gives it (11.4). -/
inductive WindowKind where
  | text (ink paper zoomH zoomV : Nat) (centre marquee : Bool) (speed field : Nat) (fixed : Option Nat)
  | bar (ink paper border : Nat)
  | strip (index y0 fy : Nat) (marker : Bool)
  | fill (intensity : Nat)
  | other
  deriving DecidableEq, Repr

/-- A window place (11.4). -/
structure Window where
  startCol : Nat
  stopCol : Nat
  startRow : Nat
  stopRow : Nat
  kind : WindowKind
  deriving DecidableEq, Repr

/-- Bytes 5 onward of a window, by its kind code (11.4). Bits 2 to 7 of a TEXT window's flags are ignored (log 76). -/
def View.windowKind (v : View) (a code : Nat) : Except MemFail WindowKind :=
  match code with
  | 1 => do
    let ink ← v.u8 (a + 5)
    let paper ← v.u8 (a + 6)
    let zoomH ← v.u8 (a + 7)
    let zoomV ← v.u8 (a + 8)
    let flags ← v.u8 (a + 9)
    let speed ← v.u8 (a + 10)
    let field ← v.u8 (a + 11)
    let fixed ← v.u16 (a + 12)
    .ok (.text ink paper zoomH zoomV (flags.testBit 0) (flags.testBit 1) speed field (optional16 fixed))
  | 2 => do
    let ink ← v.u8 (a + 5)
    let paper ← v.u8 (a + 6)
    let border ← v.u8 (a + 7)
    .ok (.bar ink paper border)
  | 3 => do
    let index ← v.u8 (a + 5)
    let y0 ← v.u8 (a + 6)
    let fy ← v.u8 (a + 7)
    let marker ← v.u8 (a + 8)
    .ok (.strip index y0 fy (decide (marker ≠ 0)))
  | 4 => do
    let intensity ← v.u8 (a + 5)
    .ok (.fill intensity)
  | _ => .ok .other

/-- A window place. -/
def View.window (v : View) (a : Nat) : Except MemFail Window := do
  let code ← v.u8 a
  let startCol ← v.u8 (a + 1)
  let stopCol ← v.u8 (a + 2)
  let startRow ← v.u8 (a + 3)
  let stopRow ← v.u8 (a + 4)
  let kind ← v.windowKind a code
  .ok { startCol := startCol, stopCol := stopCol, startRow := startRow, stopRow := stopRow, kind := kind }

/-- R106: a TEXT window's checks; its fixed reference is checked with field 0 only and 0xFFFF passes (11.4). -/
def textCheck (poolLength zoomH zoomV : Nat) (marquee : Bool) (speed field : Nat) (fixed : Option Nat) :
    Option Result :=
  firstFailure
    [ (decide (zoomH < 1 ∨ 8 < zoomH ∨ zoomV < 1 ∨ 4 < zoomV ∨ 10 < field), .range),
      (marquee && decide (speed < 1 ∨ 64 < speed), .range),
      (decide (field = 0) && (match fixed with
        | none => false
        | some r => decide (poolLength ≤ r)), .range) ]

/-- R106: a window's checks; `height` gives the height of a strip the copy holds. -/
def windowCheck (poolLength : Nat) (height : Option Nat) (w : Window) : Option Result :=
  match firstFailure
    [ (decide (w.kind = .other), .range),
      (decide (w.stopCol < w.startCol ∨ w.stopRow < w.startRow), .order) ] with
  | some r => some r
  | none =>
    match w.kind with
    | .text _ _ zoomH zoomV _ marquee speed field fixed => textCheck poolLength zoomH zoomV marquee speed field fixed
    | .strip _ y0 fy _ =>
      match height with
      | none => some .range
      | some h => firstFailure [(decide (h ≤ y0 ∨ 15 < fy), .range)]
    | .bar _ _ _ => none
    | .fill _ => none
    | .other => none

/-- The height of the strip that a window names, where the copy holds it: one below the strip count, and strip 0 or 1. With a
strip count above 2, which R106 refuses only after its page checks, these two are read where their offsets point, though R192
has not checked their headers, and a higher index is not held (log 77). -/
def View.stripHeightOf (v : View) (a stripCount : Nat) (w : Window) : Except MemFail (Option Nat) :=
  match w.kind with
  | .strip index _ _ _ =>
    if index < stripCount ∧ index < 2 then do
      let s ← v.strip a index
      .ok (some s.height)
    else .ok none
  | _ => .ok none

/-- R106: the windows of a page, one after another (log 36); the header of the strip that a STRIP window names is read before
the window's first check (log 59). -/
def View.checkWindows (v : View) (copy : Nat) (d : Directory) : Nat → Nat → Except Reject Unit
  | 0, _ => .ok ()
  | n + 1, a => do
    let w ← mustRead (v.window a)
    let height ← mustRead (v.stripHeightOf copy d.stripCount w)
    match windowCheck d.poolLength height w with
    | some r => .error (.result r)
    | none => View.checkWindows v copy d n (a + 16)

/-- R106: the pages, one after another. -/
def View.checkPages (v : View) (copy : Nat) (d : Directory) : Nat → Nat → Except Reject Unit
  | 0, _ => .ok ()
  | n + 1, a => do
    let p ← mustRead (v.pageHead a)
    refuseIf
      [ (decide (p.width = 0 ∨ 256 < p.width ∨ p.height = 0 ∨ 32 < p.height), .range),
        (decide (p.windows = 0 ∨ 6 < p.windows), .count) ]
    v.checkWindows copy d p.windows (a + 8)
    View.checkPages v copy d n (a + 104)

/-- A glyph record (11.4). Advance bits 6 and 7 are ignored (11.1). -/
structure GlyphRecord where
  width : Nat
  height : Nat
  advance : Nat
  offset : Nat
  length : Nat
  deriving DecidableEq, Repr

/-- A glyph record at its address. -/
def View.glyph (v : View) (a : Nat) : Except MemFail GlyphRecord := do
  let width ← v.u8 a
  let height ← v.u8 (a + 1)
  let advance ← v.u8 (a + 2)
  let offset ← v.u16 (a + 4)
  let length ← v.u16 (a + 6)
  .ok { width := width, height := height, advance := advance % 64, offset := offset, length := length }

/-- R106: the glyphs, one after another. -/
def View.checkGlyphs (v : View) (streamLength : Nat) : Nat → Nat → Except Reject Unit
  | 0, _ => .ok ()
  | n + 1, a => do
    let g ← mustRead (v.glyph a)
    refuseIf
      [ (decide (g.width = 0 ∨ 32 < g.width ∨ g.height = 0 ∨ 32 < g.height), .range),
        (decide (streamLength < g.offset + g.length), .range) ]
    View.checkGlyphs v streamLength n (a + 8)

/-- R106: a strip's checks, against the copy's length. -/
def stripBad (length : Nat) (s : StripHeader) : Bool :=
  decide (s.width = 0 ∨ 4096 < s.width ∨ s.height = 0 ∨ 64 < s.height ∨ length < s.pixels + s.width * s.height)

/-- An entry byte of the run code table (11.4). -/
def runEntry (b : Byte) : RunEntry := { x := b.toNat % 8, endFlag := b.toNat.testBit 7 }

/-- The run code table as it stands in memory: its four header bytes and eight entries. -/
def View.runBytes (v : View) (a : Nat) : Except MemFail (List Byte × List RunEntry) := do
  let head ← v.bytes (a + 0x28) 4
  let entries ← v.bytes (a + 0x2C) 8
  .ok (head, entries.map runEntry)

/-- The working copy made of them (R125). Codes that R126 refuses, of a copy changed since its validation, are taken as they
stand: any value but 0 is ON or ZEROS, and every X counts (log 50). -/
def runTableOf (head : List Byte) (entries : List RunEntry) : RunTable :=
  { short := decide ((head.getD 0 0).toNat ≠ 0), commonX := (head.getD 1 0).toNat
    endMode := decide ((head.getD 2 0).toNat ≠ 0), zeros := decide ((head.getD 3 0).toNat ≠ 0), entries := entries }

/-- R126: the checks of the run code table. -/
def runTableBad (head : List Byte) (entries : List RunEntry) : Bool :=
  let t := runTableOf head entries
  decide (1 < (head.getD 0 0).toNat) || decide (1 < (head.getD 2 0).toNat) || decide (1 < (head.getD 3 0).toNat)
    || (t.short && decide (6 < t.commonX)) || (!t.short && entries.any (fun e => decide (6 < e.x)))
    || (t.endMode && !entries.any (·.endFlag)) || (!t.endMode && entries.any (·.endFlag))

/-- R192: the areas that the directory names lie within the copy; an empty area whose offset lies beyond the length does
not (log 65). -/
def areaFailures (length pages : Nat) (d : Directory) (stripOffsets : List Nat) : List (Bool × Result) :=
  [ (decide (length < d.pageTable + 104 * pages), .range),
    (decide (length < d.poolOffset + d.poolLength), .range),
    (decide (length < d.glyphTable + 2048), .range),
    (decide (length < d.streamOffset + d.streamLength), .range),
    (stripOffsets.any (fun o => decide (length < o + 8)), .range) ]

/-- R192, R106, R126: a content set. The directory and the strip offsets are read before the first area check, and both
strip headers before strip 0 is checked (log 59). -/
def View.validContent (v : View) (a : Nat) (h : Header) : Except Reject Unit := do
  let d ← mustRead (v.directory a)
  let offsets ← mustRead (v.stripOffsets a (stripsHeld d.stripCount) 0)
  refuseIf (areaFailures h.length h.count d offsets)
  refuseIf [(decide (h.count = 0 ∨ 64 < h.count), .count)]
  v.checkPages a d h.count (a + d.pageTable)
  refuseIf [(decide (16384 < d.poolLength), .range)]
  v.checkGlyphs d.streamLength 256 (a + d.glyphTable)
  refuseIf [(decide (2 < d.stripCount), .count)]
  let strips ← mustRead (v.strips a (stripsHeld d.stripCount) 0)
  refuseIf [(strips.any (stripBad h.length), .range)]
  let run ← mustRead (v.runBytes a)
  refuseIf [(runTableBad run.1 run.2, .range)]

/-! ### Validation (R174) -/

/-- What a passed validation leaves: the header, and the values of a coach profile (R175). -/
structure Validated where
  header : Header
  profile : Option Profile
  deriving DecidableEq, Repr

/-- R64: the edition floor is present and the copy's edition is not greater. -/
def belowFloor (floor : Option Nat) (edition : Nat) : Bool :=
  match floor with
  | none => false
  | some f => decide (edition ≤ f)

/-- R174: the checks of the chapter that owns the kind. -/
def View.validBody (v : View) (k : Kind) (floor : Option Nat) (a : Nat) (h : Header) :
    Except Reject (Option Profile) :=
  match k with
  | .coachProfile => do
    let f ← v.profile a h.count
    .ok (some f)
  | .stopList => do
    refuseIf [(stopCountBad h.count, .count)]
    let _ ← mustReadRecords (v.stops a h.count)
    .ok none
  | .reservationTable => do
    refuseIf [(belowFloor floor h.edition, .editionOrder), (seatEntryCountBad h.count, .count)]
    let _ ← mustReadRecords (v.seatEntries a h.count)
    .ok none
  | .noticeTable => do
    refuseIf [(noticeCountBad h.count, .count)]
    let _ ← mustReadRecords (v.notices a h.count)
    .ok none
  | .contentSet => do
    v.validContent a h
    .ok none

/-- R174: validation of the copy at `a`. -/
def View.validate (v : View) (k : Kind) (floor : Option Nat) (a : Nat) : Except Reject Validated := do
  let h ← v.validHeader k a
  let f ← v.validBody k floor a h
  .ok { header := h, profile := f }

/-! ### Loads (R22, R65, R87) -/

/-- A fault of a load: its cause and the address of the record concerned. -/
structure LoadFault where
  cause : ErrorCause
  address : Nat
  deriving DecidableEq, Repr

/-- The fault a load reports: a failed check is CHECK (R169). -/
def loadFault (e : Nat × Reject) : LoadFault :=
  match e.2 with
  | .memory f => { cause := f.cause, address := e.1 }
  | .result _ => { cause := .check, address := e.1 }

/-- A load of the copy at `a`: the record count, judged again, and then the records (log 37). Where the count cannot be read
or is out of range no record is concerned, and the address reported is the copy's own (log 37). -/
def View.loadRecords {α : Type} (v : View) (a : Nat) (countBad : Nat → Bool)
    (records : Nat → Except (Nat × Reject) (List α)) : Except LoadFault (List α) :=
  match v.u16 (a + 12) with
  | .error f => .error { cause := f.cause, address := a }
  | .ok n =>
    if countBad n then .error { cause := .check, address := a }
    else match records n with
      | .error e => .error (loadFault e)
      | .ok rs => .ok rs

/-- R22: the stop list. -/
def View.loadStops (v : View) (a : Nat) : Except LoadFault (List StopRecord) :=
  v.loadRecords a stopCountBad (v.stops a)

/-- R65: the reservation table. -/
def View.loadSeats (v : View) (a : Nat) : Except LoadFault (List RawEntry) :=
  v.loadRecords a seatEntryCountBad (v.seatEntries a)

/-- R87: the notice table. -/
def View.loadNotices (v : View) (a : Nat) : Except LoadFault (List RawNotice) :=
  v.loadRecords a noticeCountBad (v.notices a)

end Sys2Proof.Machine
end

