-- ==== Sys2Proof/Machine/Reservations.lean ====
section
/-! DEFINITION. The reservation engine (chapter 4): resolution, evaluation, loads, amendments. -/

namespace Sys2Proof.Machine

/-! ### Resolving (R68) -/

/-- R68: a segment's codes resolved against a view of stop codes. -/
def resolve (view : List Nat) (fromCode toCode : Nat) : Resolution :=
  match findIndex (· == fromCode) view, findIndex (· == toCode) view with
  | none, none => .unresolved
  | f, t =>
    let fi := f.getD 0
    let ti := t.getD (view.length - 1)
    if fi < ti then .resolved fi ti f.isNone t.isNone else .empty fi ti

/-- The indices of a RESOLVED segment. -/
def Segment.span (s : Segment) : Option (Nat × Nat) :=
  match s.resolution with
  | .resolved fi ti _ _ => some (fi, ti)
  | .empty _ _ => none
  | .unresolved => none

/-- The end index ti of a RESOLVED or EMPTY segment (R72). -/
def Resolution.endIndex : Resolution → Option Nat
  | .resolved _ ti _ _ => some ti
  | .empty _ ti => some ti
  | .unresolved => none

/-- A segment's rank in store order: its fi, and UNRESOLVED segments after every index (R69). -/
def Segment.rank (s : Segment) : Nat :=
  match s.resolution with
  | .resolved fi _ _ _ => fi
  | .empty fi _ => fi
  | .unresolved => 65536

/-- R69 step 2: store order; segments of equal rank keep their order. -/
def storeOrder (segments : List Segment) : List Segment := sortBy (fun x y => decide (x.rank < y.rank)) segments

/-- R70, R79: two RESOLVED segments of one kind overlap. -/
def Segment.overlaps (x y : Segment) : Bool :=
  decide (x.kind = y.kind) &&
    (match x.span, y.span with
     | some (fx, tx), some (fy, ty) => decide (fx < ty) && decide (fy < tx)
     | _, _ => false)

/-- Some two segments of the list overlap. -/
def anyOverlap : List Segment → Bool
  | [] => false
  | s :: rest => rest.any s.overlaps || anyOverlap rest

/-- A segment that by itself sets the resolution part of the review flag (R70). -/
def Segment.doubtful (s : Segment) : Bool :=
  match s.resolution with
  | .resolved _ _ f t => f || t
  | .empty _ _ => true
  | .unresolved => true

/-- R70: the resolution part of the review flag. -/
def reviewPart (segments : List Segment) : Bool := segments.any Segment.doubtful || anyOverlap segments

/-- R72: a segment that cleanup removes. -/
def Segment.endsBy (c : Nat) (s : Segment) : Bool :=
  match s.resolution.endIndex with
  | none => false
  | some ti => decide (ti ≤ c)

/-- R72: cleanup. -/
def cleanup (c : Option Nat) (segments : List Segment) : List Segment :=
  match c with
  | none => segments
  | some c => segments.filter (fun s => !s.endsBy c)

/-! ### Classifying (R71, R73) -/

/-- A RESOLVED segment of the kind covers c (R73). -/
def Segment.covers (kind : SegKind) (c : Nat) (s : Segment) : Bool :=
  decide (s.kind = kind) &&
    (match s.span with
     | some (fi, ti) => decide (fi ≤ c) && decide (c < ti)
     | none => false)

/-- A RESOLVED RESERVED segment starts after c (R73). -/
def Segment.reservedAfter (c : Nat) (s : Segment) : Bool :=
  decide (s.kind = .reserved) &&
    (match s.span with
     | some (fi, _) => decide (c < fi)
     | none => false)

/-- R73: display state and shown segment, of segments in store order. -/
def classify (c : Nat) (segments : List Segment) : SeatDisplay × Option Segment :=
  match segments.find? (Segment.covers .blocked c) with
  | some s => (.blocked, some s)
  | none =>
    match segments.find? (Segment.covers .reserved c) with
    | some s => (.reservedNow, some s)
    | none =>
      match segments.find? (Segment.reservedAfter c) with
      | some s => (.reservedLater, some s)
      | none => (.free, none)

/-- R74: the shown fields copied from a shown segment. -/
def Segment.shown (s : Segment) : Shown :=
  { kind := s.kind, fromCode := s.fromCode, toCode := s.toCode, label := s.label, note := s.note }

/-- R71: the c that cleanup uses. -/
def Reservations.cleanupLeg (r : Reservations) : Option Nat :=
  match r.refPhase with
  | .ended => some (r.refView.length - 1)
  | .unplaced => none
  | .lost => none
  | .atStop _ => r.refLeg
  | .running _ => r.refLeg
  | .approaching _ => r.refLeg
  | .halted _ => r.refLeg
  | .doubt _ => r.refLeg

/-- R71, R73: what a seat shows after classification; a held seat keeps what it showed. -/
def Reservations.display (r : Reservations) (segments : List Segment) (q : Seat) : SeatDisplay × Option Shown :=
  match r.refPhase with
  | .ended => (.off, none)
  | .unplaced => (q.display, q.shown)
  | .lost => (q.display, q.shown)
  | .atStop _ => let d := classify (r.refLeg.getD 0) segments; (d.1, d.2.map Segment.shown)
  | .running _ => let d := classify (r.refLeg.getD 0) segments; (d.1, d.2.map Segment.shown)
  | .approaching _ => let d := classify (r.refLeg.getD 0) segments; (d.1, d.2.map Segment.shown)
  | .halted _ => let d := classify (r.refLeg.getD 0) segments; (d.1, d.2.map Segment.shown)
  | .doubt _ => let d := classify (r.refLeg.getD 0) segments; (d.1, d.2.map Segment.shown)

/-! ### Evaluation (R69) -/

/-- R69 steps 1 to 5: the evaluation of one seat. -/
def Reservations.evaluate (r : Reservations) (q : Seat) : Seat :=
  let resolved := q.segments.map (fun s => { s with resolution := resolve r.refView s.fromCode s.toCode })
  let ordered := storeOrder resolved
  let kept := cleanup r.cleanupLeg ordered
  let d := r.display kept q
  { q with segments := kept, reviewResolution := reviewPart ordered, display := d.1, shown := d.2 }

/-- R74: the evaluation changes what the seat shows. -/
def Seat.showsOther (before after : Seat) : Bool :=
  decide (before.display ≠ after.display) || decide (before.shown ≠ after.shown)

/-- R69 step 6, R74: the modules to mark, in store order. -/
def changedModules : List Seat → List Seat → List Nat
  | q :: qs, q' :: qs' => (if q.showsOther q' then [q'.address] else []) ++ changedModules qs qs'
  | _, _ => []

/-- R69: while the reference state is UNPLACED or LOST, the present served view is read into the reference view. -/
def Reservations.readView (r : Reservations) (present : List ServedStop) : Reservations :=
  if r.refPhase = .unplaced ∨ r.refPhase = .lost then { r with refView := present.map (·.code) } else r

/-- The engine's reference brought up to date for a resolution (R69). -/
def Part.readReference (p : Part) : Part := { p with res := p.res.readView p.trk.view }

/-- The engine with another seat store, the modules whose seats show something else marked (R74). -/
def Part.showSeats (p : Part) (seats : List Seat) : Part :=
  { p with
    cmp := { p.cmp with moduleMarks := p.cmp.moduleMarks ++ changedModules p.res.seats seats }
    res := { p.res with seats := seats } }

/-- R69: the whole store is evaluated. -/
def Part.evaluateAll (p : Part) : Part :=
  let p := p.readReference
  p.showSeats (p.res.seats.map p.res.evaluate)

/-- R82: one seat is evaluated. -/
def Part.evaluateSeat (p : Part) (number : Nat) : Part :=
  let p := p.readReference
  p.showSeats (p.res.seats.map (fun q => if q.number = number then p.res.evaluate q else q))

/-! ### Events -/

/-- R69: the reference after a journey event. -/
def Reservations.refer (r : Reservations) (e : JourneyEvent) : Reservations :=
  { r with refPhase := e.phase
           refLeg := (match e.phase.leg with
             | some k => some k
             | none => r.refLeg)
           refView := e.view.map (·.code) }

/-- R69: the engine takes a journey event. -/
def Part.reservationJourney (p : Part) : Part :=
  match p.res.journeys with
  | [] => p
  | e :: rest => Part.evaluateAll { p with res := { p.res.refer e with journeys := rest } }

/-- R62: a seat record created by a profile. -/
def newSeat (e : SeatPlace) : Seat :=
  { number := e.number, address := e.address, half := e.half, segments := [], display := .unknown, shown := none
    reviewResolution := false, reviewLatched := true }

/-- R62: the seat record of a seat map entry, kept by its number or created. -/
def seatOf (old : List Seat) (e : SeatPlace) : Seat :=
  match old.find? (fun q => q.number == e.number) with
  | some q => { q with address := e.address, half := e.half }
  | none => newSeat e

/-- R62: the engine takes the profile handed to it; a created seat that the evaluation takes out of UNKNOWN has its module
marked by R74 (log 67). -/
def Part.seatMapLoad (p : Part) : Part :=
  match p.res.profiles with
  | [] => p
  | f :: rest =>
    Part.evaluateAll
      { p with res := { p.res with profiles := rest, pages := some f.seatPages
                                   seats := f.seatMap.map (seatOf p.res.seats) } }

/-! ### Loads (R65 to R67) -/

/-- R63: the edition floor; a load counts in it from its start at the engine (log 66). -/
def Reservations.floor (r : Reservations) : Option Nat :=
  match r.load, r.storeEdition with
  | .loading _ _ e, some s => some (max s e)
  | .loading _ _ e, none => some e
  | .idle, s => s
  | .owed, s => s

/-- R65: the engine starts a load of the live reservation table. -/
def Part.startSeatLoad (p : Part) : Part :=
  let begun := p.beginLoad .reservationTable p.res.load
  { begun.1 with res := { begun.1.res with load := begun.2 } }

/-- R65: the engine is told to load. -/
def Part.seatLoadTold (p : Part) : Part :=
  if p.res.told = 0 then p else Part.startSeatLoad { p with res := { p.res with told := p.res.told - 1 } }

/-- R67: a sweep boundary at the engine: an owed load starts. -/
def Part.reservationBoundary (p : Part) : Part :=
  if p.res.boundaries = 0 then p
  else
    let p := { p with res := { p.res with boundaries := p.res.boundaries - 1 } }
    if p.res.load = .owed ∧ p.regs.run = true then p.startSeatLoad else p

/-- R66 steps 2 and 4: a seat after a load. -/
def loadedSeat (entries : List SeatEntry) (q : Seat) : Seat :=
  { q with reviewLatched := false
           segments := (match entries.find? (fun e => e.number == q.number) with
             | some e => e.segments
             | none => []) }

/-- R66 step 3: the seat numbers of entries that the seat map does not hold. -/
def skippedNumbers (entries : List SeatEntry) (seats : List Seat) : List Nat :=
  (entries.map (·.number)).filter (fun n => !seats.any (fun q => q.number == n))

/-- The least number of a list. -/
def leastOf : List Nat → Option Nat
  | [] => none
  | n :: rest =>
    match leastOf rest with
    | none => some n
    | some m => some (min n m)

/-- R66 steps 2 to 5. -/
def Reservations.loaded (r : Reservations) (entries : List SeatEntry) (edition : Nat) : Reservations :=
  let skipped := skippedNumbers entries r.seats
  { r with seats := r.seats.map (loadedSeat entries), skipped := skipped.length, lowestSkipped := leastOf skipped
           storeEdition := some edition }

/-- R66, R65: the completion of a load, or its abandonment by a fault. -/
def Part.completeSeatLoad (p : Part) (bus : Bus) : Part :=
  match p.res.load with
  | .loading copy address edition =>
    let p := p.hostWrites bus
    let read := (p.view bus).loadSeats address
    let p := p.unpin .reservationTable copy
    let p := { p with res := { p.res with load := .idle } }
    match read with
    | .error f => p.memoryError .reservations f.address f.cause
    | .ok entries => Part.evaluateAll { p with res := p.res.loaded (entries.map RawEntry.toEntry) edition }
  | .idle => p
  | .owed => p

/-! ### Amendments (R76 to R82) -/

/-- R76: the engine holds a record of this edition. -/
def Reservations.holds (r : Reservations) (edition : Nat) : Bool :=
  decide (r.load ≠ .idle) ||
    (match r.storeEdition with
     | none => true
     | some e => decide (e < edition))

/-- R77: the record is older than the store. -/
def Reservations.stale (r : Reservations) (edition : Nat) : Bool :=
  match r.storeEdition with
  | none => false
  | some e => decide (edition < e)

/-- The seat record of a number. -/
def Reservations.seat (r : Reservations) (number : Nat) : Option Seat :=
  r.seats.find? (fun q => q.number == number)

/-- The engine with one seat's record changed. -/
def Part.changeSeat (p : Part) (number : Nat) (f : Seat → Seat) : Part :=
  { p with res := { p.res with seats := p.res.seats.map (fun q => if q.number = number then f q else q) } }

/-- R82: an amendment that changed the seat: the latched part is cleared and the seat evaluated. -/
def Part.amended (p : Part) (number : Nat) (segments : List Segment) : Part :=
  (p.changeSeat number (fun q => { q with segments := segments, reviewLatched := false })).evaluateSeat number

/-- R79 step 2: the new segment would be cleaned up at once. -/
def Reservations.expires (r : Reservations) (s : Segment) : Bool :=
  match r.cleanupLeg with
  | none => false
  | some c => s.endsBy c

/-- R79: ADD to a seat of the store. -/
def Part.addSegment (p : Part) (q : Seat) (kind : SegKind) (a : Amendment) : Part × AmendResult :=
  let p := p.readReference
  let s : Segment := { kind := kind, fromCode := a.fromCode, toCode := a.toCode, label := a.label, note := a.note
                       resolution := resolve p.res.refView a.fromCode a.toCode }
  let kept := q.segments.filter (fun x => !s.overlaps x)
  if s.resolution = .unresolved then (p, .refusedUnresolved)
  else if p.res.expires s then (p, .expired)
  else if 4 ≤ kept.length then (p.changeSeat q.number (fun q => { q with reviewLatched := true }), .refusedFull)
  else (p.amended q.number (kept ++ [s]), if kept.length = q.segments.length then .applied else .replaced)

/-- R80: the segment has the record's kind and codes. -/
def Segment.named (kind : SegKind) (a : Amendment) (s : Segment) : Bool :=
  decide (s.kind = kind) && s.fromCode == a.fromCode && s.toCode == a.toCode

/-- R80: CANCEL on a seat of the store. -/
def Part.cancelSegment (p : Part) (q : Seat) (kind : SegKind) (a : Amendment) : Part × AmendResult :=
  if q.segments.any (Segment.named kind a) then
    (p.amended q.number (q.segments.filter (fun s => !s.named kind a)), .applied)
  else (p, .notFound)

/-- R78: ADD or CANCEL of the store's edition: its kind and seat are checked, then it acts. -/
def Part.judgeOnSeat (p : Part) (act : Part → Seat → SegKind → Amendment → Part × AmendResult) (a : Amendment) :
    Part × AmendResult :=
  match segKindOf a.kind with
  | none => (p, .invalid)
  | some kind =>
    match p.res.seat a.seat with
    | none => (p, .unknownSeat)
    | some q => act p q kind a

/-- R81, R78: CLEAR of the store's edition. -/
def Part.judgeClear (p : Part) (a : Amendment) : Part × AmendResult :=
  match p.res.seat a.seat with
  | none => (p, .unknownSeat)
  | some q => (p.amended q.number [], .applied)

/-- R78: an action that is not named. -/
def Part.judgeInvalid (p : Part) (_ : Amendment) : Part × AmendResult := (p, .invalid)

/-- R76, R77: a hold (none), STALE, or the judgement of a record of the store's edition. -/
def Part.answerAmendment (p : Part) (judge : Part → Amendment → Part × AmendResult) (a : Amendment) :
    Part × Option AmendResult :=
  if p.res.holds a.edition then (p, none)
  else if p.res.stale a.edition then (p, some .stale)
  else ((judge p a).1, some (judge p a).2)

/-- The delivery run replaced. -/
def Part.setRun (p : Part) (r : Option DeliveryRun) : Part := { p with ed := { p.ed with run := r } }

/-- Where the slot at the take index stands in the window. -/
def takeSlot (list take : Nat) : Nat := list + 32 * take

/-- R181 steps 3 and 4 at the edition unit: a hold ends the run; a result waits for its writes, or is owed where RUN
has become 0 (R188). -/
def Part.amendmentAnswered (p : Part) (run : DeliveryRun) (answer : Option AmendResult) : Part :=
  match answer with
  | none => p.setRun none
  | some r =>
    if run.cut || !p.regs.run then (p.setRun none).owe (.amend (takeSlot run.list p.ed.take) r)
    else p.setRun (some { run with stage := .answered r })

/-- R82: AMEND is raised for a result other than APPLIED. -/
def raisesAmend (answer : Option AmendResult) : Bool :=
  match answer with
  | none => false
  | some r => decide (r ≠ .applied)

/-- The engine takes the record handed to it, if its action is this row's. -/
def Part.takeAmendment (p : Part) (isMine : Nat → Bool) (judge : Part → Amendment → Part × AmendResult) : Part :=
  match p.ed.run with
  | none => p
  | some run =>
    match run.stage with
    | .handed a =>
      if isMine a.action then
        let answer := p.answerAmendment judge a
        (answer.1.raiseIf (raisesAmend answer.2) .amend).amendmentAnswered run answer.2
      else p
    | .reading => p
    | .answered _ => p

/-! ### Meanings -/

/-- RESERVATION_JOURNEY_EVENT (R69). -/
def execReservationJourneyEvent (s : State) : Answer := s.onPart (·.reservationJourney)

/-- SEAT_MAP_LOAD (R62). -/
def execSeatMapLoad (s : State) : Answer := s.onPart (·.seatMapLoad)

/-- RESERVATION_LOAD_START (R65). -/
def execReservationLoadStart (s : State) : Answer := s.onPart (·.seatLoadTold)

/-- RESERVATION_LOAD_COMPLETE (R66). -/
def execReservationLoadComplete (bus : Bus) (s : State) : Answer := s.onPart (·.completeSeatLoad bus)

/-- RESERVATION_OWED_LOAD (R67). -/
def execReservationOwedLoad (s : State) : Answer := s.onPart (·.reservationBoundary)

/-- ADD (R79). -/
def execAdd (s : State) : Answer := s.onPart (·.takeAmendment (· == 1) (·.judgeOnSeat Part.addSegment))

/-- CANCEL (R80). -/
def execCancel (s : State) : Answer := s.onPart (·.takeAmendment (· == 2) (·.judgeOnSeat Part.cancelSegment))

/-- CLEAR (R81). -/
def execClear (s : State) : Answer := s.onPart (·.takeAmendment (· == 3) Part.judgeClear)

/-- AMEND_INVALID_ACTION (R78). -/
def execAmendInvalidAction (s : State) : Answer :=
  s.onPart (·.takeAmendment (fun n => n != 1 && n != 2 && n != 3) Part.judgeInvalid)

end Sys2Proof.Machine
end

