-- ==== Sys2Proof/Machine/Composer.lean ====
section
/-! DEFINITION. The composer (chapter 6): marks, compositions, the drawing of pages, the render store. -/

namespace Sys2Proof.Machine

/-! ### Marks (R114, R115) -/

/-- R114: health at which a mark is entered. -/
def Health.drawn : Health → Bool
  | .online => true
  | .failing => true
  | .absent => false
  | .joining => false
  | .offline => false

/-- The composer's configuration has a panel of this address on this line. -/
def Composer.configured (c : Composer) (l : Line) (a : Nat) : Bool :=
  c.panels.any (fun q => decide (q.line = l) && q.address == a)

/-- R114: a mark for a panel; every entry of a refresh list is a configured panel. -/
def Part.markPanel (p : Part) (l : Line) (a : Nat) : Part :=
  if (p.cmp.refresh l).contains a then p
  else if ((p.line l).health a).drawn && p.cmp.configured l a then
    { p with cmp := p.cmp.setRefresh l (p.cmp.refresh l ++ [a]) }
  else p

/-- R115: the marks of one event: the configured panels that the test holds of, by line and ascending address. -/
def Part.markWhere (p : Part) (test : PanelDraw → Bool) : Part :=
  (p.cmp.panels.filter test).foldl (fun p q => p.markPanel q.line q.address) p

/-- R59, R60: the change of the position record marks this panel. -/
def PanelDraw.moved (q : PanelDraw) (before after : PositionRecord) : Bool :=
  (decide (before.marker ≠ after.marker) && q.strip) || q.bars.any (fun b => decide (before.lit b ≠ after.lit b))

/-- R47, R59, R60, R115: the composer takes a journey event. -/
def Part.composerJourney (p : Part) : Part :=
  match p.cmp.events with
  | .journey e :: rest =>
    let before := p.cmp.position
    let after := before.journey e p.odo.legDistance
    Part.markWhere { p with cmp := { p.cmp with events := rest, position := after } }
      (fun q => decide (q.line ≠ .seat) || q.moved before after)
  | .progress _ :: _ => p
  | [] => p

/-- R48: the composer takes a progress event. -/
def Part.composerProgress (p : Part) : Part :=
  match p.cmp.events with
  | .progress mm :: rest =>
    let before := p.cmp.position
    let after := before.progress mm
    Part.markWhere { p with cmp := { p.cmp with events := rest, position := after } } (fun q => q.moved before after)
  | .journey _ :: _ => p
  | [] => p

/-- R74, R115: the composer takes a mark for a seat-label module. -/
def Part.composerModule (p : Part) : Part :=
  match p.cmp.moduleMarks with
  | [] => p
  | a :: rest => Part.markPanel { p with cmp := { p.cmp with moduleMarks := rest } } .seat a

/-- The line of a notice group (chapter 5). -/
def NoticeGroup.line : NoticeGroup → Line
  | .endGroup => .end_
  | .doorGroup => .door

/-- R99, R115: the composer takes a selection mark. -/
def Part.composerSelection (p : Part) : Part :=
  match p.cmp.selectionMarks with
  | [] => p
  | g :: rest => Part.markWhere { p with cmp := { p.cmp with selectionMarks := rest } } (fun q => decide (q.line = g.line))

/-- R116: a sweep boundary at the composer; the sweep number is read as it stands when the composer takes it (log 68). -/
def Part.composerBoundary (p : Part) : Part :=
  if p.cmp.boundaries = 0 then p
  else
    let p := { p with cmp := { p.cmp with boundaries := p.cmp.boundaries - 1 } }
    if p.swp.number = 0 then p else p.markWhere (·.moving)

/-- R115: the composer takes a panel's change to ONLINE. -/
def Part.composerOnline (p : Part) : Part :=
  match p.cmp.panelEvents with
  | .online l a :: rest => Part.markPanel { p with cmp := { p.cmp with panelEvents := rest } } l a
  | .offline _ _ :: _ => p
  | [] => p

/-- R107, R113, R115: the completion of a content-set switch: kept windows are discarded and every panel marked. -/
def Part.contentSwitched (p : Part) : Part :=
  Part.markWhere
    { p with cmp := { p.cmp with panels := p.cmp.panels.map (fun q => { q with strip := false, bars := [] }) } }
    (fun _ => true)

/-! ### The render store (R123) -/

/-- The panel that a slot is held for. -/
def SlotState.panel : SlotState → Option (Line × Nat)
  | .free => none
  | .rendering l a => some (l, a)
  | .waiting l a => some (l, a)
  | .loading l a => some (l, a)

/-- The store with the slots that the test holds of FREE. -/
def freeSlots (test : SlotState → Bool) (slots : List Slot) : List Slot :=
  slots.map (fun s => if test s.state then Slot.freed else s)

/-- Some slot is in this state. -/
def Composer.holds (c : Composer) (s : SlotState) : Bool := c.slots.any (fun x => decide (x.state = s))

/-- R117: a panel of a refresh list is eligible when it holds no LOADING slot. -/
def Composer.eligible (c : Composer) (l : Line) (a : Nat) : Bool := !c.holds (.loading l a)

/-! ### Abandonment (R122) -/

/-- R122, R134: the composition in flight is dropped: its pin, its partial image and the decode state. -/
def Part.dropComposition (p : Part) : Part :=
  match p.cmp.comp with
  | none => p
  | some c =>
    let p := { p with cmp := { p.cmp with
      comp := none
      slots := changeAt (fun _ => Slot.freed) c.slot p.cmp.slots
      decoder := p.cmp.decoder.start } }
    match c.pin with
    | none => p
    | some pin => p.unpin .contentSet pin.copy

/-- The composition in flight is for this panel. -/
def Composition.isFor (c : Composition) (l : Line) (a : Nat) : Bool := decide (c.line = l) && c.address == a

/-- The composition in flight dropped where it is for a panel that the test holds of. -/
def Part.dropCompositionIf (p : Part) (test : Line → Nat → Bool) : Part :=
  match p.cmp.comp with
  | none => p
  | some c => if test c.line c.address then p.dropComposition else p

/-- The state holds a slot of a panel that the test holds of. -/
def SlotState.heldFor (test : Line → Nat → Bool) (s : SlotState) : Bool :=
  match s.panel with
  | none => false
  | some (l, a) => test l a

/-- R122: the panels that the test holds of are out: compositions, slots and refresh places. -/
def Part.releasePanels (p : Part) (test : Line → Nat → Bool) : Part :=
  let p := p.dropCompositionIf test
  { p with cmp := { p.cmp with
    slots := freeSlots (·.heldFor test) p.cmp.slots
    refreshSeat := p.cmp.refreshSeat.filter (fun a => !test .seat a)
    refreshEnd := p.cmp.refreshEnd.filter (fun a => !test .end_ a)
    refreshDoor := p.cmp.refreshDoor.filter (fun a => !test .door a) } }

/-- R122: the composer takes a panel's change to OFFLINE. -/
def Part.composerOffline (p : Part) : Part :=
  match p.cmp.panelEvents with
  | .offline l a :: rest =>
    Part.releasePanels { p with cmp := { p.cmp with panelEvents := rest } } (fun l' a' => decide (l' = l) && a' == a)
  | .online _ _ :: _ => p
  | [] => p

/-- R122: RUN becomes 0: the slot becomes FREE and the panel is appended to its refresh list. -/
def Part.stopComposition (p : Part) : Part :=
  match p.cmp.comp with
  | none => p
  | some c => p.dropComposition.markPanel c.line c.address

/-! ### Coach-profile load (R115, R122) -/

/-- The addresses of a line's panels, ascending. -/
def LineConfig.rising (c : LineConfig) : List Nat := sortBy (fun x y => decide (x < y)) (c.panels.map (·.address))

/-- What the composer keeps of a panel that stays configured, or begins with (R105). -/
def panelDrawOf (old : List PanelDraw) (l : Line) (a : Nat) : PanelDraw :=
  match old.find? (fun q => decide (q.line = l) && q.address == a) with
  | some q => q
  | none => { line := l, address := a, moving := false, strip := false, bars := [] }

/-- The configured panels, by line and ascending address. -/
def panelDraws (old : List PanelDraw) (f : Profile) : List PanelDraw :=
  Line.all.flatMap (fun l => (f.line l).rising.map (panelDrawOf old l))

/-- R115, R122: the composer takes the profile handed to it. -/
def Part.composerProfile (p : Part) : Part :=
  match p.cmp.profiles with
  | [] => p
  | f :: rest =>
    let p := Part.releasePanels { p with cmp := { p.cmp with profiles := rest } }
      (fun l a => !(f.line l).panels.any (fun q => q.address == a))
    Part.markWhere { p with cmp := { p.cmp with panels := panelDraws p.cmp.panels f } } (fun _ => true)

/-! ### Beginning a composition (R117, R118) -/

/-- A line's image size (R108). -/
def imageSize : Line → Nat × Nat
  | .seat => (96, 16)
  | .end_ => (256, 32)
  | .door => (160, 32)

/-- R108: the areas of a panel image, in the order drawn. -/
def imageAreas : Line → List Area
  | .seat => [ { rect := { x := 0, y := 0, w := 48, h := 16 }, half := some .left },
               { rect := { x := 48, y := 0, w := 48, h := 16 }, half := some .right } ]
  | .end_ => [{ rect := { x := 0, y := 0, w := 256, h := 32 }, half := none }]
  | .door => [{ rect := { x := 0, y := 0, w := 160, h := 32 }, half := none }]

/-- The line after a line in the cyclic order SEAT, END, DOOR (R117). -/
def Line.next : Line → Line
  | .seat => .end_
  | .end_ => .door
  | .door => .seat

/-- R117: the first eligible panel of a line's refresh list. -/
def Composer.candidate (c : Composer) (l : Line) : Option Nat := (c.refresh l).find? (c.eligible l)

/-- R117: the line and panel of the next composition. -/
def Composer.choice (c : Composer) : Option (Line × Nat) :=
  let l1 := Line.next c.lastLine
  let l2 := Line.next l1
  let l3 := Line.next l2
  match c.candidate l1, c.candidate l2, c.candidate l3 with
  | some a, _, _ => some (l1, a)
  | none, some a, _ => some (l2, a)
  | none, none, some a => some (l3, a)
  | none, none, none => none

/-- R117: what the next composition takes: line, panel and slot, where one can begin. -/
def Part.nextComposition (p : Part) : Option (Line × Nat × Nat) :=
  if p.cmp.comp = none ∧ p.regs.run = true then
    match p.cmp.choice, findIndex (fun s => decide (s.state = .free)) p.cmp.slots with
    | some (l, a), some i => some (l, a, i)
    | some _, none => none
    | none, _ => none
  else none

/-- R118: what a composition reads of the pinned copy at its start; at most 2 strips (R106, log 49). -/
def View.contentItems (v : View) (a : Nat) : Except MemFail (ContentItems × RunTable) := do
  let pages ← v.u16 (a + 12)
  let pool ← v.u16 (a + 0x18)
  let count ← v.u8 (a + 0x1B)
  let strips ← v.strips a (min count 2) 0
  let marker ← v.u8 (a + 0x1A)
  let run ← v.runBytes a
  .ok ({ pageCount := pages, poolLength := pool, strips := strips, markerGlyph := marker }, runTableOf run.1 run.2)

/-- A composition at its start. -/
def newComposition (l : Line) (a i : Nat) : Composition :=
  { line := l, address := a, slot := i, pin := none, items := none, areas := imageAreas l, page := none, glyphs := []
    image := List.replicate ((imageSize l).1 * (imageSize l).2) 0, overflowed := false, strip := false, bars := [] }

/-- The composition in flight replaced. -/
def Part.setComp (p : Part) (c : Composition) : Part := { p with cmp := { p.cmp with comp := some c } }

/-- R169, R121: a memory error at the composer. -/
def Part.composerError (p : Part) (f : MemFail) : Part := p.memoryError .composer f.address f.cause

/-- R118: the items of the pinned copy read; an error omits the whole image, and leaves the working copy as it was, the table
of an earlier composition or none (log 80). -/
def Part.readItems (p : Part) (bus : Bus) (c : Composition) (copy : Copy) (address : Nat) : Part :=
  let c := { c with pin := some { copy := copy, address := address } }
  let p := p.pin .contentSet copy
  match (p.view bus).contentItems address with
  | .error f => (p.setComp { c with areas := [] }).composerError f
  | .ok (items, table) =>
    Part.setComp { p with cmp := { p.cmp with decoder := { p.cmp.decoder with table := some table } } }
      { c with items := some items }

/-- R117, R118: a composition begins. -/
def Part.beginComposition (p : Part) (bus : Bus) : Part :=
  match p.nextComposition with
  | none => p
  | some (l, a, i) =>
    let p := p.hostWrites bus
    let cmp := p.cmp.setRefresh l ((p.cmp.refresh l).erase a)
    let p := { p with cmp := { cmp with
      lastLine := l, slots := changeAt (fun s => { s with state := .rendering l a }) i cmp.slots } }
    match p.ed.content.live, p.ed.content.liveAddress with
    | some copy, some address => p.readItems bus (newComposition l a i) copy address
    | none, _ => p.setComp (newComposition l a i)
    | some _, none => p.setComp (newComposition l a i)

/-! ### Pixels -/

/-- Every pixel of an image of width `w`, from pixel index `i`, changed by its column and row. -/
def mapPixels (w : Nat) (f : Nat → Nat → Byte → Byte) : Nat → List Byte → List Byte
  | _, [] => []
  | i, b :: rest => f (i % w) (i / w) b :: mapPixels w f (i + 1) rest

/-- A pixel lies in a rectangle. -/
def Rect.has (r : Rect) (x y : Nat) : Bool :=
  decide (r.x ≤ x) && decide (x < r.x + r.w) && decide (r.y ≤ y) && decide (y < r.y + r.h)

/-- The pixels of a rectangle inside the area changed by their column and row within the rectangle. -/
def Composition.paint (c : Composition) (area r : Rect) (f : Nat → Nat → Byte → Byte) : Composition :=
  let change (x y : Nat) (b : Byte) : Byte := if area.has x y && r.has x y then f (x - r.x) (y - r.y) b else b
  { c with image := mapPixels (imageSize c.line).1 change 0 c.image }

/-- A rectangle of one intensity. -/
def Composition.flat (c : Composition) (area r : Rect) (v : Nat) : Composition :=
  c.paint area r (fun _ _ _ => BitVec.ofNat 8 v)

/-! ### Pages (R108, R113, R119) -/

/-- The place of a display state's page among the six seat pages (11.3). -/
def SeatDisplay.page : SeatDisplay → Nat
  | .unknown => 0
  | .free => 1
  | .reservedNow => 2
  | .reservedLater => 3
  | .blocked => 4
  | .off => 5

/-- The seat that occupies a half of a module (R75). -/
def Reservations.seatAt (r : Reservations) (a : Nat) (h : SeatHalf) : Option Seat :=
  r.seats.find? (fun q => q.address == a && decide (q.half = h))

/-- R113: the page index of an area, and the seat it is drawn for; read when the area begins (R119). -/
def Part.presentPage (p : Part) (l : Line) (a : Nat) (area : Area) : Option Nat × Option Nat :=
  match l, area.half with
  | .end_, _ => (p.ntc.selEnd.page, none)
  | .door, _ => (p.ntc.selDoor.page, none)
  | .seat, none => (none, none)
  | .seat, some h =>
    match p.res.seatAt a h with
    | none => (none, none)
    | some q => (p.res.pages.bind (fun ps => ps[q.display.page]?), some q.number)

/-- The address of a page's descriptor, by its index in the page table of the copy at `a`; a memory error on the table's
offset is taken as one of the descriptor (log 83). -/
def View.pageAddress (v : View) (a index : Nat) : Except MemFail Nat := do
  let table ← v.u32 (a + 0x10)
  .ok (a + table + 104 * index)

/-- A page's descriptor, by its index in the page table of the copy at `a`, with its address. -/
def View.pageAt (v : View) (a index : Nat) : Except MemFail (Nat × PageHead) := do
  let address ← v.pageAddress a index
  let head ← v.pageHead address
  .ok (address, head)

/-- R121: what a page shows whose descriptor's read fails: its paper and no window, where its size and paper are read. -/
def View.pagePaper (v : View) (a index : Nat) : Except MemFail (Nat × PageHead) := do
  let address ← v.pageAddress a index
  let width ← v.u16 address
  let height ← v.u8 (address + 2)
  let paper ← v.u8 (address + 3)
  .ok (address, { width := width, height := height, paper := paper, windows := 0 })

/-- R108: the page's pixels inside the area set to its paper, and its windows to be drawn. No page holds more than 6
windows (R106); of a copy changed since its validation the first 6 are drawn (log 49). -/
def Composition.beginPage (c : Composition) (area : Area) (seat : Option Nat) (address : Nat) (h : PageHead) :
    Composition :=
  let page : Rect := { x := area.rect.x, y := area.rect.y, w := h.width, h := h.height }
  { Composition.flat c area.rect page h.paper with
    page := some { area := area, seat := seat, address := address, width := h.width, height := h.height
                   paper := h.paper, windows := min h.windows 6, next := 0 } }

/-- R121: the page's descriptor cannot be read: the rest of the page is omitted, and its pixels keep the paper intensity;
where that is not read either, the area stays at intensity 0 (log 48). -/
def Part.omitPage (p : Part) (bus : Bus) (c : Composition) (area : Area) (seat : Option Nat) (copy index : Nat)
    (f : MemFail) : Part :=
  match (p.view bus).pagePaper copy index with
  | .ok (address, h) => (p.setComp (c.beginPage area seat address h)).composerError f
  | .error _ => (p.setComp c).composerError f

/-- R108, R121: an area begins. An area with no page to draw stays at intensity 0. -/
def Part.beginArea (p : Part) (bus : Bus) (c : Composition) (area : Area) : Part :=
  let present := p.presentPage c.line c.address area
  match present.1, c.items, c.pin with
  | some index, some items, some pin =>
    if index < items.pageCount then
      match (p.view bus).pageAt pin.address index with
      | .error f => p.omitPage bus c area present.2 pin.address index f
      | .ok (address, h) => p.setComp (c.beginPage area present.2 address h)
    else p.setComp c
  | _, _, _ => p.setComp c

/-- R108: a window's rectangle clipped to the page, in image coordinates. -/
def PageDraw.clip (g : PageDraw) (w : Window) : Rect :=
  if g.width ≤ w.startCol ∨ g.height ≤ w.startRow then { x := 0, y := 0, w := 0, h := 0 }
  else { x := g.area.rect.x + w.startCol, y := g.area.rect.y + w.startRow
         w := min w.stopCol (g.width - 1) + 1 - w.startCol, h := min w.stopRow (g.height - 1) + 1 - w.startRow }

/-! ### Strings (R109, R112, R75) -/

/-- What a TEXT window draws: a text reference, or characters that the part makes itself. -/
inductive TextSource where
  | ref (r : Option Nat)
  | codes (cs : List Nat)
  deriving DecidableEq, Repr

/-- The two decimal digits of a number below 100 (R112). -/
def twoDigits (n : Nat) : List Nat := [48 + n / 10 % 10, 48 + n % 10]

/-- R112: minutes of day as five characters. -/
def timeCodes (t : Nat) : List Nat := twoDigits (t / 60) ++ [58] ++ twoDigits (t % 60)

/-- R75: a seat number in decimal without leading zeros. -/
def numberCodes (n : Nat) : List Nat :=
  if n < 10 then [48 + n]
  else if n < 100 then [48 + n / 10, 48 + n % 10]
  else [48 + n / 100 % 10, 48 + n / 10 % 10, 48 + n % 10]

/-- The stop record of a served stop. -/
def Tracker.recordOf (t : Tracker) (s : Option ServedStop) : Option StopRecord := s.bind (fun q => t.stops[q.index]?)

/-- R75: the name of a stop by its code. -/
def Tracker.nameOf (t : Tracker) (code : Nat) : Option Nat :=
  (t.stops.find? (fun r => r.code == code)).bind (·.name)

/-- R75: the shown label reference; if absent, the note. -/
def Shown.text (s : Shown) : Option Nat :=
  match s.label with
  | some r => some r
  | none => s.note

/-- R112: a scheduled time's characters. -/
def timeSource (t : Option Nat) : TextSource :=
  match t with
  | none => .codes []
  | some m => .codes (timeCodes m)

/-- R112: what a field draws now (11.4); a field code that R106 does not name draws the empty string (log 49). The seat of a
half is the one of the number that the half was begun with, looked up anew: one removed since then draws the empty string
in every seat field, and one moved to another half draws its own fields still (log 79). -/
def Part.fieldSource (p : Part) (seat : Option Nat) (field : Nat) (fixed : Option Nat) : TextSource :=
  let next := p.trk.recordOf (nextStop p.trk.phase p.trk.view)
  let current := p.trk.recordOf (currentStop p.trk.phase p.trk.view)
  let shown := (seat.bind p.res.seat).bind (·.shown)
  match field with
  | 0 => .ref fixed
  | 1 => .ref (next.bind (·.name))
  | 2 => .ref (next.bind (·.shortName))
  | 3 => .ref (current.bind (·.name))
  | 4 => .ref ((p.trk.recordOf p.trk.view.getLast?).bind (·.name))
  | 5 => .codes (((seat.bind p.res.seat).map (fun q => numberCodes q.number)).getD [])
  | 6 => .ref (shown.bind (fun s => p.trk.nameOf s.fromCode))
  | 7 => .ref (shown.bind (fun s => p.trk.nameOf s.toCode))
  | 8 => .ref (shown.bind Shown.text)
  | 9 => timeSource (next.bind (·.arrival))
  | 10 => timeSource (current.bind (·.departure))
  | _ => .codes []

/-- Characters from an offset; a memory error leaves out the rest of the string (R121). -/
def View.characters (v : View) : Nat → Nat → List Nat × Option MemFail
  | 0, _ => ([], none)
  | n + 1, a =>
    match v.byte a with
    | .error f => ([], some f)
    | .ok b => let rest := View.characters v n (a + 1); (b.toNat :: rest.1, rest.2)

/-- R109: the string of a reference in the pool of the copy at `a`; a memory error on the pool's offset leaves out the whole
string (log 83). -/
def View.poolString (v : View) (a poolLength : Nat) (r : Option Nat) : List Nat × Option MemFail :=
  match r with
  | none => ([], none)
  | some offset =>
    if poolLength ≤ offset then ([], none)
    else match v.u32 (a + 0x14) with
      | .error f => ([], some f)
      | .ok pool =>
        match v.u8 (a + pool + offset) with
        | .error f => ([], some f)
        | .ok n => if 48 < n ∨ poolLength < offset + 1 + n then ([], none) else v.characters n (a + pool + offset + 1)

/-- The character codes that a source draws. -/
def View.sourceCodes (v : View) (a poolLength : Nat) (s : TextSource) : List Nat × Option MemFail :=
  match s with
  | .ref r => v.poolString a poolLength r
  | .codes cs => (cs, none)

/-! ### Glyph records (R121) -/

/-- A character to be drawn: its advance, 0 if it was not read (R121), and its record or the memory error. -/
structure Char where
  code : Nat
  advance : Nat
  record : Except MemFail GlyphRecord

/-- The glyph record of a character in the copy at `a` (R109). Its bytes are read in rising order, so the advance, byte 2, is
not read where the width or the height meets a memory error, and counts as 0 (R121; log 78), nor where the offset of the
glyph table does (log 83). -/
def View.charRecord (v : View) (a code : Nat) : Char :=
  match v.u32 (a + 0x1C) with
  | .error f => { code := code, advance := 0, record := .error f }
  | .ok table =>
    match v.bytes (a + table + 8 * code) 3 with
    | .error f => { code := code, advance := 0, record := .error f }
    | .ok bs => { code := code, advance := (bs.getD 2 0).toNat % 64, record := v.glyph (a + table + 8 * code) }

/-- R109: the text width T. -/
def textWidth (cs : List Char) : Nat := (cs.map (·.advance)).sum

/-- The memory errors among characters, in order. -/
def charErrors : List Char → List MemFail
  | [] => []
  | c :: rest =>
    match c.record with
    | .error f => f :: charErrors rest
    | .ok _ => charErrors rest

/-- How a TEXT window lays its glyphs. -/
structure TextLay where
  zoomH : Nat
  zoomV : Nat
  ink : Nat
  win : Rect
  area : Rect
  deriving DecidableEq, Repr

/-- A glyph of a TEXT window to be decoded and laid. -/
def TextLay.job (t : TextLay) (code : Nat) (g : GlyphRecord) (pen : Int) : GlyphJob :=
  { glyph := code, width := g.width, height := g.height, offset := g.offset, length := g.length, pen := pen, top := 0
    zoomH := t.zoomH, zoomV := t.zoomV, ink := t.ink, win := t.win, area := t.area }

/-- R110: the glyphs of a string from a pen position. -/
def TextLay.jobs (t : TextLay) : Int → List Char → List GlyphJob
  | _, [] => []
  | pen, c :: rest =>
    match c.record with
    | .ok g => t.job c.code g pen :: TextLay.jobs t (pen + t.zoomH * c.advance) rest
    | .error _ => TextLay.jobs t (pen + t.zoomH * c.advance) rest

/-- R111: the marquee offset in whole pixels. -/
def marqueeOffset (number speed tw : Nat) : Nat := number * speed % (16 * (tw + 16)) / 16

/-- R110, R111: the pen positions at which the string is drawn. -/
def penStarts (centre marquee : Bool) (speed number tw ww : Nat) : List Int :=
  if ww < tw then
    if marquee then
      [-(marqueeOffset number speed tw : Int), -(marqueeOffset number speed tw : Int) + ((tw + 16 : Nat) : Int)]
    else [0]
  else if centre then [(((ww - tw) / 2 : Nat) : Int)] else [0]

/-! ### Windows (R108) -/

/-- R121: memory errors reported one after another. -/
def Part.composerErrors (p : Part) (fs : List MemFail) : Part := fs.foldl Part.composerError p

/-- R110 to R112: a TEXT window. Its whole string is read first and then the record of each character in string order, and
their memory errors are reported in that order; the text width is that of what was read (log 82). -/
def Part.drawText (p : Part) (bus : Bus) (c : Composition) (g : PageDraw) (pin : ContentPin) (poolLength : Nat)
    (r : Rect) (ink paper zoomH zoomV : Nat) (centre marquee : Bool) (speed field : Nat) (fixed : Option Nat) : Part :=
  let v := p.view bus
  let text := v.sourceCodes pin.address poolLength (p.fieldSource g.seat field fixed)
  let cs := text.1.map (v.charRecord pin.address)
  let tw := zoomH * textWidth cs
  let lay : TextLay := { zoomH := zoomH, zoomV := zoomV, ink := ink, win := r, area := g.area.rect }
  let c := c.flat g.area.rect r paper
  Part.composerErrors
    (p.setComp { c with
      glyphs := (penStarts centre marquee speed p.swp.number tw r.w).flatMap (fun x => lay.jobs x cs)
      overflowed := c.overflowed || (marquee && decide (r.w < tw)) })
    (text.2.toList ++ charErrors cs)

/-- R51: a BAR window. -/
def Part.drawBar (p : Part) (c : Composition) (area r : Rect) (ink paper border : Nat) : Part :=
  let b := barInner r.w r.h
  let lit := p.cmp.position.lit b
  let pixel (x y : Nat) : Nat :=
    if b = 0 ∨ x = 0 ∨ y = 0 ∨ x + 1 = r.w ∨ y + 1 = r.h then border else if x - 1 < lit then ink else paper
  let drawn := c.paint area r (fun x y _ => BitVec.ofNat 8 (pixel x y))
  p.setComp { drawn with bars := c.bars ++ [b] }

/-- R53: a source pixel of a strip; of a strip of height or width 0, row or column 0 (log 49). -/
def View.stripPixel (v : View) (copy : Nat) (s : StripHeader) (row col : Nat) : Except MemFail Nat :=
  match v.byte (copy + s.pixels + clampTo s.height row * s.width + clampTo s.width col) with
  | .error f => .error f
  | .ok b => .ok b.toNat

/-- R53, R54: an output pixel. -/
def View.stripOutput (v : View) (copy : Nat) (s : StripHeader) (u y0 fy i j : Nat) : Except MemFail Nat := do
  let ul ← v.stripPixel copy s (y0 + i) (u / 16 + j)
  let ur ← v.stripPixel copy s (y0 + i) (u / 16 + j + 1)
  let ll ← v.stripPixel copy s (y0 + i + 1) (u / 16 + j)
  let lr ← v.stripPixel copy s (y0 + i + 1) (u / 16 + j + 1)
  .ok (filterPixel ul ur ll lr (u % 16) fy)

/-- R53, R58: the window's pixels from index `i` on, in raster order, with what ended the filter. A pixel is stored as 8
bits (log 49). -/
def View.stripPixels (v : View) (copy : Nat) (s : StripHeader) (u y0 fy paper wp : Nat) :
    Nat → Nat → List Byte × Option MemFail
  | 0, _ => ([], none)
  | n + 1, i =>
    if s.width ≤ i % wp ∧ s.width ≤ wp then
      let rest := View.stripPixels v copy s u y0 fy paper wp n (i + 1)
      (BitVec.ofNat 8 paper :: rest.1, rest.2)
    else match v.stripOutput copy s u y0 fy (i / wp) (i % wp) with
      | .error f => ([], some f)
      | .ok q =>
        let rest := View.stripPixels v copy s u y0 fy paper wp n (i + 1)
        (BitVec.ofNat 8 q :: rest.1, rest.2)

/-- R55: the marker's glyph, laid over a window. -/
def markerJob (glyph : Nat) (g : GlyphRecord) (m u : Nat) (r area : Rect) : GlyphJob :=
  { glyph := glyph, width := g.width, height := g.height, offset := g.offset, length := g.length
    pen := markerLeft m u g.width, top := markerTop r.h g.height, zoomH := 1, zoomV := 1, ink := 255
    win := r, area := area }

/-- R55, R56, R58: the marker of a STRIP window. -/
def Part.addMarker (p : Part) (bus : Bus) (c : Composition) (pin : ContentPin) (glyph u : Nat) (shown : Bool)
    (r area : Rect) : Part :=
  match p.cmp.position.marker, shown with
  | some m, true =>
    match ((p.view bus).charRecord pin.address glyph).record with
    | .error f => (p.setComp c).composerError f
    | .ok g => p.setComp { c with glyphs := [markerJob glyph g m u r area] }
  | some _, false => p.setComp c
  | none, _ => p.setComp c

/-- R52 to R56: a STRIP window. One whose strip the copy does not hold, which no validated copy has, draws nothing
(log 49). -/
def Part.drawStrip (p : Part) (bus : Bus) (c : Composition) (g : PageDraw) (pin : ContentPin) (items : ContentItems)
    (r : Rect) (index y0 fy : Nat) (marker : Bool) : Part :=
  let c := { c with strip := true }
  match items.strips[index]? with
  | none => p.setComp c
  | some s =>
    let u := scrollOffset p.cmp.position.marker r.w s.width
    let drawn := (p.view bus).stripPixels pin.address s u y0 fy g.paper r.w (r.w * r.h) 0
    let c := c.paint g.area.rect r (fun x y _ => drawn.1.getD (y * r.w + x) (BitVec.ofNat 8 g.paper))
    (p.composerErrors drawn.2.toList).addMarker bus c pin items.markerGlyph u marker r g.area.rect

/-- R108: a window with pixels left after clipping is drawn, as far as it needs no glyph. A window of a kind that 11.4 does
not name, which no validated copy has, draws nothing (log 49). -/
def Part.drawOpenWindow (p : Part) (bus : Bus) (c : Composition) (g : PageDraw) (pin : ContentPin)
    (items : ContentItems) (r : Rect) (kind : WindowKind) : Part :=
  match kind with
  | .fill v => p.setComp (c.flat g.area.rect r v)
  | .bar ink paper border => p.drawBar c g.area.rect r ink paper border
  | .strip index y0 fy marker => p.drawStrip bus c g pin items r index y0 fy marker
  | .text ink paper zoomH zoomV centre marquee speed field fixed =>
    p.drawText bus c g pin items.poolLength r ink paper zoomH zoomV centre marquee speed field fixed
  | .other => p.setComp c

/-- The window is a STRIP window. -/
def WindowKind.isStrip : WindowKind → Bool
  | .strip _ _ _ _ => true
  | .text _ _ _ _ _ _ _ _ _ => false
  | .bar _ _ _ => false
  | .fill _ => false
  | .other => false

/-- R108: a window; one that is empty after clipping draws nothing, and the page still holds it (R113, log 33); no string
is placed in it, so none overflows (log 69). -/
def Part.drawWindow (p : Part) (bus : Bus) (c : Composition) (g : PageDraw) (pin : ContentPin) (items : ContentItems)
    (w : Window) : Part :=
  let r := g.clip w
  if r.w = 0 ∨ r.h = 0 then p.setComp { c with strip := c.strip || w.kind.isStrip }
  else p.drawOpenWindow bus c g pin items r w.kind

/-- R119, R121: the next window of the page begins. -/
def Part.beginWindow (p : Part) (bus : Bus) (c : Composition) (g : PageDraw) : Part :=
  match c.pin, c.items with
  | some pin, some items =>
    match (p.view bus).window (g.address + 8 + 16 * g.next) with
    | .error f => (p.setComp { c with page := some { g with next := g.windows } }).composerError f
    | .ok w => p.drawWindow bus { c with page := some { g with next := g.next + 1 } } g pin items w
  | _, _ => p.setComp { c with page := none }

/-- The page being drawn has a window left. -/
def Composition.openPage (c : Composition) : Option PageDraw :=
  match c.page with
  | none => none
  | some g => if g.next < g.windows then some g else none

/-- R119: the next element of the composition in flight begins: a window of the page, or the next area. -/
def Part.beginElement (p : Part) (bus : Bus) : Part :=
  match p.cmp.comp with
  | none => p
  | some c =>
    if c.glyphs ≠ [] then p
    else match c.openPage, c.areas with
      | some g, _ => (p.hostWrites bus).beginWindow bus c g
      | none, area :: rest => (p.hostWrites bus).beginArea bus { c with areas := rest, page := none } area
      | none, [] => p

/-! ### Glyphs (R110, R55, R134) -/

/-- R110: the glyph has ink at a pixel of its window. -/
def GlyphJob.inkAt (j : GlyphJob) (buffer : List Bool) (x y : Nat) : Bool :=
  let dx : Int := (x : Int) - j.pen
  if j.zoomH = 0 ∨ j.zoomV = 0 ∨ dx < 0 ∨ y < j.top then false
  else
    let col := dx.toNat / j.zoomH
    let row := (y - j.top) / j.zoomV
    if col < j.width ∧ row < j.height then buffer.getD (row * j.width + col) false else false

/-- R110, R55: a decoded glyph laid: its ink sets pixels of its window, its paper leaves them. -/
def Composition.lay (c : Composition) (j : GlyphJob) (buffer : List Bool) : Composition :=
  c.paint j.area j.win (fun x y b => if j.inkAt buffer x y then BitVec.ofNat 8 j.ink else b)

/-- The stream of a glyph in the pinned copy decoded (R127 to R131). A memory error on the offset of the glyph stream area
omits the glyph as R133 does, even where the stream needs no byte (log 83). A composition that decodes a glyph has read a
working copy (R118, R125). -/
def View.decodeJob (v : View) (d : Decoder) (a : Nat) (j : GlyphJob) : Decoder × Option StreamStop :=
  match v.u32 (a + 0x20), d.table with
  | .error f, _ => ({ d.start with buffer := [] }, some (.memory f))
  | .ok _, none => (d.start, none)
  | .ok area, some t => v.decodeGlyph d t (a + area + j.offset) j.length (j.width * j.height)

/-- R130 to R133: what the end of a glyph's decoding does. -/
def Part.glyphDecoded (p : Part) (c : Composition) (j : GlyphJob) (r : Decoder × Option StreamStop) : Part :=
  let p := { p with cmp := { p.cmp with decoder := r.1 } }
  match r.2 with
  | none => p.setComp (c.lay j r.1.buffer)
  | some (.fault f) => (p.setComp (c.lay j r.1.buffer)).contentFault j.glyph f
  | some (.memory f) => (p.setComp c).composerError f

/-- R134: the decoding of the next glyph ends. -/
def Part.endGlyph (p : Part) (bus : Bus) : Part :=
  match p.cmp.comp with
  | none => p
  | some c =>
    match c.glyphs, c.pin with
    | j :: rest, some pin =>
      let p := p.hostWrites bus
      p.glyphDecoded { c with glyphs := rest } j ((p.view bus).decodeJob p.cmp.decoder pin.address j)
    | _ :: rest, none => p.setComp { c with glyphs := rest }
    | [], _ => p

/-! ### Completion (R120) -/

/-- Nothing of the composition is left to draw. -/
def Composition.finished (c : Composition) : Bool :=
  c.glyphs.isEmpty && c.areas.isEmpty && decide (c.openPage = none)

/-- R120 steps 1 and 2: the slots after a completion. -/
def completedSlots (c : Composition) (slots : List Slot) : List Slot :=
  changeAt (fun _ => { state := .waiting c.line c.address, image := c.image }) c.slot
    (freeSlots (fun s => decide (s = .waiting c.line c.address)) slots)

/-- R113, R116: what the composer keeps of the image it made. -/
def keepDrawn (c : Composition) (q : PanelDraw) : PanelDraw :=
  if q.line = c.line ∧ q.address = c.address then { q with moving := c.overflowed, strip := c.strip, bars := c.bars }
  else q

/-- R120: the composition completes. -/
def Part.completeComposition (p : Part) : Part :=
  match p.cmp.comp with
  | none => p
  | some c =>
    if c.finished then
      let p := { p with cmp := { p.cmp with
        comp := none, slots := completedSlots c p.cmp.slots, panels := p.cmp.panels.map (keepDrawn c) } }
      match c.pin with
      | none => p
      | some pin => p.unpin .contentSet pin.copy
    else p

/-! ### Meanings -/

/-- COMPOSER_JOURNEY_EVENT (R47, R115). -/
def execComposerJourneyEvent (s : State) : Answer := s.onPart (·.composerJourney)

/-- PROGRESS_EVENT (R48). -/
def execProgressEvent (s : State) : Answer := s.onPart (·.composerProgress)

/-- SEAT_MODULE_MARK (R74, R114). -/
def execSeatModuleMark (s : State) : Answer := s.onPart (·.composerModule)

/-- SELECTION_MARK (R99, R115). -/
def execSelectionMark (s : State) : Answer := s.onPart (·.composerSelection)

/-- COMPOSER_SWEEP_MARK (R116). -/
def execComposerSweepMark (s : State) : Answer := s.onPart (·.composerBoundary)

/-- COMPOSER_PROFILE_LOAD (R115, R122). -/
def execComposerProfileLoad (s : State) : Answer := s.onPart (·.composerProfile)

/-- PANEL_ONLINE_MARK (R115). -/
def execPanelOnlineMark (s : State) : Answer := s.onPart (·.composerOnline)

/-- PANEL_OFFLINE (R122). -/
def execPanelOffline (s : State) : Answer := s.onPart (·.composerOffline)

/-- COMPOSITION_BEGIN (R117, R118). -/
def execCompositionBegin (bus : Bus) (s : State) : Answer := s.onPart (·.beginComposition bus)

/-- ELEMENT_BEGIN (R108, R110, R51 to R56, R119). -/
def execElementBegin (bus : Bus) (s : State) : Answer := s.onPart (·.beginElement bus)

/-- GLYPH_DECODE_END (R130 to R134). -/
def execGlyphDecodeEnd (bus : Bus) (s : State) : Answer := s.onPart (·.endGlyph bus)

/-- COMPOSITION_COMPLETE (R120). -/
def execCompositionComplete (s : State) : Answer := s.onPart (·.completeComposition)

end Sys2Proof.Machine
end

