-- ==== Sys2Proof/Machine/Placement.lean ====
section
/-! DEFINITION. The tracker's position requests (R36 to R38) and its stop-list loads (R22, R46). -/

namespace Sys2Proof.Machine

/-! ### Position requests -/

/-- R36: a coach placed at served stop j; then the present motion and door states are taken as if just reported
(log 10). -/
def Part.placeAtStop (p : Part) (j : Nat) : Part :=
  let p := (((p.dropMarks).setLeg 0).enter (.atStop j)).publish .place none
  let p := Part.judgeMotion { p with trk := { p.trk with motion := p.odo.motion, door := p.odo.door } }
  p.judgeDoor

/-- R37: the Leg Distance of a placement in a leg of L metres. -/
def placedMm (metres leg : Nat) : Nat := min (min metres leg * 1000) legDistanceMax

/-- R37: a coach placed in leg j; then the present motion state is taken as if just reported, ahead of the marks that
fired at the arming, which are the tracker's next events (R27, log 73). -/
def Part.placeInLeg (p : Part) (j metres : Nat) : Part :=
  let p := p.setLeg (placedMm metres (legAt p.trk.view j))
  let p := ((p.enter (p.runningOrApproaching j)).publish .place none).armForLeg j
  Part.judgeMotion { p with trk := { p.trk with motion := p.odo.motion } }

/-- R38: UNPLACE. -/
def Part.unplaceCoach (p : Part) : Part := (p.dropMarks.enter .unplaced).publish .unplace none

/-- R36: the answer to PLACE_AT_STOP, and what it does. -/
def Part.answerPlaceAtStop (p : Part) (code : Nat) : Part × PositionResult :=
  if p.trk.view.length < 2 then (p, .noStops)
  else match indexOfCode p.trk.view code with
    | none => (p, .notServed)
    | some j => (p.placeAtStop j, .done)

/-- R37: the answer to PLACE_IN_LEG, and what it does. -/
def Part.answerPlaceInLeg (p : Part) (code metres : Nat) : Part × PositionResult :=
  if p.trk.view.length < 2 then (p, .noStops)
  else match indexOfCode p.trk.view code with
    | none => (p, .notServed)
    | some j => if j + 1 = p.trk.view.length then (p, .lastStop) else (p.placeInLeg j metres, .done)

/-- R36 to R38: the answer to a position request. -/
def Part.answerPosition (p : Part) (r : PositionRequest) : Part × PositionResult :=
  match r.kind with
  | .placeAtStop => p.answerPlaceAtStop r.code
  | .placeInLeg => p.answerPlaceInLeg r.code r.metres
  | .unplace => (p.unplaceCoach, .done)

/-- R183: the tracker answers the position request handed to it, if it is of this kind, and the edition unit makes the
position write; while RUN is 0 the tracker answers it all the same, and the write is owed (log 71). -/
def Part.takePosition (p : Part) (kind : PositionKind) (bus : Bus) : Part :=
  match p.trk.request with
  | none => p
  | some r =>
    if r.kind = kind then
      let p := (p.hostWrites bus).lateWrites bus
      let done := Part.answerPosition { p with trk := { p.trk with request := none } } r
      done.1.positionWrite bus done.2
    else p

/-! ### Loads -/

/-- R22: the tracker starts a load of the live stop list. -/
def Part.startStopLoad (p : Part) : Part :=
  let begun := p.beginLoad .stopList p.trk.load
  { begun.1 with trk := { begun.1.trk with load := begun.2 } }

/-- R22: the tracker is told to load. -/
def Part.stopLoadTold (p : Part) : Part :=
  if p.trk.told = 0 then p else Part.startStopLoad { p with trk := { p.trk with told := p.trk.told - 1 } }

/-- R46: a sweep boundary at the tracker: an owed load starts. -/
def Part.trackerBoundary (p : Part) : Part :=
  if p.trk.boundaries = 0 then p
  else
    let p := { p with trk := { p.trk with boundaries := p.trk.boundaries - 1 } }
    if p.trk.load = .owed ∧ p.regs.run = true then p.startStopLoad else p

/-- R22: the completion of a load: the pin is dropped, the store replaced, the served view rebuilt and a remap made; a
fault abandons it and is reported. -/
def Part.completeStopLoad (p : Part) (bus : Bus) : Part :=
  match p.trk.load with
  | .loading copy address _ =>
    let p := p.hostWrites bus
    let read := (p.view bus).loadStops address
    let p := p.unpin .stopList copy
    let p := { p with trk := { p.trk with load := .idle } }
    match read with
    | .error f => p.memoryError .tracker f.address f.cause
    | .ok stops => Part.rebuildAndRemap { p with trk := { p.trk with stops := stops } }
  | .idle => p
  | .owed => p

/-! ### Meanings -/

/-- PLACE_AT_STOP (R36). -/
def execPlaceAtStop (bus : Bus) (s : State) : Answer := s.onPart (·.takePosition .placeAtStop bus)

/-- PLACE_IN_LEG (R37). -/
def execPlaceInLeg (bus : Bus) (s : State) : Answer := s.onPart (·.takePosition .placeInLeg bus)

/-- UNPLACE (R38). -/
def execUnplace (bus : Bus) (s : State) : Answer := s.onPart (·.takePosition .unplace bus)

/-- STOP_LIST_LOAD_START (R22). -/
def execStopListLoadStart (s : State) : Answer := s.onPart (·.stopLoadTold)

/-- STOP_LIST_LOAD_COMPLETE (R22, R39, R40). -/
def execStopListLoadComplete (bus : Bus) (s : State) : Answer := s.onPart (·.completeStopLoad bus)

/-- TRACKER_OWED_LOAD (R46). -/
def execTrackerOwedLoad (s : State) : Answer := s.onPart (·.trackerBoundary)

end Sys2Proof.Machine
end

