-- ==== Sys2Proof/Machine/Edition.lean ====
section
/-! DEFINITION. The edition unit (chapter 10): boundary operations, switches, the amendment list. -/

namespace Sys2Proof.Machine

/-! ### Owed writes (R188) -/

/-- R176: the re-read of a request before a completion's full write: the kinds to write back, after the report of a
bus error. -/
def Part.requestBack (p : Part) (bus : Bus) (k : Kind) (request : Nat) : Part × List Kind :=
  match (p.view bus).u8 (slotEntry k + 8) with
  | .error f => (p.memoryError .edition f.address f.cause, [])
  | .ok r => (p, if r = request then [k] else [])

/-- R176: the re-read of a request, and the full write of its completion. -/
def Part.completionWrite (p : Part) (bus : Bus) (k : Kind) (request : Nat) : Part :=
  let back := p.requestBack bus k request
  (back.1.lateWrites bus).fullWrite bus back.2

/-- R181: a result written into its slot; a bus error is reported and undoes nothing. -/
def Part.resultWrite (p : Part) (bus : Bus) (slot : Nat) (code : Nat) : Part :=
  match writeFields p.regs.windowBase bus p.mem [{ offset := slot + 16, size := 1, value := code }] with
  | (m, none) => { p with mem := m }
  | (m, some a) => Part.memoryError { p with mem := m } .edition a .bus

/-- The code of an amendment's result (11.3). -/
def AmendResult.code : AmendResult → Nat
  | .applied => 1
  | .replaced => 2
  | .stale => 3
  | .invalid => 4
  | .unknownSeat => 5
  | .refusedUnresolved => 6
  | .expired => 7
  | .refusedFull => 8
  | .notFound => 9

/-- R181: the take index advanced, and the take write. -/
def Part.advanceTake (p : Part) (bus : Bus) : Part :=
  Part.takeWrite { p with ed := { p.ed with take := (p.ed.take + 1) % 64 } } bus

/-- R181: the result write, then the take advance and take write. -/
def Part.takeRecord (p : Part) (bus : Bus) (slot : Nat) (r : AmendResult) : Part :=
  (p.resultWrite bus slot r.code).advanceTake bus

/-- R188: one owed write made. -/
def Part.makeOwed (bus : Bus) (p : Part) (w : OwedWrite) : Part :=
  match w with
  | .full k request => p.completionWrite bus k request
  | .amend slot r => p.takeRecord bus slot r
  | .position r => p.headWrite bus (positionFields r)

/-- R170 step 1: the owed writes made in the order in which they were owed. -/
def Part.makeAllOwed (p : Part) (bus : Bus) : Part :=
  p.ed.owed.foldl (Part.makeOwed bus) { p with ed := { p.ed with owed := [] } }

/-! ### The boundary operation (R170) -/

/-- A field of the head block as read at step 2. -/
def headField (head : List Byte) (offset n : Nat) : Nat := littleEndian ((head.drop offset).take n)

/-- The copy that a request value names. -/
def copyOfRequest (r : Nat) : Option Copy :=
  match r with
  | 1 => some .a
  | 2 => some .b
  | _ => none

/-- The slot entry's field that holds the address of a copy (11.2). -/
def copyAddressOffset (k : Kind) : Copy → Nat
  | .a => slotEntry k
  | .b => slotEntry k + 4

/-- R173: a switch starts: the copy's address captured, the validation pin taken. -/
def startSwitch (copy : Copy) (address request : Nat) (s : KindState) : KindState :=
  { (s.pin copy) with switch := some { copy := copy, address := address, request := request } }

/-- R173: a kind's request taken, with the kinds whose request step 4 writes back. -/
def Part.takeRequest (head : List Byte) (x : Part × List Kind) (k : Kind) : Part × List Kind :=
  let request := headField head (slotEntry k + 8) 1
  let s := x.1.ed.kind k
  if request = 0 ∨ s.switch.isSome = true then x
  else match copyOfRequest request with
    | none => ((x.1.changeKind k (fun s => { s with result := .range })).raise .switchRefused, x.2 ++ [k])
    | some copy =>
      if s.live = some copy then
        ((x.1.changeKind k (fun s => { s with result := .done })).raise .switchDone, x.2 ++ [k])
      else (x.1.changeKind k (startSwitch copy (headField head (copyAddressOffset k copy) 4) request), x.2)

/-- R170 steps 3 and 4. -/
def Part.takeRequests (p : Part) (bus : Bus) (head : List Byte) : Part :=
  let x := Kind.all.foldl (Part.takeRequest head) (p, [])
  (x.1.lateWrites bus).fullWrite bus x.2

/-- The position kind of a code (11.2). -/
def positionKindOf (n : Nat) : Option PositionKind :=
  match n with
  | 1 => some .placeAtStop
  | 2 => some .placeInLeg
  | 3 => some .unplace
  | _ => none

/-- R170 step 5, R183: the position request handed on, or answered INVALID. -/
def Part.handPosition (p : Part) (bus : Bus) (head : List Byte) : Part :=
  if headField head 0x90 1 = 0 then p
  else match positionKindOf (headField head 0x90 1) with
    | none => p.headWrite bus (positionFields .invalid)
    | some kind =>
      let r : PositionRequest := { kind := kind, code := headField head 0x92 2, metres := headField head 0x94 4 }
      { p with trk := { p.trk with request := some r } }

/-- The number of slots of the amendment list, and its size in bytes (10.6). -/
def amendmentListSize : Nat := 2048

/-- R180, R182: a delivery run starts, unless one is in flight; a run that was cut off counts as one until the engine has
answered its record (log 72). -/
def Part.startRun (p : Part) (list post : Nat) : Part :=
  match p.ed.run with
  | some _ => p
  | none =>
    if post = p.ed.take then p
    else p.setRun (some { post := post, count := 0, list := list, stage := .reading, cut := false })

/-- R170 step 6, R180: the amendment list descriptor examined; the first case that holds applies alone (log 62). -/
def Part.examineList (p : Part) (head : List Byte) : Part :=
  let list := headField head 0x88 4
  let post := headField head 0x8D 1
  if list % 16 ≠ 0 ∨ windowSize < list + amendmentListSize then p.memoryError .edition list .window
  else if 64 ≤ post then p.memoryError .edition 0x8D .amendIndex
  else p.startRun list post

/-- R170: steps 2 to 6. -/
def Part.readHead (p : Part) (bus : Bus) : Part :=
  match (p.view bus).bytes 0 256 with
  | .error f => p.memoryError .edition f.address f.cause
  | .ok head =>
    if headField head 0 4 ≠ signature then p.memoryError .edition 0 .signature
    else ((p.takeRequests bus head).handPosition bus head).examineList head

/-- R170: a boundary operation may begin: a boundary waits, RUN is 1, and no position request of the operation before
waits for its write. -/
def Part.operationDue (p : Part) : Bool := p.ed.boundary && p.regs.run && p.trk.request.isNone

/-- R170: a boundary operation. -/
def Part.boundaryOperation (p : Part) (bus : Bus) : Part :=
  if p.operationDue then
    let p := Part.hostWrites { p with ed := { p.ed with boundary := false } } bus
    (p.makeAllOwed { bus with late := [] }).readHead bus
  else p

/-! ### Switch completions (R174 to R176) -/

/-- R174: the validation of a kind's switch in flight, as memory stands (log 13), against the edition floor as the load state
and the store edition stand at this step (R63, R64; log 74). -/
def Part.validation (p : Part) (k : Kind) (w : Switch) (bus : Bus) : Except Reject Validated :=
  (p.view bus).validate k p.res.floor w.address

/-- R175 step 3: a coach profile handed to every block. -/
def Part.handProfile (p : Part) (f : Profile) : Part :=
  { p with
    odo := { p.odo with profiles := p.odo.profiles ++ [f] }
    trk := { p.trk with profiles := p.trk.profiles ++ [f] }
    res := { p.res with profiles := p.res.profiles ++ [f] }
    ntc := { p.ntc with profiles := p.ntc.profiles ++ [f] }
    cmp := { p.cmp with profiles := p.cmp.profiles ++ [f] }
    lineSeat := { p.lineSeat with profiles := p.lineSeat.profiles ++ [f] }
    lineEnd := { p.lineEnd with profiles := p.lineEnd.profiles ++ [f] }
    lineDoor := { p.lineDoor with profiles := p.lineDoor.profiles ++ [f] }
    swp := { p.swp with profiles := p.swp.profiles ++ [f] } }

/-- R175 step 3: the loading block of the kind is told. -/
def Part.tellLoader (p : Part) (k : Kind) (f : Option Profile) : Part :=
  match k, f with
  | .coachProfile, some f => p.handProfile f
  | .coachProfile, none => p
  | .stopList, _ => { p with trk := { p.trk with told := p.trk.told + 1 } }
  | .reservationTable, _ => { p with res := { p.res with told := p.res.told + 1 } }
  | .noticeTable, _ => { p with ntc := { p.ntc with told := p.ntc.told + 1 } }
  | .contentSet, _ => p.contentSwitched

/-- R175 steps 1 and 2: the validated copy becomes live, and the validation pin is dropped. -/
def KindState.goLive (s : KindState) (w : Switch) (edition : Nat) : KindState :=
  { (s.unpin w.copy) with live := some w.copy, liveAddress := some w.address, liveEdition := edition, switch := none
                          result := .done }

/-- R174: a refused switch: the pin is dropped, the result is the cause. -/
def KindState.refuse (s : KindState) (w : Switch) (r : Result) : KindState :=
  { (s.unpin w.copy) with switch := none, result := r }

/-- The full write of a completion, made now or owed where it has not had its turn (log 15). -/
def Part.finishSwitch (p : Part) (bus : Bus) (k : Kind) (w : Switch) : Part :=
  if bus.wait then p.owe (.full k w.request) else p.completionWrite bus k w.request

/-- R175: a completion after validation has passed. -/
def Part.passSwitch (p : Part) (k : Kind) (w : Switch) (v : Validated) (bus : Bus) : Part :=
  let p := (p.changeKind k (fun s => s.goLive w v.header.edition)).tellLoader k v.profile
  (p.raise .switchDone).finishSwitch bus k w

/-- R174, R169: the result of a refusal, after the report of a memory error. -/
def Part.reportReject (p : Part) (e : Reject) : Part × Result :=
  match e with
  | .memory f => (p.memoryError .edition f.address f.cause, .memory)
  | .result r => (p, r)

/-- R174: a refused completion. -/
def Part.refuseSwitch (p : Part) (k : Kind) (w : Switch) (e : Reject) (bus : Bus) : Part :=
  let x := p.reportReject e
  ((x.1.changeKind k (fun s => s.refuse w x.2)).raise .switchRefused).finishSwitch bus k w

/-- SWITCH_COMPLETION: a kind's switch in flight ends, where its validation passes. -/
def Part.completeSwitch (p : Part) (k : Kind) (bus : Bus) : Part :=
  match (p.ed.kind k).switch with
  | none => p
  | some w =>
    match (p.hostWrites bus).validation k w bus with
    | .ok v => (p.hostWrites bus).passSwitch k w v bus
    | .error _ => p

/-- SWITCH_REFUSAL: a kind's switch in flight ends, where its validation fails. -/
def Part.failSwitch (p : Part) (k : Kind) (bus : Bus) : Part :=
  match (p.ed.kind k).switch with
  | none => p
  | some w =>
    match (p.hostWrites bus).validation k w bus with
    | .ok _ => p
    | .error e => (p.hostWrites bus).refuseSwitch k w e bus

/-! ### Delivery runs (R181, R182) -/

/-- An amendment record as its 32 bytes give it (11.3). -/
def amendmentOf (bs : List Byte) : Amendment :=
  { edition := headField bs 0 4, seat := headField bs 4 2, action := headField bs 6 1, kind := headField bs 7 1
    fromCode := headField bs 8 2, toCode := headField bs 10 2, label := optional16 (headField bs 12 2)
    note := optional16 (headField bs 14 2) }

/-- R181 steps 1 and 2: the slot at the take index read and handed on; a bus error ends the run. -/
def Part.readSlot (p : Part) (bus : Bus) (run : DeliveryRun) : Part :=
  match (p.view bus).bytes (takeSlot run.list p.ed.take) 32 with
  | .error f => (p.setRun none).memoryError .edition f.address f.cause
  | .ok bs => p.setRun (some { run with stage := .handed (amendmentOf bs) })

/-- R181: the run after a record has been taken: it ends, or reads the next slot. -/
def Part.continueRun (p : Part) (bus : Bus) (run : DeliveryRun) : Part :=
  if p.ed.take = run.post ∨ 16 ≤ run.count then p.setRun none else p.readSlot bus run

/-- R181: the delivery run's next access: the writes of the record answered, and the read of the next slot. -/
def Part.runDelivery (p : Part) (bus : Bus) : Part :=
  if p.regs.run then
    match p.ed.run with
    | none => p
    | some run =>
      match run.stage with
      | .reading => (p.hostWrites bus).readSlot bus run
      | .handed _ => p
      | .answered r =>
        ((p.hostWrites bus).takeRecord bus (takeSlot run.list p.ed.take) r).continueRun bus
          { run with count := run.count + 1, stage := .reading }
  else p

/-! ### RUN (R187) -/

/-- R187: a kind's switch in flight abandoned. -/
def KindState.abandon (s : KindState) : KindState :=
  match s.switch with
  | none => s
  | some w => { (s.unpin w.copy) with switch := none }

/-- R187: every switch in flight abandoned, and no more boundary operations. -/
def Edition.abandonSwitches (e : Edition) : Edition :=
  { e with profile := e.profile.abandon, stops := e.stops.abandon, reservations := e.reservations.abandon
           notices := e.notices.abandon, content := e.content.abandon, boundary := false }

/-- R187, R188: the delivery run cut off: a record not handed on stays, one being judged is owed when answered
(log 72), one answered is owed. -/
def Part.cutRun (p : Part) : Part :=
  match p.ed.run with
  | none => p
  | some run =>
    match run.stage with
    | .reading => p.setRun none
    | .handed _ => p.setRun (some { run with cut := true })
    | .answered r => (p.setRun none).owe (.amend (takeSlot run.list p.ed.take) r)

/-! ### Meanings -/

/-- BOUNDARY_OPERATION (R170). -/
def execBoundaryOperation (bus : Bus) (s : State) : Answer := s.onPart (·.boundaryOperation bus)

/-- SWITCH_COMPLETION (R175). -/
def execSwitchCompletion (kind : Kind) (bus : Bus) (s : State) : Answer := s.onPart (·.completeSwitch kind bus)

/-- SWITCH_REFUSAL (R174). -/
def execSwitchRefusal (kind : Kind) (bus : Bus) (s : State) : Answer := s.onPart (·.failSwitch kind bus)

/-- AMENDMENT_SLOT_READ (R181). -/
def execAmendmentSlotRead (bus : Bus) (s : State) : Answer := s.onPart (·.runDelivery bus)

end Sys2Proof.Machine
end

