-- ==== Sys2Proof/Machine/Lines.lean ====
section
/-! DEFINITION. The panel line controllers (chapter 8): frames, exchanges, health, rounds, brightness. -/

namespace Sys2Proof.Machine

/-! ### Characters and frames (R135, R136) -/

/-- The parity bit of a data byte: it makes the count of ones even (R135). -/
def evenParity (b : Byte) : Bool :=
  ((List.range 8).map (fun i => b.toNat.testBit i)).foldl xor false

/-- R135: the 11 bits of a character, in the order sent. -/
def characterBits (b : Byte) : List Bool :=
  [false] ++ (List.range 8).map (fun i => b.toNat.testBit i) ++ [evenParity b, true]

/-- R135: the character has neither a parity nor a framing error. -/
def RxChar.good (c : RxChar) : Bool := decide (c.parity = evenParity c.data) && c.stop

/-- R136: one bit into the CRC register. -/
def crcBit (r : Half16) (bit : Bool) : Half16 := if xor r.msb bit then (r <<< 1) ^^^ 0x1021#16 else r <<< 1

/-- R136: one byte into the CRC register, most significant bit first. -/
def crcByte (r : Half16) (b : Byte) : Half16 :=
  [7, 6, 5, 4, 3, 2, 1, 0].foldl (fun r i => crcBit r (b.toNat.testBit i)) r

/-- R136: the CRC of bytes. -/
def crc16 (bs : List Byte) : Half16 := bs.foldl crcByte 0xFFFF#16

/-- R136: a frame. -/
def frameOf (address kind : Nat) (payload : List Byte) : List Byte :=
  let body := [BitVec.ofNat 8 address, BitVec.ofNat 8 kind] ++ toBytes 2 payload.length ++ payload
  body ++ toBytes 2 (crc16 body).toNat

/-- The code of a request frame's kind (11.6). -/
def loadCode : Nat := 0x01

/-- The code of SHOW (11.6). -/
def showCode : Nat := 0x02

/-- The code of QUERY (11.6). -/
def queryCode : Nat := 0x03

/-- The code of REPLY (11.6). -/
def replyCode : Nat := 0x81

/-- The size code of a line's panels (11.6). -/
def sizeCode : Line → Nat
  | .seat => 1
  | .end_ => 2
  | .door => 3

/-- The us that a number of characters take at a rate, rounded up (R136; log 24). -/
def sendingTime (rate chars : Nat) : Nat :=
  match rate with
  | 0 => 22 * chars
  | 1 => 11 * chars
  | 2 => (11 * chars + 1) / 2
  | _ => (11 * chars + 3) / 4

/-- The quarters of a us that a bit takes at a rate (R135). -/
def bitQuarters (rate : Nat) : Nat :=
  match rate with
  | 0 => 8
  | 1 => 4
  | 2 => 2
  | _ => 1

/-- The us value at which the sending of characters has ended (log 24). -/
def Sending.ending (x : Sending) : Word := x.start + BitVec.ofNat 32 (sendingTime x.rate x.bytes.length)

/-- The characters whose sending has begun by a us value (log 24). -/
def Sending.begun (x : Sending) (us : Word) : Nat := 4 * (us - x.start).toNat / (11 * bitQuarters x.rate) + 1

/-- R135: the level of TXD a number of quarters of a us after the first start bit: the bits of the characters in turn, and
1 once they are sent. -/
def Sending.level (x : Sending) (quarters : Nat) : Bool :=
  (x.bytes.flatMap characterBits).getD (quarters / bitQuarters x.rate) true

/-- What an exchange sends while its frame is being sent (R138). -/
def Exchange.sending (x : Exchange) : Option Sending :=
  if x.awaiting then none
  else some { bytes := x.frame, rate := x.rate, start := x.due - BitVec.ofNat 32 (sendingTime x.rate x.frame.length) }

/-- What a line sends: the frame of its exchange, or the rest of the character that a cut-off exchange had in hand. -/
def LineCtl.sending (c : LineCtl) : Option Sending :=
  match c.exchange with
  | some x => x.sending
  | none => c.tail

/-- R135: the level of TXD a number of quarters of a us after a us value; it rests at 1. -/
def LineCtl.txd (c : LineCtl) (us : Word) (quarter : Nat) : Bool :=
  match c.sending with
  | none => true
  | some x => x.level (4 * (us - x.start).toNat + quarter)

/-- R138: the character in hand of a cut-off exchange is still being sent. -/
def LineCtl.tailSends (c : LineCtl) (us : Word) : Bool :=
  match c.tail with
  | none => false
  | some x => !reached us x.ending

/-- R135, R138: DIR is at transmit while a frame, or the character in hand of a cut-off exchange, is being sent. -/
def LineCtl.transmitting (c : LineCtl) (us : Word) : Bool :=
  match c.exchange with
  | some x => !x.awaiting
  | none => c.tailSends us

/-- The reply window and the quiet time: 2 ms (R138). -/
def lineWait : Word := 2000#32

/-! ### Outcomes (R139) -/

/-- Failures of an exchange (R139). -/
inductive Failure where
  | noReply | char | length | check | address
  deriving DecidableEq, Repr

/-- Outcomes of an addressed exchange (R139). -/
inductive ExchangeOutcome where
  | good (light : Nat)
  | notReady (light : Nat)
  | failure (f : Failure)
  deriving DecidableEq, Repr

/-- The value of byte i of a reply. -/
def replyByte (cs : List RxChar) (i : Nat) : Nat := ((cs[i]?).map (fun c => c.data.toNat)).getD 0

/-- R139, rows 6 to 9: a reply whose frame is sound. -/
def statusOutcome (l : Line) (cs : List RxChar) : ExchangeOutcome :=
  if replyByte cs 1 ≠ replyCode ∨ 2 < replyByte cs 4 ∨ replyByte cs 6 ≠ sizeCode l then .failure .length
  else if replyByte cs 4 = 1 then .failure .check
  else if replyByte cs 4 = 2 then .notReady (replyByte cs 5)
  else .good (replyByte cs 5)

/-- R139: the outcome of an exchange with a panel, from the characters received. -/
def outcomeOf (l : Line) (address : Nat) (cs : List RxChar) : ExchangeOutcome :=
  if cs.isEmpty then .failure .noReply
  else if cs.any (fun c => !RxChar.good c) then .failure .char
  else if cs.length ≠ 9 ∨ replyByte cs 2 + 256 * replyByte cs 3 ≠ 3 then .failure .length
  else if (crc16 ((cs.take 7).map (·.data))).toNat ≠ replyByte cs 7 + 256 * replyByte cs 8 then .failure .check
  else if replyByte cs 0 ≠ address then .failure .address
  else statusOutcome l cs

/-! ### Panel records (R140, R143) -/

/-- A counter of R140 after one more failure. -/
def countUp (n : Nat) : Nat := min (n + 1) 65535

/-- R140: the counters after a failure; a NO_REPLY of an ABSENT panel is not counted. -/
def Counters.count (c : Counters) (f : Failure) (h : Health) : Counters :=
  match f with
  | .noReply => if h = .absent then c else { c with noReply := countUp c.noReply }
  | .char => { c with char := countUp c.char }
  | .length => { c with length := countUp c.length }
  | .check => { c with check := countUp c.check }
  | .address => { c with address := countUp c.address }

/-- A record entering OFFLINE (R143, R144). -/
def Panel.goOffline (q : Panel) : Panel :=
  { q with health := .offline, probe := 32, owed := false, light := none }

/-- R143: GOOD. -/
def Panel.afterGood (q : Panel) : Panel :=
  match q.health with
  | .absent => { q with health := .joining, goodRun := 0 }
  | .joining =>
    if 3 ≤ q.goodRun + 1 then { q with health := .online, goodRun := q.goodRun + 1, failRun := 0 }
    else { q with goodRun := q.goodRun + 1 }
  | .online => q
  | .failing => { q with health := .online, failRun := 0 }
  | .offline => { q with health := .joining, goodRun := 0 }

/-- R143: NOT_READY. -/
def Panel.afterNotReady (q : Panel) : Panel :=
  match q.health with
  | .absent => { q with health := .joining, goodRun := 0 }
  | .joining => q
  | .online => q
  | .failing => q
  | .offline => q

/-- R143: a failure. -/
def Panel.afterFailure (q : Panel) : Panel :=
  match q.health with
  | .absent => q
  | .joining => q.goOffline
  | .online => { q with health := .failing, failRun := 1 }
  | .failing => if 4 ≤ q.failRun + 1 then Panel.goOffline { q with failRun := q.failRun + 1 }
                else { q with failRun := q.failRun + 1 }
  | .offline => q

/-- R147: the count that makes a QUERY due has come to its end: the idle count of an ONLINE panel at 16, the probe
countdown of an ABSENT or OFFLINE panel at 0. -/
def Panel.countedOut (q : Panel) : Bool :=
  match q.health with
  | .online => decide (q.idle = 16)
  | .absent => decide (q.probe = 0)
  | .offline => decide (q.probe = 0)
  | .joining => false
  | .failing => false

/-- R147: whether a QUERY is due, judged by the counts as they stand (log 20). -/
def Panel.judgeQuery (q : Panel) : Panel := { q with queryDue := q.countedOut }

/-- R139, R140, R143: what an outcome makes of a record whose counts it has not touched. -/
def Panel.moved (q : Panel) : ExchangeOutcome → Panel
  | .good light => Panel.afterGood { q with light := some light }
  | .notReady light => Panel.afterNotReady { q with light := some light }
  | .failure f => Panel.afterFailure { q with counters := q.counters.count f q.health }

/-- R139, R140, R143: a record after an outcome; every addressed exchange sets the idle count to 0, and a probe countdown
that has reached 0 meanwhile makes the next probe due (R147). -/
def Panel.after (q : Panel) (o : ExchangeOutcome) : Panel := (Panel.moved { q with idle := 0 } o).judgeQuery

/-- R144: health whose coming or going raises PANEL. -/
def Health.marked : Health → Bool
  | .online => true
  | .offline => true
  | .absent => false
  | .joining => false
  | .failing => false

/-- R144: what the composer is told of a change. -/
def panelEventOf (l : Line) (a : Nat) (before after : Health) : List PanelEvent :=
  if before = after then []
  else match after with
    | .online => [.online l a]
    | .offline => [.offline l a]
    | .absent => []
    | .joining => []
    | .failing => []

/-! ### Groups and rounds (R149 to R152) -/

/-- The configuration of a group. -/
def LineConfig.group (c : LineConfig) (g : Nat) : GroupConfig := c.groups.getD g { grouped := false, hold := 0 }

/-- The group is GROUPED on this line. -/
def LineCtl.isGrouped (c : LineCtl) (g : Nat) : Bool :=
  match c.config with
  | none => false
  | some f => (f.group g).grouped

/-- The hold limit of a group. -/
def LineCtl.hold (c : LineCtl) (g : Nat) : Nat :=
  match c.config with
  | none => 0
  | some f => (f.group g).hold

/-- R151: every member that remains is staged. -/
def Round.full (r : Round) : Bool := r.members.all (·.staged)

/-- R151: a round's SHOW may be sent: every member that remains is staged, with at least one of them, or the round has
been open for the hold limit. -/
def Round.ready (r : Round) (hold : Nat) : Bool := (!r.members.isEmpty && r.full) || decide (hold ≤ r.age)

/-- R151: a SHOW becomes due when every member that remains is staged; a round of no members closes at once. -/
def Group.judgeRound (x : Group) : Group :=
  match x.round with
  | none => x
  | some r =>
    if r.members.isEmpty then { x with round := none, showDue := false }
    else if r.full then { x with showDue := true }
    else x

/-- R150: a member is staged. -/
def Group.stage (x : Group) (a : Nat) : Group :=
  match x.round with
  | none => x
  | some r =>
    Group.judgeRound
      { x with round := some { r with members := r.members.map (fun m =>
          if m.address = a then { m with staged := true } else m) } }

/-- R152: a member leaves an open round. -/
def Group.leave (x : Group) (a : Nat) : Group :=
  match x.round with
  | none => x
  | some r =>
    Group.judgeRound { x with round := some { r with members := r.members.filter (fun m => m.address != a) } }

/-- R149: an open round whose age has reached the hold limit has its SHOW made due. -/
def Group.judgeHold (x : Group) (hold : Nat) : Group :=
  match x.round with
  | none => x
  | some r => if hold ≤ r.age then { x with showDue := true } else x

/-- R152: an open round judged by the members and the hold limit that a load leaves it; R151's law withdraws a due SHOW
where the load raises the limit above the age (log 51). -/
def Group.rejudge (x : Group) (hold : Nat) : Group :=
  match x.round with
  | none => x
  | some r =>
    if r.members.isEmpty then { x with round := none, showDue := false } else { x with showDue := r.ready hold }

/-- R151: the group's SHOW is due, and the staging and the hold expiry judged now allow it. -/
def Group.sendable (x : Group) (hold : Nat) : Bool :=
  match x.round with
  | none => false
  | some r => x.showDue && r.ready hold

/-- R149: an open round is a sweep older; its age, a number of 0 to 15 (R141), stays at 15 while its due SHOW waits
(log 61). -/
def Group.grow (x : Group) : Group :=
  match x.round with
  | none => x
  | some r => { x with round := some { r with age := min (r.age + 1) 15 } }

/-- R149: a panel of the line has work. -/
def Part.panelWork (p : Part) (l : Line) (q : Panel) : Bool :=
  (p.cmp.refresh l).contains q.address || p.cmp.slots.any (fun s => decide (s.state.panel = some (l, q.address)))
    || q.owed

/-- R149: the members of a round that would open now. -/
def Part.roundMembers (p : Part) (l : Line) (g : Nat) : List Member :=
  (((p.line l).panels.filter (fun q => q.group == g)).filter (p.panelWork l)).map
    (fun q => { address := q.address, staged := q.owed })

/-- R149: a round opens where the group has work. -/
def Group.openWith (x : Group) (members : List Member) : Group :=
  match x.round with
  | some _ => x
  | none => if members.isEmpty then x else Group.judgeRound { x with round := some { members := members, age := 0 } }

/-- The groups with each changed by its number. -/
def mapGroups (f : Nat → Group → Group) : Nat → List Group → List Group
  | _, [] => []
  | g, x :: xs => f g x :: mapGroups f (g + 1) xs

/-- R147: the counts of a panel at a sweep boundary, and whether its QUERY becomes due. -/
def Panel.sweep (q : Panel) : Panel :=
  match q.health with
  | .online => Panel.judgeQuery { q with idle := min (q.idle + 1) 16 }
  | .absent => Panel.judgeQuery { q with probe := q.probe - 1 }
  | .offline => Panel.judgeQuery { q with probe := q.probe - 1 }
  | .joining => q
  | .failing => q

/-- R149, R147: a sweep boundary at a line controller. -/
def Part.lineBoundary (p : Part) (l : Line) : Part :=
  let c := p.line l
  if c.boundaries = 0 then p
  else
    let aged := mapGroups (fun g x => x.grow.judgeHold (c.hold g)) 0 c.groups
    let p := p.setLine l { c with boundaries := c.boundaries - 1, groups := aged, panels := c.panels.map Panel.sweep }
    let opened := mapGroups
      (fun g x => if c.isGrouped g then x.openWith (p.roundMembers l g) else x) 0 (p.line l).groups
    p.setLine l { (p.line l) with groups := opened }

/-- R149: HOLD_LIMIT_REACHED for one group. -/
def Part.holdReached (p : Part) (l : Line) (g : Nat) : Part :=
  p.setLine l ((p.line l).changeGroup g (fun x => x.judgeHold ((p.line l).hold g)))

/-- R147: a QUERY becomes due for an ONLINE panel whose idle count is 16. -/
def Panel.idleFull (q : Panel) : Panel :=
  if q.health = .online ∧ q.idle = 16 then { q with queryDue := true } else q

/-- R147: a QUERY becomes due for an ABSENT or OFFLINE panel whose probe countdown is 0. -/
def Panel.probeEnd (q : Panel) : Panel :=
  if (q.health = .absent ∨ q.health = .offline) ∧ q.probe = 0 then { q with queryDue := true } else q

/-! ### Brightness (R153) -/

/-- The greater of two readings, one of which may be absent. -/
def brighter (x : Option Nat) (y : Option Nat) : Option Nat :=
  match x, y with
  | none, y => y
  | some n, none => some n
  | some n, some m => some (max n m)

/-- R153: the reading of a SHOW decision. -/
def LineCtl.reading (c : LineCtl) (g : Nat) : Option Nat :=
  ((c.panels.filter (fun q => q.group == g && decide (q.health = .online))).map (·.light)).foldl brighter none

/-- R153: the computed step of a reading. -/
def lightStep (thresholds : List Nat) (reading : Nat) : Nat :=
  (thresholds.filter (fun t => decide (t ≤ reading))).length

/-- R153: the group's steps after a SHOW decision. -/
def Group.takeStep (x : Group) (step : Option Nat) : Group :=
  match step with
  | none => { x with candStep := none }
  | some s =>
    match x.sentStep with
    | none => { x with sentStep := some s, candStep := none }
    | some sent =>
      if s = sent then { x with candStep := none }
      else if x.candStep = some s then { x with sentStep := some s, candStep := none }
      else { x with candStep := some s }

/-- R153: the SHOW decision of a group, and the level it gives. -/
def LineCtl.showDecision (c : LineCtl) (f : LineConfig) (g : Nat) : LineCtl × Nat :=
  let c := c.changeGroup g (fun x => x.takeStep ((c.reading g).map (lightStep f.thresholds)))
  (c, f.levels.getD ((c.group g).sentStep.getD 8) 0)

/-! ### The line arbiter (R145 to R147) -/

/-- The work that the arbiter can choose (R145). -/
inductive Work where
  | broadcast (g : Nat)
  | load (a slot : Nat)
  | showOne (a : Nat)
  | query (a : Nat)
  deriving DecidableEq, Repr

/-- The panels that the test holds of, by ascending address. -/
def LineCtl.rising (c : LineCtl) (test : Panel → Bool) : List Nat :=
  sortBy (fun x y => decide (x < y)) ((c.panels.filter test).map (·.address))

/-- R150: the panel is a member of its group's open round that is not yet staged. -/
def LineCtl.awaitsLoad (c : LineCtl) (q : Panel) : Bool :=
  match (c.group q.group).round with
  | none => false
  | some r => r.members.any (fun m => m.address == q.address && !m.staged)

/-- R146: a WAITING slot of the panel is eligible. -/
def Part.loadable (p : Part) (l : Line) (q : Panel) : Bool :=
  q.health.drawn && p.cmp.holds (.waiting l q.address) && !p.cmp.holds (.rendering l q.address)
    && (!(p.line l).isGrouped q.group || (p.line l).awaitsLoad q)

/-- R145: an addressed SHOW is due to the panel. -/
def LineCtl.showable (c : LineCtl) (q : Panel) : Bool := q.health.drawn && q.owed && !c.isGrouped q.group

/-- R147: a QUERY is due for the panel: at every choice, or by its counts as last judged (`Panel.judgeQuery`). -/
def Panel.askable (q : Panel) : Bool :=
  match q.health with
  | .joining => true
  | .failing => true
  | .online => q.queryDue
  | .absent => q.queryDue
  | .offline => q.queryDue

/-- R145, R151: the lowest group whose broadcast SHOW is due and may be sent. -/
def LineCtl.dueGroup (c : LineCtl) : Option Nat :=
  (List.range 4).find? (fun g => c.isGrouped g && (c.group g).sendable (c.hold g))

/-- The slot that holds a panel's WAITING image. -/
def Composer.waitingSlot (k : Composer) (l : Line) (a : Nat) : Option Nat :=
  findIndex (fun s => decide (s.state = .waiting l a)) k.slots

/-- R145: the line may begin an exchange. -/
def Part.lineFree (p : Part) (l : Line) : Bool :=
  (p.line l).exchange.isNone && (p.line l).config.isSome && p.regs.run && (p.line l).quiet.isNone

/-- R145: the first kind of work that is present. -/
def Part.firstWork (p : Part) (l : Line) : Option Work :=
  let c := p.line l
  match c.dueGroup with
  | some g => some (.broadcast g)
  | none =>
    match roundRobin c.loadPtr (c.rising (p.loadable l)) with
    | some a => (p.cmp.waitingSlot l a).map (.load a)
    | none =>
      match roundRobin c.showPtr (c.rising c.showable) with
      | some a => some (.showOne a)
      | none => (roundRobin c.queryPtr (c.rising Panel.askable)).map .query

/-- R145: the work chosen now, if any. -/
def Part.chooseWork (p : Part) (l : Line) : Option Work := if p.lineFree l then p.firstWork l else none

/-- The group of the panel at an address. -/
def LineCtl.groupOf (c : LineCtl) (a : Nat) : Nat := ((c.panel a).map (·.group)).getD 0

/-- An exchange begun: its frame's sending ends after its characters (log 24). -/
def Part.startExchange (p : Part) (l : Line) (kind : ExchangeKind) (address group : Nat) (frame : List Byte) : Part :=
  let c := p.line l
  let rate := (c.config.map (·.rate)).getD 0
  let x : Exchange := { kind := kind, address := address, group := group, frame := frame, rate := rate, awaiting := false
                        due := p.swp.us + BitVec.ofNat 32 (sendingTime rate frame.length) }
  p.setLine l { c with exchange := some x }

/-- R146: a LOAD begins. -/
def Part.startLoad (p : Part) (l : Line) (a slot : Nat) : Part :=
  let g := (p.line l).groupOf a
  let image := ((p.cmp.slots[slot]?).map (·.image)).getD []
  let p := p.setLine l { (p.line l) with loadPtr := a }
  let p := { p with cmp := { p.cmp with slots := changeAt (fun s => { s with state := .loading l a }) slot p.cmp.slots } }
  p.startExchange l (.load slot) a g (frameOf a loadCode (BitVec.ofNat 8 g :: image))

/-- R148, R153: an addressed SHOW begins. -/
def Part.startShow (p : Part) (l : Line) (a : Nat) : Part :=
  match (p.line l).config with
  | none => p
  | some f =>
    let g := (p.line l).groupOf a
    let d := LineCtl.showDecision { (p.line l) with showPtr := a } f g
    (p.setLine l d.1).startExchange l .showOne a g (frameOf a showCode [BitVec.ofNat 8 g, BitVec.ofNat 8 d.2])

/-- R151, R153: a broadcast SHOW begins; whether the round is full is judged now. -/
def Part.startBroadcast (p : Part) (l : Line) (g : Nat) : Part :=
  match (p.line l).config with
  | none => p
  | some f =>
    let d := (p.line l).showDecision f g
    let full := (((p.line l).group g).round.map Round.full).getD false
    (p.setLine l d.1).startExchange l (.broadcast full) 0 g
      (frameOf 0 showCode [BitVec.ofNat 8 g, BitVec.ofNat 8 d.2])

/-- R147: the probe countdown when a probe begins. -/
def Panel.probed (q : Panel) : Panel :=
  match q.health with
  | .absent => Panel.judgeQuery { q with probe := 32 }
  | .offline => Panel.judgeQuery { q with probe := 32 }
  | .joining => q
  | .online => q
  | .failing => q

/-- R147: a QUERY begins. -/
def Part.startQuery (p : Part) (l : Line) (a : Nat) : Part :=
  let g := (p.line l).groupOf a
  let c := (p.line l).changePanel a Panel.probed
  (p.setLine l { c with queryPtr := a }).startExchange l .query a g (frameOf a queryCode [])

/-- LOAD_EXCHANGE, where the arbiter's choice is a LOAD. -/
def Part.beginLoadExchange (p : Part) (l : Line) : Part :=
  match p.chooseWork l with
  | some (.load a slot) => p.startLoad l a slot
  | _ => p

/-- ADDRESSED_SHOW, where the arbiter's choice is one. -/
def Part.beginShowExchange (p : Part) (l : Line) : Part :=
  match p.chooseWork l with
  | some (.showOne a) => p.startShow l a
  | _ => p

/-- BROADCAST_SHOW, where the arbiter's choice is one. -/
def Part.beginBroadcast (p : Part) (l : Line) : Part :=
  match p.chooseWork l with
  | some (.broadcast g) => p.startBroadcast l g
  | _ => p

/-- QUERY_EXCHANGE, where the arbiter's choice is one. -/
def Part.beginQuery (p : Part) (l : Line) : Part :=
  match p.chooseWork l with
  | some (.query a) => p.startQuery l a
  | _ => p

/-! ### The end of a frame and of an exchange -/

/-- R151: the flags of a group whose round closes. -/
def Group.close (x : Group) (full : Bool) : Group :=
  let x := { x with round := none, showDue := false }
  if full then { x with completed := true, syncFail := false }
  else if x.completed then { x with syncFail := true }
  else x

/-- R152: a mode change that waited for the broadcast. -/
def Group.applyChange (x : Group) : Group :=
  if x.changed then { x with completed := false, syncFail := false, changed := false } else x

/-- The address of a staged member of the round. -/
def Group.hasStaged (x : Group) (a : Nat) : Bool :=
  match x.round with
  | none => false
  | some r => r.members.any (fun m => m.address == a && m.staged)

/-- R151: the end of a broadcast SHOW. -/
def Part.closeRound (p : Part) (l : Line) (g : Nat) (full : Bool) : Part :=
  let c := p.line l
  let x := c.group g
  let panels := c.panels.map (fun q => if x.hasStaged q.address then { q with owed := false } else q)
  let p := p.setLine l
    { (c.changeGroup g (fun x => (x.close full).applyChange)) with exchange := none, panels := panels }
  p.raiseIf (!full && x.completed) .groupSyncFail

/-- R138: the stop bit of the frame's last character. -/
def Part.frameSent (p : Part) (l : Line) : Part :=
  match (p.line l).exchange with
  | none => p
  | some x =>
    if x.awaiting then p
    else match x.kind with
      | .broadcast full => p.closeRound l x.group full
      | .load _ => p.setLine l { (p.line l) with exchange := some { x with awaiting := true, due := p.swp.us + lineWait } }
      | .showOne => p.setLine l { (p.line l) with exchange := some { x with awaiting := true, due := p.swp.us + lineWait } }
      | .query => p.setLine l { (p.line l) with exchange := some { x with awaiting := true, due := p.swp.us + lineWait } }

/-- The outcome is GOOD. -/
def ExchangeOutcome.isGood : ExchangeOutcome → Bool
  | .good _ => true
  | .notReady _ => false
  | .failure _ => false

/-- R146: the slot of a LOAD that ends. -/
def Part.settleSlot (p : Part) (l : Line) (a slot : Nat) (good : Bool) : Part :=
  let settle (s : Slot) : Slot :=
    if s.state = .loading l a then (if good then Slot.freed else { s with state := .waiting l a }) else s
  { p with cmp := { p.cmp with slots := changeAt settle slot p.cmp.slots } }

/-- R146, R148, R150: what a GOOD does to show owed and to the member's staging. -/
def LineCtl.good (c : LineCtl) (kind : ExchangeKind) (a : Nat) : LineCtl :=
  match kind with
  | .load _ =>
    let c := c.changePanel a (fun q => { q with owed := true })
    if c.isGrouped (c.groupOf a) then c.changeGroup (c.groupOf a) (fun x => x.stage a) else c
  | .showOne => c.changePanel a (fun q => { q with owed := false })
  | .query => c
  | .broadcast _ => c

/-- R146: the slot that an exchange's outcome settles. -/
def Part.settleExchange (p : Part) (l : Line) (x : Exchange) (good : Bool) : Part :=
  match x.kind with
  | .load slot => p.settleSlot l x.address slot good
  | .showOne => p
  | .query => p
  | .broadcast _ => p

/-- R144: what a change of health does beyond the record. -/
def Part.healthChanged (p : Part) (l : Line) (a : Nat) (before after : Health) : Part :=
  let p := p.raiseIf (decide (before ≠ after) && (before.marked || after.marked)) .panel
  let p := { p with cmp := { p.cmp with panelEvents := p.cmp.panelEvents ++ panelEventOf l a before after } }
  if before ≠ after ∧ after = .offline then
    p.setLine l ((p.line l).changeGroup ((p.line l).groupOf a) (fun x => x.leave a))
  else p

/-- R139 to R144, R146, R148: the end of an addressed exchange with its outcome. -/
def Part.endExchange (p : Part) (l : Line) (x : Exchange) (o : ExchangeOutcome) : Part :=
  let before := (p.line l).health x.address
  let p := p.settleExchange l x o.isGood
  let c := { (p.line l) with exchange := none }
  let c := if o.isGood then c.good x.kind x.address else c
  let p := p.setLine l (c.changePanel x.address (fun q => q.after o))
  p.healthChanged l x.address before ((p.line l).health x.address)

/-- R138, R139: the exchange that awaits a reply ends with the characters received. -/
def Part.replyEnded (p : Part) (l : Line) (cs : List RxChar) : Part :=
  match (p.line l).exchange with
  | none => p
  | some x => if x.awaiting then p.endExchange l x (outcomeOf l x.address cs) else p

/-- R138: the quiet time after a cut-off exchange ends, where its 2 ms have passed. -/
def LineCtl.quietEnd (c : LineCtl) (us : Word) : LineCtl :=
  if reachedOpt us c.quiet then { c with quiet := none, tail := none } else c

/-- R138: a start bit while the quiet time runs: the wait begins again. While the character in hand is still being sent DIR
is at transmit, and the controller receives nothing (R135). -/
def LineCtl.quietAgain (c : LineCtl) (us : Word) : LineCtl :=
  match c.quiet with
  | none => c
  | some _ => if c.tailSends us then c else { c with quiet := some (us + lineWait) }

/-- R138: what a cut-off frame still sends: its characters up to the one in hand, if one is (log 52). -/
def Sending.cut (x : Sending) (us : Word) : Option Sending :=
  if x.begun us ≤ x.bytes.length then some { x with bytes := x.bytes.take (x.begun us) } else none

/-- R138: an exchange in flight is cut off: the controller stops sending at the end of the character in hand, and the quiet
time runs from there. -/
def LineCtl.cutOff (c : LineCtl) (us : Word) : LineCtl :=
  match c.exchange with
  | none => c
  | some x =>
    match x.sending.bind (·.cut us) with
    | none => { c with exchange := none, tail := none, quiet := some (us + lineWait) }
    | some rest => { c with exchange := none, tail := some rest, quiet := some (rest.ending + lineWait) }

/-! ### Coach-profile load (R142, R152) -/

/-- R142: a record created by a profile. -/
def newPanel (a g : Nat) : Panel :=
  { address := a, group := g, health := .absent, goodRun := 0, failRun := 0, idle := 0, probe := 0, light := none
    owed := false, counters := { noReply := 0, char := 0, length := 0, check := 0, address := 0 }, queryDue := true }

/-- R142: the record of a configured panel, kept by its address or created. -/
def panelOf (c : LineCtl) (q : PanelPlace) : Panel :=
  match c.panel q.address with
  | some r => { r with group := q.group }
  | none => newPanel q.address q.group

/-- R142: a broadcast SHOW of this group is in flight. -/
def LineCtl.broadcasting (c : LineCtl) (g : Nat) : Bool :=
  match c.exchange with
  | none => false
  | some x =>
    match x.kind with
    | .broadcast _ => x.group == g
    | .load _ => false
    | .showOne => false
    | .query => false

/-- R142: the members that a new configuration leaves in the open round of group g. -/
def Group.restrict (x : Group) (f : LineConfig) (g : Nat) : Group :=
  match x.round with
  | none => x
  | some r =>
    let stays (m : Member) : Bool := f.panels.any (fun q => q.address == m.address && q.group == g)
    { x with round := some { r with members := r.members.filter stays } }

/-- R152: a change of the group's mode with no broadcast in flight. -/
def Group.changeMode (x : Group) (nowGrouped : Bool) : Group :=
  if nowGrouped then { x with completed := false, syncFail := false }
  else { x with round := none, showDue := false, completed := false, syncFail := false }

/-- R152: group g under a new configuration. -/
def Group.reconfigure (x : Group) (c : LineCtl) (f : LineConfig) (g : Nat) : Group :=
  let changes := c.config.isSome && decide (c.isGrouped g ≠ (f.group g).grouped)
  let x := x.restrict f g
  if c.broadcasting g then { x with changed := x.changed || changes }
  else
    let x := if changes then x.changeMode (f.group g).grouped else x
    x.rejudge (f.group g).hold

/-- R142: the exchange in flight is addressed to a panel that the configuration removes. -/
def LineCtl.losesExchange (c : LineCtl) (f : LineConfig) : Bool :=
  match c.exchange with
  | none => false
  | some x =>
    match x.kind with
    | .broadcast _ => false
    | .load _ => !f.panels.any (fun q => q.address == x.address)
    | .showOne => !f.panels.any (fun q => q.address == x.address)
    | .query => !f.panels.any (fun q => q.address == x.address)

/-- R142, R152: a line takes its new configuration. -/
def LineCtl.configure (c : LineCtl) (f : LineConfig) (us : Word) : LineCtl :=
  let c' := if c.losesExchange f then c.cutOff us else c
  { c' with config := some f, panels := f.panels.map (panelOf c)
            groups := mapGroups (fun g x => x.reconfigure c f g) 0 c.groups }

/-- R142: a line takes the profile handed to it. -/
def Part.lineProfile (p : Part) (l : Line) : Part :=
  match (p.line l).profiles with
  | [] => p
  | f :: rest => p.setLine l { ((p.line l).configure (f.line l) p.swp.us) with profiles := rest }

/-! ### Meanings -/

/-- LOAD_EXCHANGE (R145, R146). -/
def execLoadExchange (line : Line) (s : State) : Answer := s.onPart (·.beginLoadExchange line)

/-- ADDRESSED_SHOW (R145, R148, R153). -/
def execAddressedShow (line : Line) (s : State) : Answer := s.onPart (·.beginShowExchange line)

/-- BROADCAST_SHOW (R145, R151, R153). -/
def execBroadcastShow (line : Line) (s : State) : Answer := s.onPart (·.beginBroadcast line)

/-- QUERY_EXCHANGE (R145, R147). -/
def execQueryExchange (line : Line) (s : State) : Answer := s.onPart (·.beginQuery line)

/-- FRAME_SENT (R138, R151). -/
def execFrameSent (line : Line) (s : State) : Answer := s.onPart (·.frameSent line)

/-- REPLY (R139, R140, R143, R144). -/
def execReply (line : Line) (chars : List RxChar) (s : State) : Answer := s.onPart (·.replyEnded line chars)

/-- REPLY_TIMEOUT (R138, R139). -/
def execReplyTimeout (line : Line) (chars : List RxChar) (s : State) : Answer := s.onPart (·.replyEnded line chars)

/-- CUT_OFF_QUIET_END (R138). -/
def execCutOffQuietEnd (line : Line) (s : State) : Answer :=
  s.onPart (fun p => p.setLine line ((p.line line).quietEnd p.swp.us))

/-- QUIET_TIME_START_BIT (R138). -/
def execQuietTimeStartBit (line : Line) (s : State) : Answer :=
  s.onPart (fun p => p.setLine line ((p.line line).quietAgain p.swp.us))

/-- LINE_SWEEP_AGEING (R147, R149). -/
def execLineSweepAgeing (line : Line) (s : State) : Answer := s.onPart (·.lineBoundary line)

/-- HOLD_LIMIT_REACHED (R149). -/
def execHoldLimitReached (line : Line) (group : Nat) (s : State) : Answer := s.onPart (·.holdReached line group)

/-- IDLE_COUNT_FULL (R147). -/
def execIdleCountFull (line : Line) (address : Nat) (s : State) : Answer :=
  s.onPart (fun p => p.setLine line ((p.line line).changePanel address Panel.idleFull))

/-- PROBE_COUNTDOWN_END (R147). -/
def execProbeCountdownEnd (line : Line) (address : Nat) (s : State) : Answer :=
  s.onPart (fun p => p.setLine line ((p.line line).changePanel address Panel.probeEnd))

/-- LINE_PROFILE_LOAD (R142, R152). -/
def execLineProfileLoad (line : Line) (s : State) : Answer := s.onPart (·.lineProfile line)

end Sys2Proof.Machine
end

