-- ==== Sys2Proof/Machine/Notices.lean ====
section
/-! DEFINITION. The notice scheduler and the chime player (chapter 5). -/

namespace Sys2Proof.Machine

/-! ### Chimes (R101, R102) -/

/-- The length of a tone's on-part and of its off-part, in ms (R102). -/
def tonePart : Word := 150#32

/-- R102: a chime of n tones starts at a ms value. -/
def startChime (n : Nat) (ms : Word) : Playing := { left := n, on := true, until_ := ms + tonePart }

/-- R102: a chime request at the player. -/
def Chime.request (c : Chime) (n : Nat) (ms : Word) : Chime :=
  match c.playing with
  | none => { c with playing := some (startChime n ms) }
  | some _ => { c with pending := some n }

/-- R102: the end of a chime. -/
def Chime.finish (c : Chime) (ms : Word) : Chime :=
  match c.pending with
  | none => { c with playing := none }
  | some n => { c with playing := some (startChime n ms), pending := none }

/-- R102: the end of an on-part or off-part. -/
def Chime.partEnd (c : Chime) (ms : Word) : Chime :=
  match c.playing with
  | none => c
  | some t =>
    if reached ms t.until_ then
      if t.on then { c with playing := some { t with on := false, until_ := t.until_ + tonePart } }
      else if t.left ≤ 1 then c.finish ms
      else { c with playing := some { left := t.left - 1, on := true, until_ := t.until_ + tonePart } }
    else c

/-- The player takes a request sent to it. -/
def Part.chimeRequested (p : Part) : Part :=
  match p.swp.chime.inbox with
  | [] => p
  | n :: rest =>
    { p with swp := { p.swp with chime := { p.swp.chime.request n p.swp.ms with inbox := rest } } }

/-- R102 at the part. -/
def Part.tonePartEnded (p : Part) : Part :=
  { p with swp := { p.swp with chime := p.swp.chime.partEnd p.swp.ms } }

/-- R101: a notice comes up; its tones, if any, are requested. -/
def Part.comesUp (p : Part) (d : NoticeDef) : Part :=
  if d.tones = 0 then p
  else { p with swp := { p.swp with chime := { p.swp.chime with inbox := p.swp.chime.inbox ++ [d.tones] } } }

/-! ### Definitions -/

/-- The definition of an id in the notice store. -/
def noticeOf (store : List NoticeDef) (id : Nat) : Option NoticeDef := store.find? (fun d => d.id == id)

/-- The priority of an entry, by its definition (R95). -/
def entryPriority (store : List NoticeDef) (e : NoticeEntry) : Nat := ((noticeOf store e.id).map (·.priority)).getD 0

/-- The trigger that a journey event's cause matches (R89). -/
def triggerOfCause : Cause → Option Trigger
  | .approach => some .approach
  | .depart => some .depart
  | .arrive => some .arrive
  | .pass => some .pass
  | .doors => some .doors
  | .halt => some .halt
  | .doubt => none
  | .resume => none
  | .overrun => none
  | .place => none
  | .unplace => none
  | .remap => none

/-- R89: the served index of the judged stop of a journey event's trigger. -/
def judgedStop (e : JourneyEvent) : Option Nat :=
  match e.cause with
  | .arrive => e.phase.leg
  | .doors => e.phase.leg
  | .pass => e.code.bind (indexOfCode e.view)
  | _ => e.phase.leg.map (· + 1)

/-- R90: a definition's stop filter on the judged stop of a view. -/
def filterPasses (d : NoticeDef) (view : List ServedStop) (judged : Option Nat) : Bool :=
  match d.filter with
  | .all => true
  | .divideAhead => (judged.bind (fun j => view[j]?)).any (·.divide)
  | .joinAhead => (judged.bind (fun j => view[j]?)).any (·.join)
  | .terminusAhead => judged.any (fun j => decide (j + 1 = view.length))
  | .code => (judged.bind (fun j => view[j]?)).any (fun q => q.code == d.filterCode)

/-! ### Activation (R96) -/

/-- The most entries of the active notice list (R95). -/
def activeLimit : Nat := 8

/-- R96: a new entry's place: after the last entry of an equal or greater priority. -/
def insertEntry (store : List NoticeDef) (d : NoticeDef) (active : List NoticeEntry) : List NoticeEntry :=
  insertBy (fun _ y => decide (entryPriority store y < d.priority))
    { id := d.id, phase := .showing, countdown := d.duration } active

/-- R96: a re-trigger. -/
def retrigger (d : NoticeDef) (active : List NoticeEntry) : List NoticeEntry :=
  active.map (fun e => if e.id = d.id then { e with phase := .showing, countdown := d.duration } else e)

/-- The active list replaced. -/
def Part.setActive (p : Part) (active : List NoticeEntry) : Part := { p with ntc := { p.ntc with active := active } }

/-- R96: a notice dropped or evicted. -/
def Part.noteDropped (p : Part) (id : Nat) : Part :=
  Part.raise { p with ntc := { p.ntc with lastDropped := some id } } .noticeDrop

/-- R96: activation into a full list. -/
def Part.activateFull (p : Part) (d : NoticeDef) : Part :=
  match p.ntc.active.getLast? with
  | none => p
  | some last =>
    if entryPriority p.ntc.store last < d.priority then
      ((p.setActive (insertEntry p.ntc.store d p.ntc.active.dropLast)).noteDropped last.id).comesUp d
    else p.noteDropped d.id

/-- R96: activation. -/
def Part.activate (p : Part) (d : NoticeDef) : Part :=
  match p.ntc.active.find? (fun e => e.id == d.id) with
  | some e =>
    let p' := p.setActive (retrigger d p.ntc.active)
    if e.phase = .resting then p'.comesUp d else p'
  | none =>
    if p.ntc.active.length < activeLimit then (p.setActive (insertEntry p.ntc.store d p.ntc.active)).comesUp d
    else p.activateFull d

/-- R90: definitions activated one by one, in notice-store order. -/
def Part.activateEach (p : Part) (ds : List NoticeDef) : Part := ds.foldl Part.activate p

/-- R89: the definitions that a journey event triggers. -/
def triggeredBy (store : List NoticeDef) (e : JourneyEvent) : List NoticeDef :=
  store.filter (fun d => decide (triggerOfCause e.cause = some d.trigger) && filterPasses d e.view (judgedStop e))

/-! ### The distance plan (R92 to R94) -/

/-- R92 step 3: the mark distance in mm. -/
def triggerMm (leg metres : Nat) : Nat := (leg - metres) * 1000

/-- R92 steps 3 to 5: the triggers of leg k, in plan order. -/
def planFor (store : List NoticeDef) (view : List ServedStop) (k : Nat) (fired : List Nat) : List PendingTrigger :=
  sortBy (fun x y => decide (x.distance < y.distance))
    ((store.filter (fun d => decide (d.trigger = .distance) && filterPasses d view (some (k + 1)))).map
      (fun d => { id := d.id, distance := triggerMm (legAt view k) d.metres
                  status := if fired.contains d.id then .fired else .waiting }))

/-- R92 step 6: the first `n` WAITING triggers made ARMED. -/
def armFirst : Nat → List PendingTrigger → List PendingTrigger
  | 0, ts => ts
  | _ + 1, [] => []
  | n + 1, t :: ts =>
    match t.status with
    | .waiting => { t with status := .armed } :: armFirst n ts
    | .armed => t :: armFirst (n + 1) ts
    | .fired => t :: armFirst (n + 1) ts

/-- The first `n` WAITING triggers. -/
def firstWaiting (n : Nat) (ts : List PendingTrigger) : List PendingTrigger :=
  (ts.filter (fun t => decide (t.status = .waiting))).take n

/-- R92 step 6: the first `n` WAITING triggers are armed at the odometer. -/
def Part.armTriggers (p : Part) (n : Nat) (plan : List PendingTrigger) : Part :=
  let p := { p with ntc := { p.ntc with plan := some (armFirst n plan) } }
  (firstWaiting n plan).foldl (fun p t => p.armMark (.notice t.id p.ntc.planGen) t.distance) p

/-- R92, R94: the next plan generation, with the scheduler's marks cleared. -/
def Part.nextPlanGen (p : Part) : Part :=
  Part.clearOwner { p with ntc := { p.ntc with planGen := p.ntc.planGen + 1#16 } } .notices

/-- R92: the plan is built, with the ids that have fired on the leg. -/
def Part.buildPlan (p : Part) (k : Nat) (fired : List Nat) : Part :=
  let p := { p with ntc := { p.ntc with legFired := fired } }
  p.nextPlanGen.armTriggers 6 (planFor p.ntc.store p.ntc.refView k fired)

/-- R94: the plan is dropped. -/
def Part.dropPlan (p : Part) : Part :=
  let p := p.nextPlanGen
  { p with ntc := { p.ntc with plan := none, legFired := [] } }

/-- R92: a journey event into a leg state builds the plan. -/
def buildsPlan (e : JourneyEvent) (before : Phase) (k : Nat) : Bool :=
  decide (before.runLeg ≠ some k) || decide (e.cause = .place) || decide (e.cause = .remap)

/-- R91 step 4; a plan that a journey event builds is that of a fresh leg, on which nothing has fired (log 47). -/
def Part.planStep (p : Part) (e : JourneyEvent) (before : Phase) : Part :=
  match e.phase.runLeg with
  | none => p.dropPlan
  | some k => if buildsPlan e before k then p.buildPlan k [] else p

/-! ### Selection (R99) -/

/-- The group is among a definition's targets. -/
def NoticeDef.targets (d : NoticeDef) : NoticeGroup → Bool
  | .endGroup => d.toEnd
  | .doorGroup => d.toDoor

/-- R99: the definition that a group selects: that of the first SHOWING entry with the group among its targets. -/
def selectedNotice (store : List NoticeDef) (active : List NoticeEntry) (g : NoticeGroup) : Option NoticeDef :=
  active.findSome? (fun e =>
    match noticeOf store e.id with
    | some d => if e.phase = .showing ∧ d.targets g = true then some d else none
    | none => none)

/-- R99: a group's selection, with its default page. -/
def selectionOf (store : List NoticeDef) (active : List NoticeEntry) (g : NoticeGroup) (default : Option Nat) :
    Selection :=
  match selectedNotice store active g with
  | some d => { id := some d.id, page := some d.page }
  | none => { id := none, page := default }

/-- R99: both selections are recomputed, and a selection mark is sent for each that changes, that of END first (log 60). -/
def Part.reselect (p : Part) : Part :=
  let e := selectionOf p.ntc.store p.ntc.active .endGroup p.ntc.defaultEnd
  let d := selectionOf p.ntc.store p.ntc.active .doorGroup p.ntc.defaultDoor
  { p with
    cmp := { p.cmp with selectionMarks := p.cmp.selectionMarks
      ++ (if e = p.ntc.selEnd then [] else [.endGroup]) ++ (if d = p.ntc.selDoor then [] else [.doorGroup]) }
    ntc := { p.ntc with selEnd := e, selDoor := d } }

/-! ### Journey events (R91) -/

/-- R98: the entry's end condition is met. -/
def endMet (store : List NoticeDef) (e : JourneyEvent) (before : Phase) (x : NoticeEntry) : Bool :=
  match noticeOf store x.id with
  | none => false
  | some d =>
    match d.endCondition with
    | .timer => false
    | .arrive => decide (e.cause = .arrive)
    | .depart => decide (e.cause = .depart)
    | .legChange => decide (e.phase.leg ≠ before.leg)

/-- R91 steps 2 to 6, with the reference already copied. -/
def Part.workJourney (p : Part) (e : JourneyEvent) (before : Phase) : Part :=
  if e.phase = .unplaced ∨ e.phase = .lost then ((p.setActive []).dropPlan).reselect
  else
    let p := p.setActive (p.ntc.active.filter (fun x => !endMet p.ntc.store e before x))
    let p := p.planStep e before
    (p.activateEach (triggeredBy p.ntc.store e)).reselect

/-- R91: the scheduler takes a journey event. -/
def Part.noticeJourney (p : Part) : Part :=
  match p.ntc.journeys with
  | [] => p
  | e :: rest =>
    Part.workJourney { p with ntc := { p.ntc with journeys := rest, refPhase := e.phase, refView := e.view } } e
      p.ntc.refPhase

/-! ### Marks (R93) -/

/-- R93: the trigger of an id marked FIRED. -/
def markFired (id : Nat) (plan : List PendingTrigger) : List PendingTrigger :=
  plan.map (fun t => if t.id = id then { t with status := .fired } else t)

/-- R92: an id has fired on this leg. -/
def noteFired (id : Nat) (fired : List Nat) : List Nat := if fired.contains id then fired else fired ++ [id]

/-- R93: a trigger fires: its id is noted for the leg, whatever the plans of later tables hold (R88 step 5). -/
def Part.fireTrigger (p : Part) (id : Nat) : Part :=
  { p with ntc := { p.ntc with legFired := noteFired id p.ntc.legFired } }

/-- R93: activation of a fired trigger's notice. -/
def Part.activateId (p : Part) (id : Nat) : Part :=
  match noticeOf p.ntc.store id with
  | none => p
  | some d => p.activate d

/-- R93: a mark event of the present generation acts while a plan is present. -/
def Part.judgeNoticeMark (p : Part) (id : Nat) (gen : Half16) : Part :=
  match p.ntc.plan with
  | none => p
  | some plan =>
    if gen = p.ntc.planGen then (((p.fireTrigger id).activateId id).armTriggers 1 (markFired id plan)).reselect
    else p

/-- R93: the scheduler takes a mark event. -/
def Part.takeNoticeMark (p : Part) : Part :=
  match p.ntc.inbox with
  | .mark id gen :: rest => Part.judgeNoticeMark { p with ntc := { p.ntc with inbox := rest } } id gen
  | .cleared :: _ => p
  | [] => p

/-! ### Sweep boundaries (R97, R104) -/

/-- R97: what becomes of an entry at a boundary, and whether it comes up. -/
def countEntry (d : NoticeDef) (x : NoticeEntry) : Option NoticeEntry × Bool :=
  if 1 < x.countdown then (some { x with countdown := x.countdown - 1 }, false)
  else match x.phase with
    | .showing => if d.gap = 0 then (none, false) else (some { x with phase := .resting, countdown := d.gap }, false)
    | .resting => (some { x with phase := .showing, countdown := d.duration }, true)

/-- R97: the entries counted in list order, their chimes requested in that order. -/
def countEntries (store : List NoticeDef) : List NoticeEntry → Part → List NoticeEntry × Part
  | [], p => ([], p)
  | x :: xs, p =>
    match noticeOf store x.id with
    | none => let rest := countEntries store xs p; (x :: rest.1, rest.2)
    | some d =>
      let c := countEntry d x
      let rest := countEntries store xs (if c.2 then p.comesUp d else p)
      (c.1.toList ++ rest.1, rest.2)

/-- R97. -/
def Part.countDown (p : Part) : Part :=
  let c := countEntries p.ntc.store p.ntc.active p
  (c.2.setActive c.1).reselect

/-- R87: the scheduler starts a load of the live notice table. -/
def Part.startNoticeLoad (p : Part) : Part :=
  let begun := p.beginLoad .noticeTable p.ntc.load
  { begun.1 with ntc := { begun.1.ntc with load := begun.2 } }

/-- R97, R104: a sweep boundary at the scheduler; an owed load starts. -/
def Part.noticeBoundary (p : Part) : Part :=
  if p.ntc.boundaries = 0 then p
  else
    let p := Part.countDown { p with ntc := { p.ntc with boundaries := p.ntc.boundaries - 1 } }
    if p.ntc.load = .owed ∧ p.regs.run = true then p.startNoticeLoad else p

/-! ### Loads (R85, R87, R88) -/

/-- R85: a selection of DEFAULT shows the new default page. -/
def Selection.withDefault (s : Selection) (page : Nat) : Selection :=
  match s.id with
  | none => { s with page := some page }
  | some _ => s

/-- R85: the scheduler takes the profile handed to it. -/
def Part.noticeProfile (p : Part) : Part :=
  match p.ntc.profiles with
  | [] => p
  | f :: rest =>
    { p with ntc := { p.ntc with profiles := rest, defaultEnd := some f.endPage, defaultDoor := some f.doorPage
                                 selEnd := p.ntc.selEnd.withDefault f.endPage
                                 selDoor := p.ntc.selDoor.withDefault f.doorPage } }

/-- R87: the scheduler is told to load. -/
def Part.noticeLoadTold (p : Part) : Part :=
  if p.ntc.told = 0 then p else Part.startNoticeLoad { p with ntc := { p.ntc with told := p.ntc.told - 1 } }

/-- R88 steps 3 and 4: the entries under a new store. -/
def restoredEntries (store : List NoticeDef) (active : List NoticeEntry) : List NoticeEntry :=
  sortBy (fun x y => decide (entryPriority store y < entryPriority store x))
    (active.filter (fun x => (noticeOf store x.id).isSome))

/-- R88 step 5: a plan that is present is rebuilt, and the ids that have fired on its leg stay fired. -/
def Part.rebuildPlan (p : Part) : Part :=
  match p.ntc.plan, p.ntc.refPhase.runLeg with
  | some _, some k => p.buildPlan k p.ntc.legFired
  | none, _ => p
  | some _, none => p

/-- R88: a new notice store. -/
def Part.newNotices (p : Part) (store : List NoticeDef) : Part :=
  (Part.rebuildPlan
    { p with ntc := { p.ntc with store := store, active := restoredEntries store p.ntc.active } }).reselect

/-- R88, R87: the completion of a load, or its abandonment by a fault. -/
def Part.completeNoticeLoad (p : Part) (bus : Bus) : Part :=
  match p.ntc.load with
  | .loading copy address _ =>
    let p := p.hostWrites bus
    let read := (p.view bus).loadNotices address
    let p := p.unpin .noticeTable copy
    let p := { p with ntc := { p.ntc with load := .idle } }
    match read with
    | .error f => p.memoryError .notices f.address f.cause
    | .ok ds => p.newNotices (ds.map RawNotice.toDef)
  | .idle => p
  | .owed => p

/-! ### Meanings -/

/-- NOTICE_JOURNEY_EVENT (R91). -/
def execNoticeJourneyEvent (s : State) : Answer := s.onPart (·.noticeJourney)

/-- NOTICE_MARK (R93). -/
def execNoticeMark (s : State) : Answer := s.onPart (·.takeNoticeMark)

/-- NOTICE_COUNTDOWN (R97, R104). -/
def execNoticeCountdown (s : State) : Answer := s.onPart (·.noticeBoundary)

/-- NOTICE_PROFILE_LOAD (R85). -/
def execNoticeProfileLoad (s : State) : Answer := s.onPart (·.noticeProfile)

/-- NOTICE_LOAD_START (R87). -/
def execNoticeLoadStart (s : State) : Answer := s.onPart (·.noticeLoadTold)

/-- NOTICE_LOAD_COMPLETE (R88). -/
def execNoticeLoadComplete (bus : Bus) (s : State) : Answer := s.onPart (·.completeNoticeLoad bus)

/-- CHIME_REQUEST (R102). -/
def execChimeRequest (s : State) : Answer := s.onPart (·.chimeRequested)

/-- TONE_PART_END (R102). -/
def execTonePartEnd (s : State) : Answer := s.onPart (·.tonePartEnded)

end Sys2Proof.Machine
end

