-- ==== Sys2Proof/Machine/Report.lean ====
section
/-! DEFINITION. The report unit's status page (R184, 11.5). -/

namespace Sys2Proof.Machine

/-- A field of the status page: its offset in the page, its size, and its value as the part stands. -/
structure PageField where
  offset : Nat
  size : Nat
  value : Part → Nat

/-- Where the status page stands in the window (chapter 11). -/
def pageBase : Nat := 0x1000

/-- A value that is present, or the free value of its field (log 18). -/
def presentOr (offset : Nat) (v : Option Nat) : Nat := v.getD (Config.absentField offset)

/-! ### Codes (11.5) -/

/-- Tracker states. -/
def Phase.code : Phase → Nat
  | .unplaced => 0
  | .atStop _ => 1
  | .running _ => 2
  | .approaching _ => 3
  | .halted _ => 4
  | .doubt _ => 5
  | .ended => 6
  | .lost => 7

/-- Motion states. -/
def Motion.code : Motion → Nat
  | .still => 0
  | .moving => 1

/-- Door states. -/
def Door.code : Door → Nat
  | .locked => 0
  | .released => 1

/-- Roles. -/
def Role.code : Role → Nat
  | .alone => 0
  | .lead => 1
  | .follow => 2

/-- Sync states. -/
def SyncState.code : SyncState → Nat
  | .alone => 0
  | .leading => 1
  | .following => 2
  | .freewheel => 3

/-- Seat display states. -/
def SeatDisplay.code : SeatDisplay → Nat
  | .unknown => 0
  | .free => 1
  | .reservedNow => 2
  | .reservedLater => 3
  | .blocked => 4
  | .off => 5

/-- Health; 0 is an empty place. -/
def Health.code : Health → Nat
  | .absent => 1
  | .joining => 2
  | .online => 3
  | .failing => 4
  | .offline => 5

/-- Stream faults. -/
def StreamFault.code : StreamFault → Nat
  | .prefixFault => 1
  | .lengthFault => 2

/-- Agents. -/
def Agent.code : Agent → Nat
  | .edition => 1
  | .tracker => 2
  | .reservations => 3
  | .notices => 4
  | .composer => 5
  | .report => 6

/-- Causes of memory errors. -/
def ErrorCause.code : ErrorCause → Nat
  | .bus => 1
  | .check => 2
  | .window => 3
  | .signature => 4
  | .amendIndex => 5

/-! ### Fields -/

/-- R43, R167: the journey record and the train sync field. -/
def journeyFields : List PageField :=
  [ { offset := 0x004, size := 1, value := fun p => p.trk.phase.code },
    { offset := 0x005, size := 1, value := fun p => p.trk.phase.leg.getD 0xFF },
    { offset := 0x006, size := 1, value := fun p => p.trk.portion.getD 0 },
    { offset := 0x007, size := 1, value := fun p => p.odo.motion.code },
    { offset := 0x008, size := 1, value := fun p => p.odo.door.code },
    { offset := 0x00A, size := 2, value := fun p => ((currentStop p.trk.phase p.trk.view).map (·.code)).getD 0 },
    { offset := 0x00C, size := 2, value := fun p => ((nextStop p.trk.phase p.trk.view).map (·.code)).getD 0 },
    { offset := 0x00E, size := 2, value := fun p => p.swp.number },
    { offset := 0x010, size := 2, value := fun p => p.odo.speed },
    { offset := 0x014, size := 4, value := fun p => p.odo.legDistance / 1000 },
    { offset := 0x01C, size := 1, value := fun p => p.swp.role.code },
    { offset := 0x01D, size := 1, value := fun p => p.swp.sync.code } ]

/-- R42: a record of the journey, from an offset. -/
def recordFields (offset : Nat) (r : Part → Option JourneyRecord) : List PageField :=
  [ { offset := offset, size := 1, value := fun p => bitOf (r p).isSome },
    { offset := offset + 2, size := 2, value := fun p => presentOr (offset + 2) ((r p).map (·.code)) },
    { offset := offset + 4, size := 4, value := fun p => presentOr (offset + 4) ((r p).map (fun x => x.ms.toNat)) },
    { offset := offset + 8, size := 4, value := fun p => presentOr (offset + 8) ((r p).map (·.measured)) },
    { offset := offset + 12, size := 4, value := fun p => presentOr (offset + 12) ((r p).map (·.expected)) } ]

/-- R84, R132, R169 and the last dropped notice id. -/
def faultFields : List PageField :=
  [ { offset := 0x050, size := 1, value := fun p => p.ntc.lastDropped.getD 0 },
    { offset := 0x051, size := 1, value := fun p => bitOf p.res.storeEdition.isSome },
    { offset := 0x052, size := 1, value := fun p => p.res.skipped },
    { offset := 0x054, size := 2, value := fun p => p.res.lowestSkipped.getD 0 },
    { offset := 0x058, size := 4, value := fun p => presentOr 0x058 p.res.storeEdition },
    { offset := 0x05C, size := 1, value := fun p => bitOf p.rep.contentFault.isSome },
    { offset := 0x05D, size := 1, value := fun p => presentOr 0x05D (p.rep.contentFault.map (·.glyph)) },
    { offset := 0x05E, size := 1, value := fun p => presentOr 0x05E (p.rep.contentFault.map (·.cause.code)) },
    { offset := 0x060, size := 1, value := fun p => bitOf p.rep.memoryError.isSome },
    { offset := 0x061, size := 1, value := fun p => presentOr 0x061 (p.rep.memoryError.map (·.agent.code)) },
    { offset := 0x062, size := 1, value := fun p => presentOr 0x062 (p.rep.memoryError.map (·.cause.code)) },
    { offset := 0x064, size := 4, value := fun p => presentOr 0x064 (p.rep.memoryError.map (·.address)) } ]

/-- R155: the sync-fail flags of a line's groups. -/
def syncFailFields (offset : Nat) (l : Line) : List PageField :=
  (List.range 4).map (fun g => { offset := offset + g, size := 1, value := fun p => bitOf ((p.line l).group g).syncFail })

/-- R84: the seat display states and the review set; places beyond the seat map show UNKNOWN and, in the review set, 0
(log 57). -/
def seatFields : List PageField :=
  (List.range 96).map
    (fun i => { offset := 0x080 + i, size := 1, value := fun p => ((p.res.seats[i]?).map (·.display.code)).getD 0 })
  ++ (List.range 96).map
    (fun i => { offset := 0x0E0 + i, size := 1
                value := fun p => ((p.res.seats[i]?).map (fun q => bitOf (q.reviewResolution || q.reviewLatched))).getD 0 })

/-- The record of place i of a line, in configuration order (R155). -/
def Part.place (p : Part) (l : Line) (i : Nat) : Option Panel := (p.line l).panels[i]?

/-- R155: the health record of place i of a line. -/
def healthFields (offset : Nat) (l : Line) (i : Nat) : List PageField :=
  [ { offset := offset, size := 1, value := fun p => presentOr offset ((p.place l i).map (·.address)) },
    { offset := offset + 1, size := 1, value := fun p => presentOr (offset + 1) ((p.place l i).map (·.group)) },
    { offset := offset + 2, size := 1, value := fun p => ((p.place l i).map (·.health.code)).getD 0 },
    { offset := offset + 3, size := 1, value := fun p => presentOr (offset + 3) ((p.place l i).bind (·.light)) },
    { offset := offset + 4, size := 1, value := fun p => bitOf ((p.place l i).bind (·.light)).isSome },
    { offset := offset + 6, size := 2
      value := fun p => presentOr (offset + 6) ((p.place l i).map (·.counters.noReply)) },
    { offset := offset + 8, size := 2, value := fun p => presentOr (offset + 8) ((p.place l i).map (·.counters.char)) },
    { offset := offset + 10, size := 2
      value := fun p => presentOr (offset + 10) ((p.place l i).map (·.counters.length)) },
    { offset := offset + 12, size := 2
      value := fun p => presentOr (offset + 12) ((p.place l i).map (·.counters.check)) },
    { offset := offset + 14, size := 2
      value := fun p => presentOr (offset + 14) ((p.place l i).map (·.counters.address)) } ]

/-- R155: the health records of a line's `n` places from an offset. -/
def lineFields (offset n : Nat) (l : Line) : List PageField :=
  (List.range n).flatMap (fun i => healthFields (offset + 16 * i) l i)

/-- 11.5: every field of the page but the page sequence word, by rising offset (log 17). -/
def pageFields : List PageField :=
  journeyFields ++ recordFields 0x020 (·.trk.arrival) ++ recordFields 0x030 (·.trk.departure)
    ++ recordFields 0x040 (·.trk.passed) ++ faultFields
    ++ syncFailFields 0x068 .seat ++ syncFailFields 0x06C .end_ ++ syncFailFields 0x070 .door
    ++ seatFields ++ lineFields 0x140 48 .seat ++ lineFields 0x440 4 .end_ ++ lineFields 0x480 8 .door

/-! ### The page image and page writes (R184) -/

/-- The value of a field in the page image. -/
def Report.imageOf (r : Report) (offset : Nat) : Option Nat := (r.pageImage.find? (fun x => x.1 == offset)).map (·.2)

/-- The page image with a field's value recorded. -/
def recordImage (image : List (Nat × Nat)) (offset value : Nat) : List (Nat × Nat) :=
  (image.filter (fun x => x.1 != offset)) ++ [(offset, value)]

/-- R184: a field reached by a page write: written if it differs, and recorded; a bus error is reported and leaves it
differing, with the bytes before the refused one written (log 81). -/
def Part.reachField (bus : Bus) (p : Part) (f : PageField) : Part :=
  let value := f.value p
  if p.rep.imageOf f.offset = some value then p
  else match writeFields p.regs.windowBase bus p.mem [{ offset := pageBase + f.offset, size := f.size, value := value }] with
    | (m, some a) => Part.memoryError { p with mem := m } .report a .bus
    | (m, none) => { p with mem := m, rep := { p.rep with pageImage := recordImage p.rep.pageImage f.offset value } }

/-- R184: fields reached one after another, each value read as it then stands. -/
def Part.reachFields (p : Part) (bus : Bus) (fs : List PageField) : Part := fs.foldl (Part.reachField bus) p

/-- R184: a boundary at the report unit: a page write begins and reaches its first `reach` fields; while one is in
progress the boundary's own write is deferred, one for each boundary. -/
def Part.pageBoundary (p : Part) (bus : Bus) (reach : Nat) : Part :=
  if p.rep.boundaries = 0 then p
  else
    let p := { p with rep := { p.rep with boundaries := p.rep.boundaries - 1 } }
    if p.regs.freeze then p
    else match p.rep.writing with
      | some _ => { p with rep := { p.rep with deferred := p.rep.deferred + 1 } }
      | none =>
        Part.reachFields (Part.hostWrites { p with rep := { p.rep with writing := some reach } } bus) bus
          (pageFields.take reach)

/-- R184: the page sequence word. -/
def Part.pageSequence (p : Part) (bus : Bus) : Part :=
  let p := { p with rep := { p.rep with pageSeq := p.rep.pageSeq + 1#32 } }
  match writeFields p.regs.windowBase bus p.mem [{ offset := pageBase, size := 4, value := p.rep.pageSeq.toNat }] with
  | (m, none) => { p with mem := m }
  | (m, some a) => Part.memoryError { p with mem := m } .report a .bus

/-- R184: a page write has ended: the first of the deferred writes starts, where there is one. -/
def Report.nextPage (r : Report) : Report :=
  { r with writing := if r.deferred = 0 then none else some 0, deferred := r.deferred - 1 }

/-- R184: the rest of a page write and its page sequence word; the next deferred write then starts. -/
def Part.endPage (p : Part) (bus : Bus) : Part :=
  match p.rep.writing with
  | none => p
  | some reached =>
    let p := ((p.hostWrites bus).reachFields bus (pageFields.drop reached)).pageSequence bus
    { p with rep := p.rep.nextPage }

/-- R184, R187: a page write in progress cut off: no sequence word, and the count stays (for FREEZE, log 63); the deferred
writes end with it (log 14, log 63). -/
def Report.cutPage (r : Report) : Report := { r with writing := none, deferred := 0 }

/-! ### Meanings -/

/-- STATUS_PAGE_WRITE (R184). -/
def execStatusPageWrite (bus : Bus) (reach : Nat) (s : State) : Answer := s.onPart (·.pageBoundary bus reach)

/-- STATUS_PAGE_WRITE_DONE (R184). -/
def execStatusPageWriteDone (bus : Bus) (s : State) : Answer := s.onPart (·.endPage bus)

end Sys2Proof.Machine
end

