-- ==== Sys2Proof/Machine/Sweep.lean ====
section
/-! DEFINITION. The sweep timer and train sync (chapter 9). -/

namespace Sys2Proof.Machine

/-! ### Boundaries (R157 to R160) -/

/-- R159: the sweep number after a boundary. -/
def numberAfter (wrap number : Nat) (zeroMark : Bool) : Nat :=
  if wrap = 0 then 0
  else if zeroMark then 1
  else if number = 0 ∨ wrap ≤ number then 1
  else number + 1

/-- R160: the length of a lead pulse, in us. -/
def leadPulseLength (number : Nat) : Word := if number = 1 then 3000#32 else 1000#32

/-- R160: the end of the lead pulse that a boundary starts: a pulse still in progress is sent to its end as well, so
TSYNC stays at 1 until the later of the two ends (log 53). -/
def Sweep.leadEnd (w : Sweep) (number : Nat) : Word :=
  match w.leadPulse with
  | none => w.us + leadPulseLength number
  | some e => if reached (w.us + leadPulseLength number) e then w.us + leadPulseLength number else e

/-- R158, R159, R160: a boundary at the sweep timer itself. -/
def Sweep.boundary (w : Sweep) (zeroMark : Bool) : Sweep :=
  let number := numberAfter w.wrap w.number zeroMark
  { w with number := number
           last := some { us := w.us, ms := w.ms }
           leadPulse := if w.sync = .leading then some (w.leadEnd number) else w.leadPulse
           sweepPulse := some (w.us + 1000#32) }

/-- A boundary raised to a line controller. -/
def LineCtl.raiseBoundary (c : LineCtl) : LineCtl := { c with boundaries := c.boundaries + 1 }

/-- A boundary for a loader: it matters to it while a load is owed (R46, R67). -/
def owedBoundary (l : LoadState) (n : Nat) : Nat := if l = .owed then n + 1 else n

/-- R158: the boundary raised toward the blocks that pace by it; each takes it as an event of its own. -/
def Part.raiseBoundary (p : Part) : Part :=
  { p with
    trk := { p.trk with boundaries := owedBoundary p.trk.load p.trk.boundaries }
    res := { p.res with boundaries := owedBoundary p.res.load p.res.boundaries }
    ntc := { p.ntc with boundaries := p.ntc.boundaries + 1 }
    cmp := { p.cmp with boundaries := p.cmp.boundaries + 1 }
    lineSeat := p.lineSeat.raiseBoundary
    lineEnd := p.lineEnd.raiseBoundary
    lineDoor := p.lineDoor.raiseBoundary
    ed := { p.ed with boundary := true }
    rep := { p.rep with boundaries := p.rep.boundaries + 1 } }

/-- R158: a boundary. -/
def Part.makeBoundary (p : Part) (zeroMark : Bool) : Part :=
  Part.raiseBoundary { p with swp := p.swp.boundary zeroMark }

/-- A time of ms as a deadline's length. -/
def msLength (n : Nat) : Word := BitVec.ofNat 32 n

/-- R157: the sync states in which the timer makes its own boundaries. -/
def SyncState.ownTimed : SyncState → Bool
  | .alone => true
  | .leading => true
  | .freewheel => true
  | .following => false

/-- R157: next boundary due is reached. -/
def Part.boundaryDue (p : Part) : Bool :=
  p.regs.run && p.swp.sync.ownTimed && reachedOpt p.swp.ms p.swp.nextDue

/-- R157: the timer makes a boundary of its own, if one is due. -/
def Part.ownBoundary (p : Part) : Part :=
  if p.boundaryDue then
    let p := p.makeBoundary false
    { p with swp := { p.swp with nextDue := some (p.swp.ms + msLength p.swp.period) } }
  else p

/-- R158: the end of the sweep pulse. -/
def Sweep.endSweepPulse (w : Sweep) : Sweep := if reachedOpt w.us w.sweepPulse then { w with sweepPulse := none } else w

/-- R160: the end of the lead pulse. -/
def Sweep.endLeadPulse (w : Sweep) : Sweep := if reachedOpt w.us w.leadPulse then { w with leadPulse := none } else w

/-! ### Train sync (R161 to R163) -/

/-- R161: the sync states that watch TSYNC. -/
def SyncState.watches : SyncState → Bool
  | .following => true
  | .freewheel => true
  | .alone => false
  | .leading => false

/-- R161: the timer watches TSYNC. -/
def Part.watching (p : Part) : Bool := p.regs.run && p.swp.sync.watches

/-- R161: a rising edge on TSYNC. -/
def Part.tsyncRise (p : Part) : Part :=
  let p := { p with pins := { p.pins with tsync := true } }
  if p.watching then { p with swp := { p.swp with pulseStart := some p.swp.us } } else p

/-- R161: classes of pulse. -/
inductive PulseClass where
  | glitch | ordinary | zeroMark
  deriving DecidableEq, Repr

/-- R161: the class of a width in us. -/
def pulseClass (width : Nat) : PulseClass :=
  if width < 250 then .glitch else if width < 2000 then .ordinary else .zeroMark

/-- R162: at least 20 ms after the last boundary, or no last boundary. -/
def Sweep.clearOfLast (w : Sweep) : Bool :=
  match w.last with
  | none => true
  | some t => decide (20000 ≤ (w.us - t.us).toNat)

/-- R162: a zero mark inside the guard: the number realigned, or kept while SWEEP_WRAP is 0. -/
def Sweep.realign (w : Sweep) : Sweep := if w.wrap = 0 then w else { w with number := 1 }

/-- R162: a valid pulse in FOLLOWING. -/
def Part.followPulse (p : Part) (zeroMark : Bool) : Part :=
  if p.swp.clearOfLast then p.makeBoundary zeroMark
  else if zeroMark then { p with swp := p.swp.realign }
  else p

/-- R163: in FREEWHEEL a valid pulse regains the leader. -/
def Part.regain (p : Part) : Part :=
  if p.swp.sync = .freewheel then
    Part.raise { p with swp := { p.swp with sync := .following, nextDue := none } } .trainSync
  else p

/-- R161: a valid pulse. -/
def Part.validPulse (p : Part) (zeroMark : Bool) : Part :=
  let p := { p with swp := { p.swp with
    lastPulse := some p.swp.us, silence := some (p.swp.ms + msLength (3 * p.swp.period)) } }
  p.regain.followPulse zeroMark

/-- R161: a pulse of this width ends. -/
def Part.pulseEnds (p : Part) (width : Nat) : Part :=
  match pulseClass width with
  | .glitch => p
  | .ordinary => p.validPulse false
  | .zeroMark => p.validPulse true

/-- R161: a trailing edge on TSYNC; with no pulse start present it ends no pulse. -/
def Part.tsyncFall (p : Part) : Part :=
  let p := { p with pins := { p.pins with tsync := false } }
  if p.watching then
    match p.swp.pulseStart with
    | none => p
    | some t => Part.pulseEnds { p with swp := { p.swp with pulseStart := none } } (p.swp.us - t).toNat
  else p

/-- R163: the silence deadline is reached in FOLLOWING: the leader is lost, and a boundary is made at once. -/
def Part.loseLeader (p : Part) : Part :=
  if p.regs.run = true ∧ p.swp.sync = .following ∧ reachedOpt p.swp.ms p.swp.silence = true then
    Part.ownBoundary
      (Part.raise { p with swp := { p.swp with sync := .freewheel, silence := none, nextDue := some p.swp.ms } }
        .trainSync)
  else p

/-! ### Coach-profile load (R157, R164) -/

/-- R164: the sync state of a role. -/
def syncOfRole : Role → SyncState
  | .alone => .alone
  | .lead => .leading
  | .follow => .following

/-- R165: the ms value at a past us value: the us since then, less those of the present ms, in whole ms upward
(log 40). -/
def Sweep.msAt (w : Sweep) (us : Word) : Word :=
  let since := (w.us - us).toNat
  if since ≤ w.usInMs then w.ms else w.ms - BitVec.ofNat 32 ((since - w.usInMs + 999) / 1000)

/-- R157: next boundary due from the last boundary, or the present ms value if there is none. -/
def Sweep.dueFromLast (w : Sweep) : Word :=
  match w.last with
  | none => w.ms
  | some t => t.ms + msLength w.period

/-- R157: next boundary due after a load that changes the period with a last boundary present. -/
def Sweep.periodDue (w : Sweep) : Option Word :=
  match w.last with
  | none => w.nextDue
  | some t => some (t.ms + msLength w.period)

/-- R164: the silence deadline with a new period, from the last valid pulse or the present ms value. -/
def Sweep.silenceAgain (w : Sweep) : Word :=
  match w.lastPulse with
  | none => w.ms + msLength (3 * w.period)
  | some u => w.msAt u + msLength (3 * w.period)

/-- R157, R164: the role becomes ALONE or LEAD, while STOPPED too (log 54); `before` is the sync state before the load. -/
def Sweep.takeOwn (w : Sweep) (before : SyncState) (periodChanged : Bool) (sync : SyncState) : Sweep :=
  let w := { w with sync := sync, silence := none, pulseStart := none }
  if before.watches then { w with nextDue := some w.dueFromLast }
  else if periodChanged then { w with nextDue := w.periodDue }
  else w

/-- R164: the role becomes FOLLOW. -/
def Sweep.takeFollow (w : Sweep) (run : Bool) : Sweep :=
  { w with sync := .following, nextDue := none
           silence := if run then some (w.ms + msLength (3 * w.period)) else none }

/-- R157, R164: a load that keeps the role, while STOPPED too (log 54). -/
def Sweep.keepRole (w : Sweep) (periodChanged : Bool) : Sweep :=
  if periodChanged then
    if w.sync.ownTimed then { w with nextDue := w.periodDue }
    else if w.silence.isSome then { w with silence := some w.silenceAgain }
    else w
  else w

/-- R164: the timer's own state after a load. -/
def Sweep.configure (w : Sweep) (f : Profile) (run : Bool) : Sweep :=
  let periodChanged := decide (f.period ≠ w.period)
  let w' := { w with period := f.period, wrap := f.wrap, role := f.role, outs := f.outs }
  if f.role = w.role then w'.keepRole periodChanged
  else match f.role with
    | .follow => w'.takeFollow run
    | .alone => w'.takeOwn w.sync periodChanged .alone
    | .lead => w'.takeOwn w.sync periodChanged .leading

/-- R164: the timer takes the profile handed to it; a boundary or a loss that is then already due comes at once. -/
def Part.sweepProfile (p : Part) : Part :=
  match p.swp.profiles with
  | [] => p
  | f :: rest =>
    let p := { p with swp := { (p.swp.configure f p.regs.run) with profiles := rest } }
    p.ownBoundary.loseLeader

/-! ### RUN (R164) -/

/-- R164: RUN becomes 1 at the timer: a boundary at once, or the silence deadline in FOLLOWING. -/
def Part.sweepRun (p : Part) : Part :=
  if p.swp.sync.ownTimed then Part.ownBoundary { p with swp := { p.swp with nextDue := some p.swp.ms } }
  else { p with swp := { p.swp with silence := some (p.swp.ms + msLength (3 * p.swp.period)) } }

/-- R164: RUN becomes 0 at the timer; a sweep pulse in progress runs to its end (log 70). -/
def Sweep.stop (w : Sweep) : Sweep := { w with nextDue := none, silence := none, pulseStart := none }

/-! ### Meanings -/

/-- SWEEP_BOUNDARY (R157 to R160). -/
def execSweepBoundary (s : State) : Answer := s.onPart (·.ownBoundary)

/-- SWEEP_PULSE_END (R158). -/
def execSweepPulseEnd (s : State) : Answer := s.onPart (fun p => { p with swp := p.swp.endSweepPulse })

/-- LEAD_PULSE_END (R160). -/
def execLeadPulseEnd (s : State) : Answer := s.onPart (fun p => { p with swp := p.swp.endLeadPulse })

/-- TSYNC_RISING_EDGE (R161). -/
def execTsyncRisingEdge (s : State) : Answer := s.onPart (·.tsyncRise)

/-- TSYNC_TRAILING_EDGE (R161 to R163). -/
def execTsyncTrailingEdge (s : State) : Answer := s.onPart (·.tsyncFall)

/-- SYNC_SILENCE_EXPIRY (R163). -/
def execSyncSilenceExpiry (s : State) : Answer := s.onPart (·.loseLeader)

/-- SWEEP_PROFILE_LOAD (R164). -/
def execSweepProfileLoad (s : State) : Answer := s.onPart (·.sweepProfile)

end Sys2Proof.Machine
end

