-- ==== Sys2Proof/WellFormed.lean ====
section
/-! DEFINITION. Which operands a command may carry: the ranges the spec gives them. -/

namespace Sys2Proof

/-- Every address of the operand is one of the 32-bit local memory bus (R168). -/
def Bus.wf (b : Bus) : Bool :=
  b.host.all (fun c => decide (c.1 < 2 ^ 32)) && b.late.all (fun c => decide (c.1 < 2 ^ 32))
    && b.readErrors.all (fun a => decide (a < 2 ^ 32)) && b.writeErrors.all (fun a => decide (a < 2 ^ 32))

/-- A notice id is 1 to 255 (5.1). -/
def MarkTag.wf : MarkTag → Bool
  | .approach _ => true
  | .pass _ => true
  | .notice id _ => decide (1 ≤ id) && decide (id ≤ 255)

/-- A panel address is 1 to 63 (R136). -/
def addressWf (a : Nat) : Bool := decide (1 ≤ a) && decide (a ≤ 63)

/-- A group is 0 to 3 (8.6). -/
def groupWf (g : Nat) : Bool := decide (g ≤ 3)

/-- A reply is exactly nine characters (R138). -/
def replyWf (chars : List RxChar) : Bool := decide (chars.length = 9)

/-- A reply cut short has fewer than nine (R138). -/
def shortReplyWf (chars : List RxChar) : Bool := decide (chars.length < 9)

/-- The register numbers whose writes are ignored: IDENT, and 5 to 7 (R185, 11.1). -/
def ignoredRegisterWf (n : Nat) : Bool := decide (n = 0) || (decide (5 ≤ n) && decide (n ≤ 7))

/-- The operand ranges of the command. -/
def Instr.wf : Instr → Bool
  | .armMark tag _ => tag.wf
  | .placeAtStop b => b.wf
  | .placeInLeg b => b.wf
  | .unplace b => b.wf
  | .stopListLoadComplete b => b.wf
  | .reservationLoadComplete b => b.wf
  | .amendmentSlotRead b => b.wf
  | .noticeLoadComplete b => b.wf
  | .compositionBegin b => b.wf
  | .elementBegin b => b.wf
  | .glyphDecodeEnd b => b.wf
  | .reply _ cs => replyWf cs
  | .replyTimeout _ cs => shortReplyWf cs
  | .holdLimitReached _ g => groupWf g
  | .idleCountFull _ a => addressWf a
  | .probeCountdownEnd _ a => addressWf a
  | .boundaryOperation b => b.wf
  | .switchCompletion _ b => b.wf
  | .switchRefusal _ b => b.wf
  | .statusPageWrite b _ => b.wf
  | .statusPageWriteDone b => b.wf
  | .ignoredRegisterWrite n _ => ignoredRegisterWf n
  | .powerOnReset | .wheelEdge _ | .capture | .silenceSample | .doorSample _ | .setLegDistance _
  | .reduceLegDistance _ | .clearMarks _ | .clearNotice _ | .odometerProfileLoad | .distanceAdvanced | .motionChange
  | .doorChange | .trackerMark | .trackerProfileLoad | .stopListLoadStart | .trackerOwedLoad
  | .reservationJourneyEvent | .seatMapLoad | .reservationLoadStart | .reservationOwedLoad | .add | .cancel | .clear
  | .amendInvalidAction | .noticeJourneyEvent | .noticeMark | .noticeCountdown | .noticeProfileLoad
  | .noticeLoadStart | .chimeRequest | .tonePartEnd | .composerJourneyEvent | .progressEvent | .seatModuleMark
  | .selectionMark | .composerSweepMark | .composerProfileLoad | .panelOnlineMark | .panelOffline
  | .compositionComplete | .loadExchange _ | .addressedShow _ | .broadcastShow _ | .queryExchange _ | .frameSent _
  | .cutOffQuietEnd _ | .lineSweepAgeing _ | .lineProfileLoad _ | .sweepBoundary | .sweepPulseEnd | .leadPulseEnd
  | .tsyncRisingEdge | .tsyncTrailingEdge | .syncSilenceExpiry | .sweepProfileLoad | .runSet _ | .runClear _
  | .engineReset _ | .freezeSet _ | .freezeClear _ | .windowBaseWrite _ | .attentionWrite _
  | .attentionEnableWrite _ | .quietTimeStartBit _ => true

end Sys2Proof
end

