-- ==== Sys2Proof/Machine/Registers.lean ====
section
/-! DEFINITION. The registers and the SPI target port (R168, R185, R186, R193), RUN, FREEZE and the two resets. -/

namespace Sys2Proof.Machine

/-! ### Reading (R185, 11.7) -/

/-- IDENT: family code 0x7240, revision 1. -/
def ident : Word := 0x72400001#32

/-- CONTROL as read; RESET reads 0. -/
def Registers.control (r : Registers) : Word := BitVec.ofNat 32 (bitOf r.run + 4 * bitOf r.freeze)

/-- The value of a register by its number; 5 to 7 read 0 (11.1). -/
def Part.readRegister (p : Part) (n : Nat) : Word :=
  match n with
  | 0 => ident
  | 1 => p.regs.control
  | 2 => p.regs.windowBase
  | 3 => p.rep.attention.setWidth 32
  | 4 => p.regs.attentionEnable.setWidth 32
  | _ => 0

/-! ### RUN, FREEZE and RESET (R185) -/

/-- R46, R67, R104: a load in flight, or told and not begun, is owed. -/
def oweLoad (l : LoadState) (told : Nat) : LoadState :=
  match l with
  | .loading _ _ _ => .owed
  | .owed => .owed
  | .idle => if told = 0 then .idle else .owed

/-- R46, R67, R104: the three loaders when RUN becomes 0 (log 14). -/
def Part.stopLoads (p : Part) : Part :=
  let p := (p.dropLoadPin .stopList p.trk.load).dropLoadPin .reservationTable p.res.load
  let p := p.dropLoadPin .noticeTable p.ntc.load
  { p with
    trk := { p.trk with load := oweLoad p.trk.load p.trk.told, told := 0, boundaries := 0 }
    res := { p.res with load := oweLoad p.res.load p.res.told, told := 0, boundaries := 0 }
    ntc := { p.ntc with load := oweLoad p.ntc.load p.ntc.told, told := 0, boundaries := 0 } }

/-- R104, R154: a boundary that a line has not taken is dropped (log 14). -/
def LineCtl.dropBoundaries (c : LineCtl) : LineCtl := { c with boundaries := 0 }

/-- R154: while RUN is 0 no boundary comes, so the lines have none to take (log 14). The composer keeps those that it has
not taken, since it marks at each boundary (R116) and takes marks while RUN is 0 (R114, R122). -/
def Part.dropBoundaries (p : Part) : Part :=
  { p with
    lineSeat := p.lineSeat.dropBoundaries
    lineEnd := p.lineEnd.dropBoundaries
    lineDoor := p.lineDoor.dropBoundaries }

/-- R187, R122, R164: RUN becomes 0. What has been handed to a block and not yet taken stays with it: coach profiles
(log 58), a position request (log 71). -/
def Part.stopRun (p : Part) : Part :=
  let p := { p with
    regs := { p.regs with run := false }
    swp := p.swp.stop
    ed := p.ed.abandonSwitches
    rep := { p.rep.cutPage with boundaries := 0 } }
  p.cutRun.stopLoads.stopComposition.dropBoundaries

/-- R189, R164: RUN becomes 1. -/
def Part.startRunning (p : Part) : Part := Part.sweepRun { p with regs := { p.regs with run := true } }

/-- R185: RUN as a write gives it. -/
def Part.writeRun (p : Part) (v : Bool) : Part :=
  if v = p.regs.run then p else if v then p.startRunning else p.stopRun

/-- R184: FREEZE as a write gives it; a page write in progress that it cuts off ends as R187 says for RUN (log 63). -/
def Part.writeFreeze (p : Part) (v : Bool) : Part :=
  if v = p.regs.freeze then p
  else if v then { p with regs := { p.regs with freeze := true }, rep := p.rep.cutPage }
  else { p with regs := { p.regs with freeze := false }, rep := { p.rep with pageImage := [] } }

/-- R154: a line controller after a reset: an exchange in flight is cut off, and the quiet time begins (log 41). -/
def LineCtl.afterReset (c : LineCtl) : LineCtl :=
  if c.exchange.isSome || c.quiet.isSome then { LineCtl.reset with quiet := some lineWait } else LineCtl.reset

/-- R190, R193: power-on reset. Memory and the levels of the input pins are the board's. -/
def Part.powerOn (p : Part) : Part :=
  { Part.reset with
    mem := p.mem, pins := p.pins, free := p.free, spi := p.spi.afterReset
    lineSeat := p.lineSeat.afterReset, lineEnd := p.lineEnd.afterReset, lineDoor := p.lineDoor.afterReset }

/-- R190: engine reset keeps WINDOW_BASE and ATTENTION_ENABLE. -/
def Part.engineReset (p : Part) : Part :=
  { p.powerOn with
    regs := { run := false, freeze := false, windowBase := p.regs.windowBase
              attentionEnable := p.regs.attentionEnable } }

/-! ### Writing -/

/-- R185: a write to CONTROL. -/
def Part.writeControl (p : Part) (v : Word) : Part :=
  if v.getLsbD 1 then p.engineReset else (p.writeRun (v.getLsbD 0)).writeFreeze (v.getLsbD 2)

/-- R168: a write to WINDOW_BASE. -/
def Part.writeWindowBase (p : Part) (v : Word) : Part :=
  if p.regs.run then p else { p with regs := { p.regs with windowBase := v &&& 0xFFFF0000#32 } }

/-- R186: a write to ATTENTION clears the flags whose bit is 1. -/
def Part.writeAttention (p : Part) (v : Word) : Part :=
  { p with rep := { p.rep with attention := p.rep.attention &&& ~~~(v.setWidth 10) } }

/-- R186: a write to ATTENTION_ENABLE. -/
def Part.writeAttentionEnable (p : Part) (v : Word) : Part :=
  { p with regs := { p.regs with attentionEnable := v.setWidth 10 } }

/-- 11.7: a register write by number; IDENT and 5 to 7 ignore it. -/
def Part.writeRegister (p : Part) (n : Nat) (v : Word) : Part :=
  match n with
  | 1 => p.writeControl v
  | 2 => p.writeWindowBase v
  | 3 => p.writeAttention v
  | 4 => p.writeAttentionEnable v
  | _ => p

/-- A value with a bit set. -/
def setBit (v : Word) (i : Nat) : Word := v ||| (1#32 <<< i)

/-- A value with a bit clear. -/
def clearBit (v : Word) (i : Nat) : Word := v &&& ~~~(1#32 <<< i)

/-! ### The serial form (R193) -/

/-- The value of bits, the first the most significant. -/
def bitsValue (bs : List Bool) : Nat := bs.foldl (fun n b => 2 * n + bitOf b) 0

/-- R193: the 32 data bits of a transaction: four bytes, the least significant first, each most significant bit
first. -/
def serialData (bs : List Bool) : Word :=
  BitVec.ofNat 32 (bitsValue (bs.take 8) + 256 * bitsValue ((bs.drop 8).take 8)
    + 65536 * bitsValue ((bs.drop 16).take 8) + 16777216 * bitsValue ((bs.drop 24).take 8))

/-- The bits of a byte, most significant first. -/
def byteBits (n : Nat) : List Bool := [7, 6, 5, 4, 3, 2, 1, 0].map (fun i => n.testBit i)

/-- R193: the bits that SDO sends for a register's value in bits 9 to 40. -/
def serialReply (v : Word) : List Bool := (toBytes 4 v.toNat).flatMap (fun b => byteBits b.toNat)

/-- R193: the register and value that the SDI bits of a transaction write; a transaction that ends before 40 bits writes
none, and bits after the 40th are ignored. -/
def serialWrite (bs : List Bool) : Option (Nat × Word) :=
  if bs.length < 40 ∨ bs.head? ≠ some true then none
  else some (bitsValue ((bs.drop 5).take 3), serialData ((bs.drop 8).take 32))

/-- R193: the register that the command byte of a transaction reads. -/
def serialRead (bs : List Bool) : Option Nat :=
  if bs.length < 8 ∨ bs.head? ≠ some false then none else some (bitsValue ((bs.drop 5).take 3))

/-! ### The port (R193) -/

/-- The 40 SDI bits of a transaction that writes a register; the unused bits 3 to 6 of its command byte are 0. -/
def writeBits (n : Nat) (v : Word) : List Bool := byteBits (128 + n % 8) ++ serialReply v

/-- The 40 SDI bits of a transaction that reads a register; its data bits, which the port ignores, are 0. -/
def readBits (n : Nat) : List Bool := byteBits (n % 8) ++ List.replicate 32 false

/-- SSEL goes high: the transaction ends, and so does the wait after a reset. -/
def Part.selectRise (p : Part) : Part := { p with spi := Port.idle }

/-- SSEL goes low: a transaction begins. Low already, it does not go low. -/
def Part.selectFall (p : Part) : Part :=
  if p.spi.selected then p else { p with spi := { Port.idle with selected := true } }

/-- The bit taken is acted on: a read captures its register at the 8th, a write is taken at the 40th. -/
def Part.actOnBits (p : Part) : Part :=
  if p.spi.bits.length = 8 then
    match serialRead p.spi.bits with
    | some n => { p with spi := { p.spi with captured := some (p.readRegister n) } }
    | none => p
  else if p.spi.bits.length = 40 then
    match serialWrite p.spi.bits with
    | some (n, v) => p.writeRegister n v
    | none => p
  else p

/-- A rising edge of SCK takes a bit of SDI while a transaction is in progress; bits after the 40th are ignored. -/
def Part.clockBit (p : Part) (sdi : Bool) : Part :=
  if p.spi.selected = true ∧ p.spi.awaitHigh = false ∧ p.spi.bits.length < 40 then
    Part.actOnBits { p with spi := { p.spi with bits := p.spi.bits ++ [sdi] } }
  else p

/-- The port after a falling edge of SCK: SDO changes to the captured value's bit that the host takes next, in bits 9 to
40 of a read. -/
def Port.shift (s : Port) : Port :=
  { s with sending := match s.captured with
      | none => none
      | some v => (serialReply v)[s.bits.length - 8]? }

/-- A falling edge of SCK changes SDO while a transaction is in progress. -/
def Part.clockFall (p : Part) : Part :=
  if p.spi.selected = true ∧ p.spi.awaitHigh = false then { p with spi := p.spi.shift } else p

/-- One bit of a transaction: SDO changes on the falling edge of SCK and SDI is taken on the rising edge. -/
def Part.clockCycle (p : Part) (sdi : Bool) : Part := p.clockFall.clockBit sdi

/-- What the part does with SDO: it drives it only while SSEL is low, with a level in bits 9 to 40 of a read; the manual
gives the other bits no level. -/
inductive Sdo where
  | released
  | driven (level : Option Bool)
  deriving DecidableEq, Repr

/-- SDO as the last falling edge of SCK left it. -/
def Port.sdo (s : Port) : Sdo := if s.selected then .driven s.sending else .released

/-- A whole transaction: SSEL, high before it, goes low, its bits are clocked, and SSEL goes high (log 23). -/
def Part.transact (p : Part) (bits : List Bool) : Part := (bits.foldl Part.clockCycle p.selectRise.selectFall).selectRise

/-- SDO over the bits of a transaction, each as it stands at the rising edge that takes the bit. -/
def Part.sdoBits : Part → List Bool → List Sdo
  | _, [] => []
  | p, b :: rest => p.clockFall.spi.sdo :: Part.sdoBits (p.clockCycle b) rest

/-- SDO over a whole transaction. -/
def Part.replyBits (p : Part) (bits : List Bool) : List Sdo := Part.sdoBits p.selectRise.selectFall bits

/-- A register written on the port by one whole transaction. -/
def Part.portWrite (p : Part) (n : Nat) (v : Word) : Part := p.transact (writeBits n v)

/-! ### Meanings -/

/-- POWER_ON_RESET (R190). -/
def execPowerOnReset (s : State) : Answer := s.onPart (·.powerOn)

/-- RUN_SET (R185, R189): a CONTROL write with RUN set and RESET clear. -/
def execRunSet (value : Word) (s : State) : Answer := s.onPart (·.portWrite 1 (setBit (clearBit value 1) 0))

/-- RUN_CLEAR (R185, R187): a CONTROL write with RUN and RESET clear. -/
def execRunClear (value : Word) (s : State) : Answer := s.onPart (·.portWrite 1 (clearBit (clearBit value 1) 0))

/-- ENGINE_RESET (R185, R190): a CONTROL write with RESET set. -/
def execEngineReset (value : Word) (s : State) : Answer := s.onPart (·.portWrite 1 (setBit value 1))

/-- FREEZE_SET (R184, R185): a CONTROL write with FREEZE set and RESET clear. -/
def execFreezeSet (value : Word) (s : State) : Answer := s.onPart (·.portWrite 1 (setBit (clearBit value 1) 2))

/-- FREEZE_CLEAR (R184, R185): a CONTROL write with FREEZE and RESET clear. -/
def execFreezeClear (value : Word) (s : State) : Answer := s.onPart (·.portWrite 1 (clearBit (clearBit value 1) 2))

/-- WINDOW_BASE_WRITE (R168). -/
def execWindowBaseWrite (value : Word) (s : State) : Answer := s.onPart (·.portWrite 2 value)

/-- ATTENTION_WRITE (R186). -/
def execAttentionWrite (value : Word) (s : State) : Answer := s.onPart (·.portWrite 3 value)

/-- ATTENTION_ENABLE_WRITE (R186). -/
def execAttentionEnableWrite (value : Word) (s : State) : Answer := s.onPart (·.portWrite 4 value)

/-- IGNORED_REGISTER_WRITE (R185, 11.1). A number of another register is no such write and does nothing (log 2). -/
def execIgnoredRegisterWrite (number : Nat) (value : Word) (s : State) : Answer :=
  s.onPart (fun p => if ignoredRegisterWf number then p.portWrite number value else p)

end Sys2Proof.Machine
end

