-- ==== Sys2Proof/Machine/Dispatch.lean ====
section
/-! DEFINITION. The dispatcher: one arm per command, each one call of its meaning. -/

namespace Sys2Proof.Machine

/-- The effect of a command on everything but the queue. -/
def exec (i : Instr) (s : State) : Host.Outcome State Fault Refusal :=
  match i with
  | .powerOnReset => Sys2Proof.Machine.execPowerOnReset s
  | .wheelEdge rising => Sys2Proof.Machine.execWheelEdge rising s
  | .capture => Sys2Proof.Machine.execCapture s
  | .silenceSample => Sys2Proof.Machine.execSilenceSample s
  | .doorSample level => Sys2Proof.Machine.execDoorSample level s
  | .setLegDistance mm => Sys2Proof.Machine.execSetLegDistance mm s
  | .reduceLegDistance mm => Sys2Proof.Machine.execReduceLegDistance mm s
  | .armMark tag mm => Sys2Proof.Machine.execArmMark tag mm s
  | .clearMarks owner => Sys2Proof.Machine.execClearMarks owner s
  | .clearNotice owner => Sys2Proof.Machine.execClearNotice owner s
  | .odometerProfileLoad => Sys2Proof.Machine.execOdometerProfileLoad s
  | .distanceAdvanced => Sys2Proof.Machine.execDistanceAdvanced s
  | .motionChange => Sys2Proof.Machine.execMotionChange s
  | .doorChange => Sys2Proof.Machine.execDoorChange s
  | .trackerMark => Sys2Proof.Machine.execTrackerMark s
  | .placeAtStop bus => Sys2Proof.Machine.execPlaceAtStop bus s
  | .placeInLeg bus => Sys2Proof.Machine.execPlaceInLeg bus s
  | .unplace bus => Sys2Proof.Machine.execUnplace bus s
  | .trackerProfileLoad => Sys2Proof.Machine.execTrackerProfileLoad s
  | .stopListLoadStart => Sys2Proof.Machine.execStopListLoadStart s
  | .stopListLoadComplete bus => Sys2Proof.Machine.execStopListLoadComplete bus s
  | .trackerOwedLoad => Sys2Proof.Machine.execTrackerOwedLoad s
  | .reservationJourneyEvent => Sys2Proof.Machine.execReservationJourneyEvent s
  | .seatMapLoad => Sys2Proof.Machine.execSeatMapLoad s
  | .reservationLoadStart => Sys2Proof.Machine.execReservationLoadStart s
  | .reservationLoadComplete bus => Sys2Proof.Machine.execReservationLoadComplete bus s
  | .reservationOwedLoad => Sys2Proof.Machine.execReservationOwedLoad s
  | .amendmentSlotRead bus => Sys2Proof.Machine.execAmendmentSlotRead bus s
  | .add => Sys2Proof.Machine.execAdd s
  | .cancel => Sys2Proof.Machine.execCancel s
  | .clear => Sys2Proof.Machine.execClear s
  | .amendInvalidAction => Sys2Proof.Machine.execAmendInvalidAction s
  | .noticeJourneyEvent => Sys2Proof.Machine.execNoticeJourneyEvent s
  | .noticeMark => Sys2Proof.Machine.execNoticeMark s
  | .noticeCountdown => Sys2Proof.Machine.execNoticeCountdown s
  | .noticeProfileLoad => Sys2Proof.Machine.execNoticeProfileLoad s
  | .noticeLoadStart => Sys2Proof.Machine.execNoticeLoadStart s
  | .noticeLoadComplete bus => Sys2Proof.Machine.execNoticeLoadComplete bus s
  | .chimeRequest => Sys2Proof.Machine.execChimeRequest s
  | .tonePartEnd => Sys2Proof.Machine.execTonePartEnd s
  | .composerJourneyEvent => Sys2Proof.Machine.execComposerJourneyEvent s
  | .progressEvent => Sys2Proof.Machine.execProgressEvent s
  | .seatModuleMark => Sys2Proof.Machine.execSeatModuleMark s
  | .selectionMark => Sys2Proof.Machine.execSelectionMark s
  | .composerSweepMark => Sys2Proof.Machine.execComposerSweepMark s
  | .composerProfileLoad => Sys2Proof.Machine.execComposerProfileLoad s
  | .panelOnlineMark => Sys2Proof.Machine.execPanelOnlineMark s
  | .panelOffline => Sys2Proof.Machine.execPanelOffline s
  | .compositionBegin bus => Sys2Proof.Machine.execCompositionBegin bus s
  | .elementBegin bus => Sys2Proof.Machine.execElementBegin bus s
  | .glyphDecodeEnd bus => Sys2Proof.Machine.execGlyphDecodeEnd bus s
  | .compositionComplete => Sys2Proof.Machine.execCompositionComplete s
  | .loadExchange line => Sys2Proof.Machine.execLoadExchange line s
  | .addressedShow line => Sys2Proof.Machine.execAddressedShow line s
  | .broadcastShow line => Sys2Proof.Machine.execBroadcastShow line s
  | .queryExchange line => Sys2Proof.Machine.execQueryExchange line s
  | .frameSent line => Sys2Proof.Machine.execFrameSent line s
  | .reply line chars => Sys2Proof.Machine.execReply line chars s
  | .replyTimeout line chars => Sys2Proof.Machine.execReplyTimeout line chars s
  | .cutOffQuietEnd line => Sys2Proof.Machine.execCutOffQuietEnd line s
  | .lineSweepAgeing line => Sys2Proof.Machine.execLineSweepAgeing line s
  | .holdLimitReached line group => Sys2Proof.Machine.execHoldLimitReached line group s
  | .idleCountFull line address => Sys2Proof.Machine.execIdleCountFull line address s
  | .probeCountdownEnd line address => Sys2Proof.Machine.execProbeCountdownEnd line address s
  | .lineProfileLoad line => Sys2Proof.Machine.execLineProfileLoad line s
  | .sweepBoundary => Sys2Proof.Machine.execSweepBoundary s
  | .sweepPulseEnd => Sys2Proof.Machine.execSweepPulseEnd s
  | .leadPulseEnd => Sys2Proof.Machine.execLeadPulseEnd s
  | .tsyncRisingEdge => Sys2Proof.Machine.execTsyncRisingEdge s
  | .tsyncTrailingEdge => Sys2Proof.Machine.execTsyncTrailingEdge s
  | .syncSilenceExpiry => Sys2Proof.Machine.execSyncSilenceExpiry s
  | .sweepProfileLoad => Sys2Proof.Machine.execSweepProfileLoad s
  | .boundaryOperation bus => Sys2Proof.Machine.execBoundaryOperation bus s
  | .switchCompletion kind bus => Sys2Proof.Machine.execSwitchCompletion kind bus s
  | .switchRefusal kind bus => Sys2Proof.Machine.execSwitchRefusal kind bus s
  | .statusPageWrite bus reach => Sys2Proof.Machine.execStatusPageWrite bus reach s
  | .statusPageWriteDone bus => Sys2Proof.Machine.execStatusPageWriteDone bus s
  | .runSet value => Sys2Proof.Machine.execRunSet value s
  | .runClear value => Sys2Proof.Machine.execRunClear value s
  | .engineReset value => Sys2Proof.Machine.execEngineReset value s
  | .freezeSet value => Sys2Proof.Machine.execFreezeSet value s
  | .freezeClear value => Sys2Proof.Machine.execFreezeClear value s
  | .windowBaseWrite value => Sys2Proof.Machine.execWindowBaseWrite value s
  | .attentionWrite value => Sys2Proof.Machine.execAttentionWrite value s
  | .attentionEnableWrite value => Sys2Proof.Machine.execAttentionEnableWrite value s
  | .ignoredRegisterWrite number value => Sys2Proof.Machine.execIgnoredRegisterWrite number value s
  | .quietTimeStartBit line => Sys2Proof.Machine.execQuietTimeStartBit line s

end Sys2Proof.Machine
end

