-- ==== Sys2Proof/Machine/Schedule.lean ====
section
/-! DEFINITION. What the part does of itself: the event that is due, and the tick of the time bases (log 1). -/

namespace Sys2Proof.Machine

/-- The command of a condition that holds. -/
def dueIf (b : Bool) (i : Instr) : Option Instr := if b then some i else none

/-- A list that is not empty. -/
def anyOf {α : Type} (xs : List α) : Bool := !xs.isEmpty

/-- A load is in flight. -/
def LoadState.inFlight : LoadState → Bool
  | .loading _ _ _ => true
  | .idle => false
  | .owed => false

/-- A chime's part has ended. -/
def Part.toneDue (p : Part) : Bool :=
  match p.swp.chime.playing with
  | none => false
  | some t => reached p.swp.ms t.until_

/-- Deadlines of the odometer, the sweep timer and the chime player. -/
def Part.deadlineDue (p : Part) : List (Option Instr) :=
  [ dueIf p.odo.doorStepDue (.doorSample p.pins.door),
    dueIf (reachedOpt p.swp.ms p.odo.silence) .silenceSample,
    dueIf (reachedOpt p.swp.us p.swp.sweepPulse) .sweepPulseEnd,
    dueIf (reachedOpt p.swp.us p.swp.leadPulse) .leadPulseEnd,
    dueIf p.boundaryDue .sweepBoundary,
    dueIf (p.regs.run && decide (p.swp.sync = .following) && reachedOpt p.swp.ms p.swp.silence) .syncSilenceExpiry,
    dueIf p.toneDue .tonePartEnd,
    dueIf (anyOf p.swp.chime.inbox) .chimeRequest,
    dueIf (anyOf p.swp.profiles) .sweepProfileLoad,
    dueIf (anyOf p.odo.profiles) .odometerProfileLoad ]

/-- The row of the first event that the odometer has sent the tracker. -/
def trackerEventDue : List OdoEvent → Option Instr
  | [] => none
  | .advanced _ :: _ => some .distanceAdvanced
  | .mark _ :: _ => some .trackerMark
  | .cleared :: _ => some (.clearNotice .tracker)

/-- The row of a position request that waits at the tracker. -/
def positionDue : Option PositionRequest → Option Instr
  | none => none
  | some r =>
    match r.kind with
    | .placeAtStop => some (.placeAtStop Bus.quiet)
    | .placeInLeg => some (.placeInLeg Bus.quiet)
    | .unplace => some (.unplace Bus.quiet)

/-- Events that wait at the tracker. -/
def Part.trackerDue (p : Part) : List (Option Instr) :=
  [ trackerEventDue p.trk.inbox,
    dueIf (anyOf p.trk.motionIn) .motionChange,
    dueIf (anyOf p.trk.doorIn) .doorChange,
    positionDue p.trk.request,
    dueIf (anyOf p.trk.profiles) .trackerProfileLoad,
    dueIf (decide (0 < p.trk.told)) .stopListLoadStart,
    dueIf (decide (0 < p.trk.boundaries)) .trackerOwedLoad,
    dueIf p.trk.load.inFlight (.stopListLoadComplete Bus.quiet) ]

/-- Events that wait at the reservation engine. -/
def Part.reservationsDue (p : Part) : List (Option Instr) :=
  [ dueIf (anyOf p.res.journeys) .reservationJourneyEvent,
    dueIf (anyOf p.res.profiles) .seatMapLoad,
    dueIf (decide (0 < p.res.told)) .reservationLoadStart,
    dueIf (decide (0 < p.res.boundaries)) .reservationOwedLoad,
    dueIf p.res.load.inFlight (.reservationLoadComplete Bus.quiet) ]

/-- The row of the first event that the odometer has sent the notice scheduler. -/
def noticeEventDue : List NoticeEvent → Option Instr
  | [] => none
  | .mark _ _ :: _ => some .noticeMark
  | .cleared :: _ => some (.clearNotice .notices)

/-- Events that wait at the notice scheduler. -/
def Part.noticesDue (p : Part) : List (Option Instr) :=
  [ dueIf (anyOf p.ntc.journeys) .noticeJourneyEvent,
    noticeEventDue p.ntc.inbox,
    dueIf (decide (0 < p.ntc.boundaries)) .noticeCountdown,
    dueIf (anyOf p.ntc.profiles) .noticeProfileLoad,
    dueIf (decide (0 < p.ntc.told)) .noticeLoadStart,
    dueIf p.ntc.load.inFlight (.noticeLoadComplete Bus.quiet) ]

/-- The row of the first event that the tracker has sent the composer. -/
def composerEventDue : List ComposerEvent → Option Instr
  | [] => none
  | .journey _ :: _ => some .composerJourneyEvent
  | .progress _ :: _ => some .progressEvent

/-- The row of the first health event that waits at the composer. -/
def panelEventDue : List PanelEvent → Option Instr
  | [] => none
  | .online _ _ :: _ => some .panelOnlineMark
  | .offline _ _ :: _ => some .panelOffline

/-- The next step of the composition in flight, or its beginning. -/
def Part.compositionDue (p : Part) : Option Instr :=
  match p.cmp.comp with
  | none => dueIf p.nextComposition.isSome (.compositionBegin Bus.quiet)
  | some c =>
    if c.finished then some .compositionComplete
    else if c.glyphs.isEmpty then some (.elementBegin Bus.quiet) else some (.glyphDecodeEnd Bus.quiet)

/-- Events that wait at the composer. -/
def Part.composerDue (p : Part) : List (Option Instr) :=
  [ composerEventDue p.cmp.events,
    dueIf (anyOf p.cmp.moduleMarks) .seatModuleMark,
    dueIf (anyOf p.cmp.selectionMarks) .selectionMark,
    panelEventDue p.cmp.panelEvents,
    dueIf (decide (0 < p.cmp.boundaries)) .composerSweepMark,
    dueIf (anyOf p.cmp.profiles) .composerProfileLoad,
    p.compositionDue ]

/-- The row of the work that a line's arbiter chooses. -/
def workDue (l : Line) : Option Work → Option Instr
  | none => none
  | some (.broadcast _) => some (.broadcastShow l)
  | some (.load _ _) => some (.loadExchange l)
  | some (.showOne _) => some (.addressedShow l)
  | some (.query _) => some (.queryExchange l)

/-- The end of an exchange's sending, or of its reply window. -/
def exchangeDue (l : Line) (us : Word) : Option Exchange → Option Instr
  | none => none
  | some x => if reached us x.due then (if x.awaiting then some (.replyTimeout l []) else some (.frameSent l)) else none

/-- Events that wait at a line controller. Work is begun as soon as the conditions of R145 hold, the end of a quiet time
included (log 55). -/
def Part.lineDue (p : Part) (l : Line) : List (Option Instr) :=
  [ dueIf (anyOf (p.line l).profiles) (.lineProfileLoad l),
    dueIf (decide (0 < (p.line l).boundaries)) (.lineSweepAgeing l),
    dueIf (reachedOpt p.swp.us (p.line l).quiet) (.cutOffQuietEnd l),
    exchangeDue l p.swp.us (p.line l).exchange,
    workDue l (p.chooseWork l) ]

/-- The row that ends a kind's switch in flight. -/
def Part.switchDue (p : Part) (k : Kind) : Option Instr :=
  match (p.ed.kind k).switch with
  | none => none
  | some w =>
    match p.validation k w Bus.quiet with
    | .ok _ => some (.switchCompletion k Bus.quiet)
    | .error _ => some (.switchRefusal k Bus.quiet)

/-- The row that answers an amendment. -/
def amendmentDue (a : Amendment) : Instr :=
  match a.action with
  | 1 => .add
  | 2 => .cancel
  | 3 => .clear
  | _ => .amendInvalidAction

/-- The next step of the delivery run. -/
def Part.runDue (p : Part) : Option Instr :=
  match p.ed.run with
  | none => none
  | some run =>
    match run.stage with
    | .handed a => some (amendmentDue a)
    | .reading => dueIf p.regs.run (.amendmentSlotRead Bus.quiet)
    | .answered _ => dueIf p.regs.run (.amendmentSlotRead Bus.quiet)

/-- Events that wait at the edition and report units. -/
def Part.editionDue (p : Part) : List (Option Instr) :=
  [ dueIf p.rep.writing.isSome (.statusPageWriteDone Bus.quiet),
    dueIf (decide (0 < p.rep.boundaries)) (.statusPageWrite Bus.quiet 0),
    p.runDue,
    dueIf p.operationDue (.boundaryOperation Bus.quiet),
    p.switchDue .coachProfile, p.switchDue .stopList, p.switchDue .reservationTable, p.switchDue .noticeTable,
    p.switchDue .contentSet ]

/-- The first event that is due (log 1). -/
def Part.due (p : Part) : Option Instr :=
  (p.deadlineDue ++ p.trackerDue ++ p.reservationsDue ++ p.noticesDue ++ p.composerDue ++ p.lineDue .seat
    ++ p.lineDue .end_ ++ p.lineDue .door ++ p.editionDue).findSome? id

/-- R165: the us time base advances by 1. -/
def Sweep.tick (w : Sweep) : Sweep :=
  if w.usInMs + 1 = 1000 then { w with us := w.us + 1#32, usInMs := 0, ms := w.ms + 1#32 }
  else { w with us := w.us + 1#32, usInMs := w.usInMs + 1 }

/-- R14: a ms of the 10 ms door steps. -/
def Odometer.tickMs (o : Odometer) : Odometer :=
  if o.doorMs + 1 = 10 then { o with doorMs := 0, doorStepDue := true } else { o with doorMs := o.doorMs + 1 }

/-- One us of the part's time, counted from CLK. -/
def Part.tick (p : Part) : Part :=
  { p with swp := p.swp.tick, odo := if p.swp.usInMs + 1 = 1000 then p.odo.tickMs else p.odo }

end Sys2Proof.Machine
end

