-- ==== Sys2Proof/Machine/Step.lean ====
section
/-! DEFINITION. One step of the part: the command at the front of the queue, or what is due of itself. -/

namespace Sys2Proof.Machine

/-- An empty queue: the first event that is due of itself, and where none is, a tick of the time bases (log 1). -/
def idle (s : State) : Host.Outcome State Fault Refusal :=
  match s.part.due with
  | some c => exec c s
  | none => .next { s with part := s.part.tick }

/-- One step: the command at the front of the queue runs with the queue's rest. -/
def step (s : State) : Host.Outcome State Fault Refusal :=
  match s.pending with
  | c :: rest => exec c { s with pending := rest }
  | [] => idle s

/-- The command that a word spells, put at the front of the queue. No row of the table gives bits, so no word spells
one. -/
def State.withFetchWord (s : State) (nbits w : Nat) : State :=
  match Sys2Proof.decodeTableWord nbits w with
  | none => s
  | some c => { s with pending := c :: s.pending }

end Sys2Proof.Machine
end

