-- ==== Sys2Proof/Safety.lean ====
section
/-! DEFINITION. The laws of the part that every step keeps: what the chapters say of each block's state. -/

namespace Sys2Proof.Machine

/-- The memory keeps its canonical form (log 6). -/
def Part.memoryCanonical (p : Part) : Prop := Memory.wf p.mem = true

/-- R7, R15: Leg Distance stays within 32 bits, and each owner's marks within its share. -/
def Part.odometerLaw (p : Part) : Prop :=
  p.odo.legDistance ≤ legDistanceMax ∧ (marksOf p.odo.marks .tracker).length ≤ markShare .tracker
    ∧ (marksOf p.odo.marks .notices).length ≤ markShare .notices

/-- R95: at most 8 active notices, and never the same id twice. -/
def Part.noticeLaw (p : Part) : Prop :=
  p.ntc.active.length ≤ activeLimit ∧ (p.ntc.active.map (·.id)).Nodup

/-- R114, R123: a panel stands at most once in its line's refresh list, every entry of which is a configured panel, and the
render store has eight slots. -/
def Part.composerLaw (p : Part) : Prop :=
  p.cmp.refreshSeat.Nodup ∧ p.cmp.refreshEnd.Nodup ∧ p.cmp.refreshDoor.Nodup ∧ p.cmp.slots.length = 8
    ∧ (∀ a ∈ p.cmp.refreshSeat, p.cmp.configured .seat a = true)
    ∧ (∀ a ∈ p.cmp.refreshEnd, p.cmp.configured .end_ a = true)
    ∧ ∀ a ∈ p.cmp.refreshDoor, p.cmp.configured .door a = true

/-- R168, R172: WINDOW_BASE is 64 KiB-aligned, and the take index a slot of the amendment list. -/
def Part.windowLaw (p : Part) : Prop := p.regs.windowBase &&& 0x0000FFFF#32 = 0#32 ∧ p.ed.take < 64

/-- R25: in AT_STOP(k), k is an index of the served view; in the leg states, leg k is one of it. -/
def Part.trackerLaw (p : Part) : Prop :=
  (∀ k, p.trk.phase = .atStop k → k < p.trk.view.length) ∧
    ∀ k, p.trk.phase.runLeg = some k → k + 1 < p.trk.view.length

/-- A load of this loader is reading a copy (R22, R65, R87). -/
def LoadState.reads (l : LoadState) (c : Copy) : Nat :=
  match l with
  | .loading c' _ _ => if c' = c then 1 else 0
  | .idle => 0
  | .owed => 0

/-- The load state of the block that loads a kind (chapter 10). -/
def Part.loader (p : Part) : Kind → LoadState
  | .coachProfile => .idle
  | .stopList => p.trk.load
  | .reservationTable => p.res.load
  | .noticeTable => p.ntc.load
  | .contentSet => .idle

/-- A switch in flight holds its copy's validation pin (R173). -/
def KindState.validates (s : KindState) (c : Copy) : Nat :=
  match s.switch with
  | none => 0
  | some w => if w.copy = c then 1 else 0

/-- The composition in flight holds a pin on a copy of the content set (R118). -/
def Part.composes (p : Part) (k : Kind) (c : Copy) : Nat :=
  match k, p.cmp.comp.bind (·.pin) with
  | .contentSet, some pin => if pin.copy = c then 1 else 0
  | .contentSet, none => 0
  | .coachProfile, _ => 0
  | .stopList, _ => 0
  | .reservationTable, _ => 0
  | .noticeTable, _ => 0

/-- R178: the pin count of a copy is the number of its readers: a validation, a load, a composition. -/
def Part.pinLaw (p : Part) : Prop :=
  ∀ (k : Kind) (c : Copy),
    (p.ed.kind k).pins c = (p.ed.kind k).validates c + (p.loader k).reads c + p.composes k c

/-- R187, R122, R46, R67, R104: while RUN is 0 there is no composition, no load and no switch in flight, no page write,
and no delivery run but one whose record the engine still holds. -/
def Part.stoppedLaw (p : Part) : Prop :=
  p.regs.run = false →
    p.cmp.comp = none ∧ (∀ (k : Kind) (c : Copy), (p.loader k).reads c = 0) ∧ (∀ k, (p.ed.kind k).switch = none)
      ∧ p.ed.boundary = false ∧ p.rep.writing = none ∧ p.rep.boundaries = 0
      ∧ ∀ run, p.ed.run = some run → ∃ a, run.stage = .handed a

/-- R114, R115: what the marks of one event add to the refresh lists: for each line, after what was there, the configured
panels that the event names, whose health is ONLINE or FAILING and that are not listed yet, in the order of the panels. -/
def Part.marksExactly (before after : Part) (named : PanelDraw → Prop) : Prop :=
  ∀ l : Line, ∃ new : List Nat,
    after.cmp.refresh l = before.cmp.refresh l ++ new ∧ new.Nodup ∧
      new.Sublist ((before.cmp.panels.filter (fun q => decide (q.line = l))).map (·.address)) ∧
      ∀ a, a ∈ new ↔ a ∉ before.cmp.refresh l ∧ ((before.line l).health a).drawn = true ∧
        ∃ q ∈ before.cmp.panels, q.line = l ∧ q.address = a ∧ named q

/-- The image after every pixel of a rectangle inside an area has taken the value that the function gives it, by its
column and row within the rectangle; the other pixels stand (R108). -/
def Composition.painted (before after : Composition) (area r : Rect) (f : Nat → Nat → Byte → Byte) : Prop :=
  after.image.length = before.image.length ∧
    ∀ (i : Nat) (b : Byte), before.image[i]? = some b →
      let x := i % (imageSize before.line).1
      let y := i / (imageSize before.line).1
      after.image[i]? = some (if area.has x y = true ∧ r.has x y = true then f (x - r.x) (y - r.y) b else b)

/-- R174: checks made in the order of a table: the first condition that holds gives the result, none where none holds. -/
def refusesFirst (table : List (Prop × Result)) (out : Option Result) : Prop :=
  (out = none ↔ ∀ x ∈ table, ¬ x.1) ∧
    ∀ r, out = some r ↔ ∃ (i : Nat) (c : Prop), table[i]? = some (c, r) ∧ c ∧
      ∀ (j : Nat) (y : Prop × Result), j < i → table[j]? = some y → ¬ y.1

/-- R21, R64, R86, R22: `count` records read one after another from an address, each checked against those before it; the
first that cannot be read or fails its check ends it, with the record's address. -/
def recordsInOrder {α : Type} (read : Nat → Except MemFail α) (check : List α → Nat → α → Option Result)
    (size count first : Nat) (out : Except (Nat × Reject) (List α)) : Prop :=
  ∀ rs : List α, rs.length ≤ count →
    (∀ (i : Nat) (r : α), rs[i]? = some r → read (first + size * i) = .ok r ∧ check (rs.take i) i r = none) →
    let place := first + size * rs.length
    (rs.length = count → out = .ok rs) ∧
    (rs.length < count →
      (∀ f, read place = .error f → out = .error (place, .memory f)) ∧
      ∀ r e, read place = .ok r → check rs rs.length r = some e → out = .error (place, .result e))

/-- R69 steps 1 to 5, R70 to R73: `after` is the seat `before` as an evaluation against this reference leaves it. It keeps
its old segments, resolved again and in store order (by rank, those of equal rank in the order they had), less those that
cleanup removes; the resolution part of its review flag is that of the segments before cleanup (log 46); and it shows what
R73 gives of the segments kept, OFF in ENDED, and what it showed before in UNPLACED and LOST. -/
def Reservations.evaluates (r : Reservations) (before after : Seat) : Prop :=
  after = { before with segments := after.segments, reviewResolution := after.reviewResolution
                        display := after.display, shown := after.shown } ∧
  (∃ ordered : List Segment,
    let resolved := before.segments.map (fun g => { g with resolution := resolve r.refView g.fromCode g.toCode })
    let keepsAfter (c : Nat) (g : Segment) : Bool :=
      match g.resolution.endIndex with
      | some ti => decide (c < ti)
      | none => true
    List.Perm ordered resolved ∧ ordered.Pairwise (fun x y => x.rank ≤ y.rank) ∧
    (∀ n, ordered.filter (fun g => decide (g.rank = n)) = resolved.filter (fun g => decide (g.rank = n))) ∧
    (∀ k, r.refPhase.leg ≠ none → r.refLeg = some k → after.segments = ordered.filter (keepsAfter k)) ∧
    (r.refPhase = .ended → after.segments = ordered.filter (keepsAfter (r.refView.length - 1))) ∧
    (r.refPhase = .unplaced ∨ r.refPhase = .lost → after.segments = ordered) ∧
    (after.reviewResolution = true ↔
      (∃ g ∈ ordered, g.resolution = .unresolved ∨ (∃ fi ti, g.resolution = .empty fi ti) ∨
        ∃ fi ti f t, g.resolution = .resolved fi ti f t ∧ (f = true ∨ t = true)) ∨
      ∃ (m n : Nat) (g h : Segment) (fg tg fh th : Nat), m < n ∧ ordered[m]? = some g ∧ ordered[n]? = some h ∧
        g.kind = h.kind ∧ g.span = some (fg, tg) ∧ h.span = some (fh, th) ∧ fg < th ∧ fh < tg)) ∧
  (∀ k, r.refPhase.leg ≠ none → r.refLeg = some k →
    after.display = (classify k after.segments).1 ∧
    after.shown = (classify k after.segments).2.map Segment.shown) ∧
  (r.refPhase = .ended → after.display = .off ∧ after.shown = none) ∧
  (r.refPhase = .unplaced ∨ r.refPhase = .lost → after.display = before.display ∧ after.shown = before.shown)

/-- R69, R74, R82: the seats that `named` names are evaluated, against the present view in UNPLACED and LOST; the modules of
those that show something else are marked, in store order; every other seat, and nothing else, changes. -/
def Part.evaluatesSeats (before after : Part) (named : Seat → Prop) : Prop :=
  after.res.refView = (if before.res.refPhase = .unplaced ∨ before.res.refPhase = .lost
    then before.trk.view.map (·.code) else before.res.refView) ∧
  after.res.seats.length = before.res.seats.length ∧
  (∀ (i : Nat) (q q' : Seat), before.res.seats[i]? = some q → after.res.seats[i]? = some q' →
    (named q → after.res.evaluates q q') ∧ (¬ named q → q' = q)) ∧
  after.cmp.moduleMarks = before.cmp.moduleMarks ++
    (((before.res.seats.zip after.res.seats).filter
      (fun x => decide (x.1.display ≠ x.2.display ∨ x.1.shown ≠ x.2.shown))).map (fun x => x.2.address)) ∧
  { after.res with refView := before.res.refView, seats := before.res.seats } = before.res ∧
  { after.cmp with moduleMarks := before.cmp.moduleMarks } = before.cmp ∧
  { after with res := before.res, cmp := before.cmp } = before

/-- The bus operand of a command that touches memory (log 5). -/
def busOf (c : Instr) : Option Bus :=
  match c with
  | .placeAtStop b | .placeInLeg b | .unplace b | .stopListLoadComplete b | .reservationLoadComplete b
  | .amendmentSlotRead b | .noticeLoadComplete b | .compositionBegin b | .elementBegin b | .glyphDecodeEnd b
  | .boundaryOperation b | .switchCompletion _ b | .switchRefusal _ b | .statusPageWrite b _
  | .statusPageWriteDone b => some b
  | _ => none

/-- Two parts differ at most in the composer's refresh lists. -/
def Part.sameButRefresh (before after : Part) : Prop :=
  { after with cmp := { after.cmp with
      refreshSeat := before.cmp.refreshSeat, refreshEnd := before.cmp.refreshEnd
      refreshDoor := before.cmp.refreshDoor } } = before

end Sys2Proof.Machine
end

