-- ==== Sys2Proof/Certificates/Slice0/Obligations.lean ====
section
/-! DEFINITION. The statements for the provers: one proposition each, from the rules of spec/. -/

section

open Sys2Proof Sys2Proof.Machine

/-! ### The queue, the outcomes and the resets -/

/-- Step of a state with c at the front of its queue is exec of c on that state with the queue's rest. -/
def Obligations.StepRunsFrontCommand : Prop :=
  ∀ (c : Instr) (s : State), step { s with pending := c :: s.pending } = exec c s

/-- The model's choice (log 1): on an empty queue a step runs the first event that is due. Where none is due, one us
passes: R165, the us time base advances by 1 and every 1000th us the ms time base does; R14, every 10th ms the step of the
door sample is due. Nothing else changes. -/
def Obligations.EmptyQueueRunsWhatIsDue : Prop :=
  ∀ s : State, s.pending = [] →
    (∀ c, s.part.due = some c → step s = exec c s) ∧
    (s.part.due = none →
      let w := s.part.swp
      let o := s.part.odo
      let ends : Bool := decide (w.usInMs + 1 = 1000)
      step s = .next { s with part := { s.part with
        swp := { w with us := w.us + 1#32
                        usInMs := if ends then 0 else w.usInMs + 1
                        ms := if ends then w.ms + 1#32 else w.ms }
        odo := if ends then
                 (if o.doorMs + 1 = 10 then { o with doorMs := 0, doorStepDue := true }
                  else { o with doorMs := o.doorMs + 1 })
               else o } })

/-- Every command answers a next state, and none touches the queue: none ends in a fault or a refusal, in any state, whatever of
R169 it meets. The model's choice (log 2): so it is too where the event that a command names does not stand in the state, of
which no rule speaks. -/
def Obligations.EveryCommandAnswersNext : Prop :=
  ∀ (c : Instr) (s : State), ∃ t, exec c s = .next t ∧ t.pending = s.pending

/-- R1, R190: what either reset leaves; the odometer as R1's table says, the rest as `Part.reset` lists it. Power-on
reset clears WINDOW_BASE and ATTENTION_ENABLE, engine reset keeps them; memory is the board's; an exchange cut off leaves
its line in the quiet time of R154, and R193: a transaction on the port in progress ends. The model's choices: every inbox
between the blocks is empty and the rest of the bookkeeping is at the values that logs 22 and 30 name; the levels of the
input pins, SSEL among them, are kept at power-on (log 21); ENGINE_RESET is the end of one whole write on the port, which
leaves SSEL high and the port idle (log 23); TXD rests at 1 with no character in hand and the quiet time of an exchange cut
off begins at the reset (log 41). What a reset makes of a quiet time that is running with no exchange (log 41) is left open
here: of such a line the statement says all but the quiet value. -/
def Obligations.ResetsLeaveStoppedPart : Prop :=
  ∀ (s : State) (v : Word),
    let odometer : Odometer :=
      { wheel := none, motionParams := { vMove := 30, vStop := 10, nMove := 4, nStill := 3, nDoor := 5 }
        edgeCount := 0, acc := 0, legDistance := 0, speedRef := none, speed := 0, silence := none, motion := .still
        movingRun := 0, stillRun := 0, door := .locked, doorRun := 0, workingP := none, pendingP := none, marks := []
        doorMs := 0, doorStepDue := false, profiles := [] }
    (∃ t, exec .powerOnReset s = .next t ∧ t.pending = s.pending ∧
      t.part = { Part.reset with
        odo := odometer, mem := s.part.mem, pins := s.part.pins, free := s.part.free
        spi := { selected := s.part.spi.selected, awaitHigh := s.part.spi.selected, bits := [], captured := none
                 sending := none }
        lineSeat := { LineCtl.reset with quiet := t.part.lineSeat.quiet }
        lineEnd := { LineCtl.reset with quiet := t.part.lineEnd.quiet }
        lineDoor := { LineCtl.reset with quiet := t.part.lineDoor.quiet } } ∧
      (∀ l, (s.part.line l).exchange = none → (s.part.line l).quiet = none → t.part.line l = LineCtl.reset) ∧
      ∀ l, (s.part.line l).exchange ≠ none → (t.part.line l).quiet = some 2000#32) ∧
    ∃ t u, exec (.engineReset v) s = .next t ∧ exec .powerOnReset s = .next u ∧
      t = { u with part := { u.part with
        spi := { selected := false, awaitHigh := false, bits := [], captured := none, sending := none }
        regs := { run := false, freeze := false, windowBase := s.part.regs.windowBase
                  attentionEnable := s.part.regs.attentionEnable } } }

/-! ### What every step keeps -/

/-- The laws of Safety.lean hold right after power-on reset. -/
def Obligations.LawsHoldAtReset : Prop :=
  State.reset.part.memoryCanonical ∧ State.reset.part.odometerLaw ∧ State.reset.part.trackerLaw ∧
    State.reset.part.noticeLaw ∧ State.reset.part.composerLaw ∧ State.reset.part.windowLaw ∧
    State.reset.part.stoppedLaw ∧ State.reset.part.pinLaw

/-- Every step keeps the canonical form of memory (log 6). -/
def Obligations.StepKeepsMemoryCanonical : Prop :=
  ∀ s t : State, step s = .next t → s.part.memoryCanonical → t.part.memoryCanonical

/-- Every step keeps R7 and R15 (Leg Distance within 32 bits, each owner's marks within its share), R95 (at most 8 active
notices, no id twice), R114 and R123 (no panel twice in a refresh list, eight slots), R168 and R172 (WINDOW_BASE aligned
to 64 KiB, take a slot of the list). -/
def Obligations.StepKeepsBlockLimits : Prop :=
  (∀ s t : State, step s = .next t → s.part.odometerLaw → t.part.odometerLaw) ∧
  (∀ s t : State, step s = .next t → s.part.noticeLaw → t.part.noticeLaw) ∧
  (∀ s t : State, step s = .next t → s.part.composerLaw → t.part.composerLaw) ∧
  (∀ s t : State, step s = .next t → s.part.windowLaw → t.part.windowLaw)

/-- Every step keeps R25: the current leg is one of the served view. -/
def Obligations.StepKeepsTrackerLaw : Prop :=
  ∀ s t : State, step s = .next t → s.part.trackerLaw → t.part.trackerLaw

/-- Every step keeps R178: a copy's pin count is the number of its readers. -/
def Obligations.StepKeepsPinLaw : Prop :=
  ∀ s t : State, step s = .next t → s.part.pinLaw → t.part.pinLaw

/-- Every step keeps R187: nothing is being read, validated, composed or written while RUN is 0. -/
def Obligations.StepKeepsStoppedLaw : Prop :=
  ∀ s t : State, step s = .next t → s.part.stoppedLaw → t.part.stoppedLaw

/-! ### Odometer -/

/-- R5: edges of WHEEL. -/
def Obligations.WheelEdgeCountsActiveEdges : Prop :=
  ∀ (s : State) (rising : Bool),
    (s.part.odo.wheel = none →
      exec (.wheelEdge rising) s
        = .next { s with part := { s.part with pins := { s.part.pins with wheel := rising } } }) ∧
    ∀ w, s.part.odo.wheel = some w →
      (rising ≠ w.rising →
        exec (.wheelEdge rising) s
          = .next { s with part := { s.part with pins := { s.part.pins with wheel := rising } } }) ∧
      (rising = w.rising → s.part.odo.edgeCount + 1 < w.d →
        exec (.wheelEdge rising) s
          = .next { s with part := { s.part with
              pins := { s.part.pins with wheel := rising }
              odo := { s.part.odo with edgeCount := s.part.odo.edgeCount + 1 } } }) ∧
      (rising = w.rising → w.d ≤ s.part.odo.edgeCount + 1 → exec (.wheelEdge rising) s = exec .capture s)

/-- R5, R6, R7, R10, R11, R13, R16: what a capture does to distance, the silence deadline, the speed reference and the marks,
with all that it leaves; then its speed sample and the report of a change of motion state. The detector is that of
`MotionDetectorCounts`. -/
def Obligations.CaptureUpdatesDistanceAndSpeed : Prop :=
  (∀ (s : State) (w : WheelParams) (p : Nat),
    s.part.odo.wheel = some w → s.part.odo.workingP = some p → w.d ≤ s.part.odo.edgeCount + 1 →
    ∃ t, exec .capture s = .next t ∧ t.pending = s.pending ∧
      t.part.odo.edgeCount = 0 ∧
      t.part.odo.legDistance = min (s.part.odo.legDistance + (s.part.odo.acc + w.d * w.c) / p) 4294967295 ∧
      t.part.odo.acc = (s.part.odo.acc + w.d * w.c) % p ∧
      t.part.odo.speedRef = some s.part.swp.us ∧
      t.part.odo.silence = some (s.part.swp.ms + 500#32) ∧
      t.part.odo.marks = s.part.odo.marks.filter (fun m => decide (t.part.odo.legDistance < m.distance)) ∧
      { t.part.odo with
        edgeCount := s.part.odo.edgeCount, legDistance := s.part.odo.legDistance, acc := s.part.odo.acc
        speedRef := s.part.odo.speedRef, silence := s.part.odo.silence, marks := s.part.odo.marks
        speed := s.part.odo.speed, motion := s.part.odo.motion, movingRun := s.part.odo.movingRun
        stillRun := s.part.odo.stillRun } = s.part.odo ∧
      { t.part.trk with inbox := s.part.trk.inbox, motionIn := s.part.trk.motionIn } = s.part.trk ∧
      { t.part.ntc with inbox := s.part.ntc.inbox } = s.part.ntc ∧
      { t.part with odo := s.part.odo, trk := s.part.trk, ntc := s.part.ntc, free := s.part.free
                    pins := { t.part.pins with wheel := s.part.pins.wheel } } = s.part) ∧
  (∀ (s : State) (w : WheelParams) (p : Nat),
    s.part.odo.wheel = some w → s.part.odo.workingP = some p → w.d ≤ s.part.odo.edgeCount + 1 →
    ∃ t, exec .capture s = .next t ∧
      (s.part.odo.speedRef = none →
        t.part.odo.speed = s.part.odo.speed ∧ t.part.odo.motion = s.part.odo.motion ∧
        t.part.odo.movingRun = s.part.odo.movingRun ∧ t.part.odo.stillRun = s.part.odo.stillRun) ∧
      (∀ r, s.part.odo.speedRef = some r →
        let v := min (w.d * w.c * 36000 / (p * max (s.part.swp.us - r).toNat 1)) 4000
        t.part.odo.speed = v ∧
        (t.part.odo.motion, t.part.odo.movingRun, t.part.odo.stillRun) =
          ((s.part.odo.takeSample v).motion, (s.part.odo.takeSample v).movingRun, (s.part.odo.takeSample v).stillRun)) ∧
      t.part.trk.motionIn =
        s.part.trk.motionIn ++ (if t.part.odo.motion = s.part.odo.motion then [] else [t.part.odo.motion]))

/-- R16: the marks a capture fires are those at or below the new Leg Distance; each owner receives its own in ascending
order of distance, the tracker after its distance advanced event. Marks of equal distance come in either order. -/
def Obligations.CaptureFiresReachedMarks : Prop :=
  ∀ (s : State) (w : WheelParams), s.part.odo.wheel = some w → w.d ≤ s.part.odo.edgeCount + 1 →
    ∃ t fired, exec .capture s = .next t ∧
      List.Perm fired (s.part.odo.marks.filter (fun m => decide (m.distance ≤ t.part.odo.legDistance))) ∧
      fired.Pairwise (fun x y => x.distance ≤ y.distance) ∧
      t.part.trk.inbox = s.part.trk.inbox ++ OdoEvent.advanced t.part.odo.legDistance ::
        (fired.filter (fun m => decide (m.tag.owner = .tracker))).map (fun m => OdoEvent.mark m.tag) ∧
      t.part.ntc.inbox = s.part.ntc.inbox ++ fired.filterMap noticeEventOf

/-- R12: the motion detector on one speed sample: class, runs, and change of state. -/
def Obligations.MotionDetectorCounts : Prop :=
  ∀ (o : Odometer) (v : Nat),
    let m := o.motionParams
    let moving := if m.vMove ≤ v then min (o.movingRun + 1) 31 else 0
    let still := if m.vMove ≤ v then 0 else if v < m.vStop then min (o.stillRun + 1) 7 else 0
    (o.motion = .still → m.nMove ≤ moving →
      o.takeSample v = { o with speed := v, motion := .moving, movingRun := 0, stillRun := 0 }) ∧
    (o.motion = .still → moving < m.nMove →
      o.takeSample v = { o with speed := v, movingRun := moving, stillRun := still }) ∧
    (o.motion = .moving → m.nStill ≤ still →
      o.takeSample v = { o with speed := v, motion := .still, movingRun := 0, stillRun := 0 }) ∧
    (o.motion = .moving → still < m.nStill →
      o.takeSample v = { o with speed := v, movingRun := moving, stillRun := still })

/-- R11, R13, R14: a silence sample at its deadline, and a sample of the DOOR line. The model's choices: the deadline is
judged modulo 2^32 (log 25); a DOOR_SAMPLE in the queue samples the line whether or not the part's own count of 10 ms has a
step due (log 56). -/
def Obligations.SilenceAndDoorSamples : Prop :=
  (∀ (s : State) (d : Word), s.part.odo.silence = some d → reached s.part.swp.ms d = true →
    let o := { (s.part.odo.takeSample 0) with speedRef := none, silence := some (s.part.swp.ms + 500#32) }
    exec .silenceSample s
      = .next { s with part := { s.part with
          odo := o
          trk := { s.part.trk with motionIn :=
            s.part.trk.motionIn ++ (if o.motion = s.part.odo.motion then [] else [o.motion]) } } } ∧
    o.speed = 0) ∧
  (∀ (s : State) (level : Bool),
    let o := s.part.odo
    let high := decide (o.door = .released)
    let other : Door := if o.door = .released then .locked else .released
    (level = high →
      exec (.doorSample level) s = .next { s with part := { s.part with
        odo := { o with doorRun := 0, doorStepDue := false }, pins := { s.part.pins with door := level } } }) ∧
    (level ≠ high → o.doorRun + 1 < o.motionParams.nDoor →
      exec (.doorSample level) s = .next { s with part := { s.part with
        odo := { o with doorRun := o.doorRun + 1, doorStepDue := false }
        pins := { s.part.pins with door := level } } }) ∧
    (level ≠ high → o.motionParams.nDoor ≤ o.doorRun + 1 →
      exec (.doorSample level) s = .next { s with part := { s.part with
        odo := { o with door := other, doorRun := 0, doorStepDue := false }
        pins := { s.part.pins with door := level }
        trk := { s.part.trk with doorIn := s.part.trk.doorIn ++ [other] } } }))

/-- R8, R9, R18: a set and a reduction of Leg Distance. Each removes every mark without firing it, and sends one clear notice
to each owner that had one. -/
def Obligations.SetAndReduceDropMarks : Prop :=
  (∀ (s : State) (mm : Word),
    let o := s.part.odo
    let toTracker := if o.marks.any (fun m => decide (m.tag.owner = .tracker)) then [OdoEvent.cleared] else []
    let toNotices := if o.marks.any (fun m => decide (m.tag.owner = .notices)) then [NoticeEvent.cleared] else []
    exec (.setLegDistance mm) s = .next { s with part := { s.part with
      odo := { o with legDistance := mm.toNat, acc := 0, marks := [], pendingP := none
                      workingP := if o.pendingP.isSome then o.pendingP else o.workingP }
      trk := { s.part.trk with inbox := s.part.trk.inbox ++ toTracker }
      ntc := { s.part.ntc with inbox := s.part.ntc.inbox ++ toNotices } } }) ∧
  (∀ (s : State) (mm : BitVec 40),
    let o := s.part.odo
    let toTracker := if o.marks.any (fun m => decide (m.tag.owner = .tracker)) then [OdoEvent.cleared] else []
    let toNotices := if o.marks.any (fun m => decide (m.tag.owner = .notices)) then [NoticeEvent.cleared] else []
    exec (.reduceLegDistance mm) s = .next { s with part := { s.part with
      odo := { o with marks := []
                      legDistance := if o.legDistance < mm.toNat then 0 else o.legDistance - mm.toNat }
      trk := { s.part.trk with inbox := s.part.trk.inbox ++ toTracker }
      ntc := { s.part.ntc with inbox := s.part.ntc.inbox ++ toNotices } } })

/-- R15: an arm request, for the owners' three kinds of tag: a mark at or below Leg Distance fires at once, another enters the
set while its owner's share (2 and 6) has a place, as R15's law keeps it. R17: a clear request removes every mark of its
owner, fires none, leaves the other owner's marks and sends no clear notice. R18, R28, R93: an owner takes a clear notice
without action. -/
def Obligations.ArmAndClearRequests : Prop :=
  (∀ (s : State) (mm : BitVec 40) (g : Half16) (id : Nat),
    (mm.toNat ≤ s.part.odo.legDistance →
      (∀ tag, tag = .approach g ∨ tag = .pass g →
        exec (.armMark tag mm) s = .next { s with part := { s.part with
          trk := { s.part.trk with inbox := s.part.trk.inbox ++ [.mark tag] } } }) ∧
      exec (.armMark (.notice id g) mm) s = .next { s with part := { s.part with
        ntc := { s.part.ntc with inbox := s.part.ntc.inbox ++ [.mark id g] } } }) ∧
    ∀ tag : MarkTag, s.part.odo.legDistance < mm.toNat →
      (s.part.odo.marks.filter (fun m => decide (m.tag.owner = tag.owner))).length
        < (if tag.owner = .tracker then 2 else 6) →
      exec (.armMark tag mm) s = .next { s with part := { s.part with
        odo := { s.part.odo with marks := s.part.odo.marks ++ [{ tag := tag, distance := mm.toNat }] } } }) ∧
  (∀ (s : State) (o : Owner),
    exec (.clearMarks o) s = .next { s with part := { s.part with
      odo := { s.part.odo with marks := s.part.odo.marks.filter (fun m => decide (m.tag.owner ≠ o)) } } }) ∧
  (∀ (s : State) (rest : List OdoEvent) (restN : List NoticeEvent),
    (s.part.trk.inbox = .cleared :: rest →
      exec (.clearNotice .tracker) s
        = .next { s with part := { s.part with trk := { s.part.trk with inbox := rest } } }) ∧
    (s.part.ntc.inbox = .cleared :: restN →
      exec (.clearNotice .notices) s
        = .next { s with part := { s.part with ntc := { s.part.ntc with inbox := restN } } }))

/-- R4: the first and every later coach-profile load at the odometer. The model's choices: the first load leaves the moving,
the still and the door run, though N_move, N_still and N_door may change (log 29); a profile handed over before RUN became 0
is taken while RUN is 0 as well (log 58). -/
def Obligations.ProfileLoadAtOdometer : Prop :=
  ∀ (s : State) (f : Profile) (rest : List Profile), s.part.odo.profiles = f :: rest →
    let o := s.part.odo
    (o.wheel = none →
      exec .odometerProfileLoad s = .next { s with part := { s.part with
        odo := { o with wheel := some f.wheel, motionParams := f.motion, workingP := some f.wheel.p, pendingP := none
                        edgeCount := 0, acc := 0, speedRef := none, silence := some (s.part.swp.ms + 500#32)
                        profiles := rest } } }) ∧
    ∀ w, o.wheel = some w →
      let m := o.motionParams
      let capture := f.wheel.rising ≠ w.rising ∨ f.wheel.d ≠ w.d
      let motion := f.motion.vMove ≠ m.vMove ∨ f.motion.vStop ≠ m.vStop ∨ f.motion.nMove ≠ m.nMove
        ∨ f.motion.nStill ≠ m.nStill
      exec .odometerProfileLoad s = .next { s with part := { s.part with
        odo := { o with wheel := some f.wheel, motionParams := f.motion
                        edgeCount := if capture then 0 else o.edgeCount
                        speedRef := if capture then none else o.speedRef
                        pendingP := if o.workingP = some f.wheel.p then none else some f.wheel.p
                        movingRun := if motion then 0 else o.movingRun
                        stillRun := if motion then 0 else o.stillRun
                        doorRun := if f.motion.nDoor = m.nDoor then o.doorRun else 0
                        profiles := rest } } }

/-! ### Tracker -/

/-- R27: to arm for leg k. A mark at or below Leg Distance is not in the set but is the tracker's next event. -/
def Obligations.ArmingForALeg : Prop :=
  ∀ (p : Part) (k : Nat),
    let gen := p.trk.gen + 1#16
    let near := (legAt p.trk.view k - p.trk.a) * 1000
    let far := (legAt p.trk.view k + p.trk.o) * 1000
    let others := p.odo.marks.filter (fun m => decide (m.tag.owner ≠ .tracker))
    let armed := (if p.odo.legDistance < near then [{ tag := MarkTag.approach gen, distance := near }] else [])
      ++ (if p.odo.legDistance < far then [{ tag := MarkTag.pass gen, distance := far }] else [])
    let fired := (if p.odo.legDistance < near then [] else [OdoEvent.mark (.approach gen)])
      ++ (if p.odo.legDistance < far then [] else [OdoEvent.mark (.pass gen)])
    p.armForLeg k = { p with
      odo := { p.odo with marks := others ++ armed }
      trk := { p.trk with gen := gen, passDue := false, inbox := fired ++ p.trk.inbox } }

/-- R23: the served view: the records whose mask names the portion, in list order, each with the sum of the leg lengths
from its record up to the next served one; the last served stop has no leg, which the view writes as 0. -/
def Obligations.ServedViewOfPortion : Prop :=
  ∀ (stops : List StopRecord) (q : Nat),
    servedView stops none = [] ∧
    (servedView stops (some q)).map (·.code) = (stops.filter (fun r => r.mask.testBit (q - 1))).map (·.code) ∧
    (∀ (j : Nat) (v : ServedStop), (servedView stops (some q))[j]? = some v →
      ∃ r, stops[v.index]? = some r ∧ v.code = r.code ∧ v.mapX = r.mapX ∧ v.divide = r.divide ∧ v.join = r.join ∧
        r.mask.testBit (q - 1) = true) ∧
    (∀ (j : Nat) (v w : ServedStop), (servedView stops (some q))[j]? = some v →
      (servedView stops (some q))[j + 1]? = some w →
      v.index < w.index ∧ v.legLength = (((stops.take w.index).drop v.index).map (·.legLength)).sum) ∧
    ∀ v, (servedView stops (some q)).getLast? = some v → v.legLength = 0

/-- R29: the departure from served stop k, by the motion change or the door change that completes MOVING with LOCKED. R30,
R42: the confirmed stop at the end of leg k, by the motion change, door change or distance advanced event that completes
STILL, RELEASED and the stop window; R45: that distance advanced event goes to the composer as a progress event, before
the stop's own events (the model's choice of the order: log 34). R44: what a journey event carries and to whom it goes, after
what each has waiting; the report unit reads the tracker itself (R43). -/
def Obligations.ServedStopsAreLeftAndReached : Prop :=
  (∀ (p : Part) (cause : Cause) (code : Option Nat),
    let e : JourneyEvent := { cause := cause, phase := p.trk.phase, code := code, view := p.trk.view }
    p.publish cause code = { p with
      res := { p.res with journeys := p.res.journeys ++ [e] }
      ntc := { p.ntc with journeys := p.ntc.journeys ++ [e] }
      cmp := { p.cmp with events := p.cmp.events ++ [.journey e] } }) ∧
  (∀ (s : State) (k : Nat), s.part.trk.phase = .atStop k →
    let view := s.part.trk.view
    let code := codeAt view k
    let expected := if k + 1 < view.length then legAt view k else 0
    let record : JourneyRecord :=
      { code := code, measured := s.part.odo.legDistance / 1000, expected := expected, ms := s.part.swp.ms }
    let leave (trk : Tracker) : Part :=
      if k + 1 < view.length then
        (Part.publish { s.part with trk := { trk with departure := some record, phase := .running k } } .depart
          (some code)).armForLeg k
      else
        let marks := s.part.odo.marks.filter (fun m => decide (m.tag.owner ≠ .tracker))
        Part.publish { s.part with
          odo := { s.part.odo with marks := marks }
          trk := { trk with departure := some record, passDue := false, phase := .ended } } .depart (some code)
    (∀ rest, s.part.trk.motionIn = .moving :: rest → s.part.trk.door = .locked →
      exec .motionChange s
        = .next { s with part := leave { s.part.trk with motion := .moving, motionIn := rest } }) ∧
    (∀ rest, s.part.trk.doorIn = .locked :: rest → s.part.trk.motion = .moving →
      exec .doorChange s
        = .next { s with part := leave { s.part.trk with door := .locked, doorIn := rest } })) ∧
  (∀ (s : State) (k : Nat), s.part.trk.phase.runLeg = some k →
    legAt s.part.trk.view k * 1000 ≤ s.part.odo.legDistance + s.part.trk.w * 1000 →
    let view := s.part.trk.view
    let code := codeAt view (k + 1)
    let record : JourneyRecord :=
      { code := code, measured := s.part.odo.legDistance / 1000, expected := legAt view k, ms := s.part.swp.ms }
    let others := s.part.odo.marks.filter (fun m => decide (m.tag.owner ≠ .tracker))
    let arrive (events : List ComposerEvent) (trk : Tracker) : Part :=
      ((Part.setLeg { s.part with
          odo := { s.part.odo with marks := others }
          cmp := { s.part.cmp with events := s.part.cmp.events ++ events }
          trk := { trk with arrival := some record, passDue := false, phase := .atStop (k + 1) } } 0).publish .arrive
        (some code)).publish .doors (some code)
    (∀ rest, s.part.trk.motionIn = .still :: rest → s.part.trk.door = .released →
      exec .motionChange s
        = .next { s with part := arrive [] { s.part.trk with motion := .still, motionIn := rest } }) ∧
    (∀ rest, s.part.trk.doorIn = .released :: rest → s.part.trk.motion = .still →
      exec .doorChange s
        = .next { s with part := arrive [] { s.part.trk with door := .released, doorIn := rest } }) ∧
    (∀ d rest, s.part.trk.inbox = .advanced d :: rest → s.part.trk.motion = .still → s.part.trk.door = .released →
      exec .distanceAdvanced s = .next { s with
        part := arrive [.progress s.part.odo.legDistance] { s.part.trk with inbox := rest } }))

/-- R31, R32: standing below the window: HALTED, DOUBT with JOURNEY. R32 for any Leg Distance: DOUBT to HALTED when the
doors lock at a stand, and a resume from HALTED and from DOUBT with pass due clear. HALTED to DOUBT where the doors' release
does not confirm the stop. -/
def Obligations.HaltDoubtAndResume : Prop :=
  ∀ (s : State) (k : Nat),
    let trk := s.part.trk
    let below := s.part.odo.legDistance + trk.w * 1000 < legAt trk.view k * 1000
    let doubt (trk : Tracker) : Part :=
      (Part.publish { s.part with trk := { trk with phase := .doubt k } } .doubt none).raise .journey
    let onward : Phase :=
      if (legAt trk.view k - trk.a) * 1000 ≤ s.part.odo.legDistance then .approaching k else .running k
    (∀ rest, (trk.phase = .running k ∨ trk.phase = .approaching k) → trk.motionIn = .still :: rest → below →
      (trk.door = .locked → exec .motionChange s
        = .next { s with part := Part.publish { s.part with
            trk := { trk with motion := .still, motionIn := rest, phase := .halted k } } .halt none }) ∧
      (trk.door = .released → exec .motionChange s
        = .next { s with part := doubt { trk with motion := .still, motionIn := rest } })) ∧
    (∀ rest, (trk.phase = .running k ∨ trk.phase = .approaching k) → trk.doorIn = .released :: rest →
      (trk.motion = .still → below →
        exec .doorChange s = .next { s with part := doubt { trk with door := .released, doorIn := rest } }) ∧
      (trk.motion = .moving → exec .doorChange s
        = .next { s with part := { s.part with trk := { trk with door := .released, doorIn := rest } } })) ∧
    (∀ rest, trk.phase = .halted k → trk.doorIn = .released :: rest → (below ∨ trk.motion = .moving) →
      exec .doorChange s = .next { s with part := doubt { trk with door := .released, doorIn := rest } }) ∧
    (∀ rest, trk.phase = .halted k → trk.motionIn = .moving :: rest → trk.passDue = false →
      exec .motionChange s = .next { s with part := Part.publish { s.part with
        trk := { trk with motion := .moving, motionIn := rest, phase := onward } } .resume none }) ∧
    (∀ rest, trk.phase = .doubt k → trk.doorIn = .locked :: rest →
      (trk.motion = .still → exec .doorChange s
        = .next { s with part := Part.publish { s.part with
            trk := { trk with door := .locked, doorIn := rest, phase := .halted k } } .halt none }) ∧
      (trk.motion = .moving → trk.passDue = false → exec .doorChange s
        = .next { s with part := Part.publish { s.part with
            trk := { trk with door := .locked, doorIn := rest, phase := onward } } .resume none }))

/-- R30, R35, R45: a distance advanced event that confirms no stop goes to the composer as a progress event in the leg states,
and changes nothing elsewhere. R29, R31, R32, R35: the motion and door reports that leave the tracker's state, DOORS at a
stop, and pass due taken as if the PASS mark had just been taken while MOVING. -/
def Obligations.ReportsThatKeepTheState : Prop :=
  (∀ (s : State) (d : Nat) (rest : List OdoEvent), s.part.trk.inbox = .advanced d :: rest →
    (s.part.trk.phase.runLeg = none →
      exec .distanceAdvanced s
        = .next { s with part := { s.part with trk := { s.part.trk with inbox := rest } } }) ∧
    ∀ k, s.part.trk.phase.runLeg = some k →
      (s.part.trk.motion = .moving ∨ s.part.trk.door = .locked ∨
        s.part.odo.legDistance + s.part.trk.w * 1000 < legAt s.part.trk.view k * 1000) →
      exec .distanceAdvanced s = .next { s with part := { s.part with
        trk := { s.part.trk with inbox := rest }
        cmp := { s.part.cmp with events := s.part.cmp.events ++ [.progress s.part.odo.legDistance] } } }) ∧
  (∀ s : State,
    let trk := s.part.trk
    let placeless := trk.phase = .unplaced ∨ trk.phase = .ended ∨ trk.phase = .lost
    (∀ m rest, trk.motionIn = m :: rest →
      (placeless ∨
        (∃ k, trk.phase = .atStop k ∧ (m = .still ∨ trk.door = .released)) ∨
        (∃ k, trk.phase = .doubt k ∧ (m = .moving ∨ trk.door = .locked ∨
          s.part.odo.legDistance + trk.w * 1000 < legAt trk.view k * 1000)) ∨
        (∃ k, (trk.phase = .running k ∨ trk.phase = .approaching k) ∧
          ((m = .moving ∧ trk.passDue = false) ∨ (m = .still ∧ trk.door = .locked ∧
            legAt trk.view k * 1000 ≤ s.part.odo.legDistance + trk.w * 1000)))) →
      exec .motionChange s
        = .next { s with part := { s.part with trk := { trk with motion := m, motionIn := rest } } }) ∧
    (∀ d rest, trk.doorIn = d :: rest →
      (placeless ∨ (∃ k, trk.phase = .atStop k ∧ d = .locked ∧ trk.motion = .still) ∨
        (∃ k, (trk.phase = .running k ∨ trk.phase = .approaching k) ∧ (d = .locked ∨ trk.motion = .moving))) →
      exec .doorChange s
        = .next { s with part := { s.part with trk := { trk with door := d, doorIn := rest } } }) ∧
    (∀ k rest, trk.phase = .atStop k → trk.doorIn = .released :: rest →
      let heard := { s.part with trk := { trk with door := .released, doorIn := rest } }
      exec .doorChange s = .next { s with part := heard.publish .doors (some (codeAt trk.view k)) }) ∧
    ∀ k, trk.passDue = true →
      let marked := { trk with passDue := false, phase := .running k, motion := .moving
                               inbox := .mark (.pass trk.gen) :: trk.inbox }
      (∀ rest, trk.phase = .running k ∨ trk.phase = .approaching k ∨ trk.phase = .halted k →
        trk.motionIn = .moving :: rest →
        exec .motionChange s
          = exec .trackerMark { s with part := { s.part with trk := { marked with motionIn := rest } } }) ∧
      (∀ rest, trk.phase = .doubt k → trk.doorIn = .locked :: rest → trk.motion = .moving →
        exec .doorChange s = exec .trackerMark
          { s with part := { s.part with trk := { marked with door := .locked, doorIn := rest } } }))

/-- R28: a mark event of another generation, or in a state without a leg, is discarded; APPROACH and PASS of the present
generation act by state. R33, R34, R42: the PASS mark taken on leg k while MOVING: a pass of served stop k+1, or the overrun
of the terminus. -/
def Obligations.TrackerMarksActByState : Prop :=
  (∀ (s : State) (tag : MarkTag) (rest : List OdoEvent) (g : Half16), s.part.trk.inbox = .mark tag :: rest →
    let trk := { s.part.trk with inbox := rest }
    ((tag = .approach g ∨ tag = .pass g) → (g ≠ trk.gen ∨ trk.phase.runLeg = none) →
      exec .trackerMark s = .next { s with part := { s.part with trk := trk } }) ∧
    (tag = .approach g → g = trk.gen →
      (∀ k, trk.phase = .running k →
        let entered := { s.part with trk := { trk with phase := .approaching k } }
        exec .trackerMark s = .next { s with part := entered.publish .approach none }) ∧
      (∀ k, trk.phase.runLeg = some k → trk.phase ≠ .running k →
        exec .trackerMark s
          = .next { s with part := Part.publish { s.part with trk := trk } .approach none })) ∧
    (tag = .pass g → g = trk.gen →
      (∀ k, (trk.phase = .halted k ∨ trk.phase = .doubt k) ∨
          ((trk.phase = .running k ∨ trk.phase = .approaching k) ∧ trk.motion = .still) →
        exec .trackerMark s = .next { s with part := { s.part with trk := { trk with passDue := true } } }))) ∧
  (∀ (s : State) (k : Nat) (rest : List OdoEvent),
    s.part.trk.inbox = .mark (.pass s.part.trk.gen) :: rest →
    (s.part.trk.phase = .running k ∨ s.part.trk.phase = .approaching k) → s.part.trk.motion = .moving →
    let view := s.part.trk.view
    let code := codeAt view (k + 1)
    let record : JourneyRecord :=
      { code := code, measured := s.part.odo.legDistance / 1000, expected := legAt view k, ms := s.part.swp.ms }
    let trk := { s.part.trk with inbox := rest, passed := some record }
    let left := s.part.odo.legDistance - legAt view k * 1000
    let next : Phase :=
      if (legAt view (k + 1) - trk.a) * 1000 ≤ left then .approaching (k + 1) else .running (k + 1)
    (k + 2 < view.length → ∃ p, Part.reduceLeg { s.part with trk := trk } (legAt view k * 1000) = p ∧
      p.odo.legDistance = left ∧
      let entered := { p with trk := { p.trk with phase := next } }
      exec .trackerMark s
        = .next { s with part := (entered.publish .pass (some code)).armForLeg (k + 1) }) ∧
    (view.length ≤ k + 2 →
      let marks := s.part.odo.marks.filter (fun m => decide (m.tag.owner ≠ .tracker))
      let lost := { s.part with odo := { s.part.odo with marks := marks }
                                trk := { trk with passDue := false, phase := .lost } }
      exec .trackerMark s = .next { s with part := (lost.publish .overrun (some code)).raise .journey }))

/-- R36, R37, R38, R183, R188: which answer a position request gets, and that one not answered DONE leaves the tracker as it
was; what a placement and UNPLACE do to the tracker and the odometer, the present motion and door states taken as if just
reported (log 10), with what such a report does. Then the step that takes a request: its answer is owed where RUN is 0 or
the write has not had its turn (the model's choices: a request handed over before RUN became 0 is answered while RUN is 0,
log 71; the turn, log 15; a placement in a leg judges the motion before the marks that fired at its arming, log 73); else,
with no bus error, it writes the result and kind NONE, then the sequence word, and every other byte of memory is as the host
left it. A write cut short by a bus error is that of `FullWriteShowsEditionUnit`, which `positionWrite` makes. -/
def Obligations.PositionRequestsAreAnswered : Prop :=
  ((∀ (p : Part) (r : PositionRequest),
    let view := p.trk.view
    let served := view.any (fun v => v.code == r.code)
    (r.kind = .unplace → (p.answerPosition r).2 = .done) ∧
    (r.kind ≠ .unplace → view.length < 2 → p.answerPosition r = (p, .noStops)) ∧
    (r.kind ≠ .unplace → 2 ≤ view.length → served = false → p.answerPosition r = (p, .notServed)) ∧
    (r.kind = .placeAtStop → 2 ≤ view.length → served = true → (p.answerPosition r).2 = .done) ∧
    (r.kind = .placeInLeg → 2 ≤ view.length → ∀ j, indexOfCode view r.code = some j →
      (j + 1 = view.length → p.answerPosition r = (p, .lastStop)) ∧
      (j + 1 < view.length → (p.answerPosition r).2 = .done))) ∧
  (∀ (p : Part) (code metres j : Nat), 2 ≤ p.trk.view.length → indexOfCode p.trk.view code = some j →
    let others := p.odo.marks.filter (fun m => decide (m.tag.owner ≠ .tracker))
    let dropped := { p with odo := { p.odo with marks := others }, trk := { p.trk with passDue := false } }
    let atStop := Part.setLeg { dropped with trk := { dropped.trk with phase := .atStop j } } 0
    let inLeg := p.setLeg (min (min metres (legAt p.trk.view j) * 1000) 4294967295)
    let phase : Phase :=
      if (legAt p.trk.view j - p.trk.a) * 1000 ≤ inLeg.odo.legDistance then .approaching j else .running j
    let placed := (Part.publish { inLeg with trk := { inLeg.trk with phase := phase } } .place none).armForLeg j
    let stopped := atStop.publish .place none
    ((p.answerPosition { kind := .placeAtStop, code := code, metres := metres }).1
      = Part.judgeDoor (Part.judgeMotion { stopped with
          trk := { stopped.trk with motion := p.odo.motion, door := p.odo.door } })) ∧
    (j + 1 < p.trk.view.length →
      (p.answerPosition { kind := .placeInLeg, code := code, metres := metres }).1
        = Part.judgeMotion { placed with trk := { placed.trk with motion := p.odo.motion } })) ∧
  (∀ (p : Part) (code metres : Nat),
    let others := p.odo.marks.filter (fun m => decide (m.tag.owner ≠ .tracker))
    (p.answerPosition { kind := .unplace, code := code, metres := metres }).1
      = Part.publish { p with odo := { p.odo with marks := others }
                              trk := { p.trk with passDue := false, phase := .unplaced } } .unplace none) ∧
  (∀ (s : State),
    (∀ m rest, s.part.trk.motionIn = m :: rest →
      let told := { s.part with trk := { s.part.trk with motion := m, motionIn := rest } }
      exec .motionChange s = .next { s with part := told.judgeMotion }) ∧
    ∀ d rest, s.part.trk.doorIn = d :: rest →
      let told := { s.part with trk := { s.part.trk with door := d, doorIn := rest } }
      exec .doorChange s = .next { s with part := told.judgeDoor })) ∧
  (∀ (s : State) (r : PositionRequest) (c : Instr) (bus : Bus), s.part.trk.request = some r →
    (r.kind = .placeAtStop → c = .placeAtStop bus) → (r.kind = .placeInLeg → c = .placeInLeg bus) →
    (r.kind = .unplace → c = .unplace bus) →
    let mem := Memory.writeAll (Memory.writeAll s.part.mem bus.host) bus.late
    let answer := Part.answerPosition { s.part with mem := mem, trk := { s.part.trk with request := none } } r
    let base := s.part.regs.windowBase
    (s.part.regs.run = false ∨ bus.wait = true → exec c s = .next { s with part := { answer.1 with
      ed := { answer.1.ed with owed := answer.1.ed.owed ++ [.position answer.2] } } }) ∧
    (s.part.regs.run = true → bus.wait = false →
      exec c s = .next { s with part := answer.1.headWrite bus (positionFields answer.2) }) ∧
    (s.part.regs.run = true → bus.wait = false → bus.writeErrors = [] → s.part.memoryCanonical →
    ∃ t, exec c s = .next t ∧ t.pending = s.pending ∧
      { t.part with mem := answer.1.mem, ed := answer.1.ed } = answer.1 ∧
      t.part.ed = { answer.1.ed with seq := s.part.ed.seq + 1#32 } ∧
      Memory.read t.part.mem (busAddress base 0x91) = BitVec.ofNat 8 answer.2.code ∧
      Memory.read t.part.mem (busAddress base 0x90) = 0#8 ∧
      (∀ i, i < 4 → Memory.read t.part.mem (busAddress base (4 + i))
        = BitVec.ofNat 8 (t.part.ed.seq.toNat / 256 ^ i)) ∧
      ∀ a, (∀ x, x ∈ [0x91, 0x90, 4, 5, 6, 7] → a ≠ busAddress base x) → Memory.read t.part.mem a = Memory.read mem a))

/-- R24, R40, R41: the tracker takes a profile's portion, A, W and O: with the portion unchanged, a change of A or O on a leg
re-arms for it; with the portion changed the served view is rebuilt and a remap made. Then the cases of a remap, from the
served view `old` onto the one that now stands. A profile is taken while RUN is 0 too (the model's choice, log 58). -/
def Obligations.TrackerTakesProfileAndRemaps : Prop :=
  (∀ (s : State) (f : Profile) (rest : List Profile), s.part.trk.profiles = f :: rest →
    let trk := { s.part.trk with profiles := rest, portion := some f.portion, a := f.a, w := f.w, o := f.o }
    (s.part.trk.portion = some f.portion →
      ((s.part.trk.a = f.a ∧ s.part.trk.o = f.o) ∨ s.part.trk.phase.runLeg = none →
        exec .trackerProfileLoad s = .next { s with part := { s.part with trk := trk } }) ∧
      (∀ k, s.part.trk.a ≠ f.a ∨ s.part.trk.o ≠ f.o → s.part.trk.phase.runLeg = some k →
        exec .trackerProfileLoad s = .next { s with part := Part.armForLeg { s.part with trk := trk } k })) ∧
    (s.part.trk.portion ≠ some f.portion →
      let rebuilt := { s.part with trk := { trk with view := servedView trk.stops (some f.portion) } }
      exec .trackerProfileLoad s = .next { s with part := rebuilt.remap s.part.trk.view })) ∧
  (∀ (p : Part) (old : List ServedStop),
    let others := p.odo.marks.filter (fun m => decide (m.tag.owner ≠ .tracker))
    let dropped (phase : Phase) : Part :=
      Part.publish { p with odo := { p.odo with marks := others }
                            trk := { p.trk with passDue := false, phase := phase } } .remap none
    let onLeg (j : Nat) (phase : Phase) : Part :=
      (Part.publish { p with trk := { p.trk with phase := phase } } .remap none).armForLeg j
    (p.trk.phase = .unplaced → p.remap old = p) ∧
    (p.trk.phase ≠ .unplaced → p.trk.view.length < 2 → p.remap old = (dropped .lost).raise .journey) ∧
    (2 ≤ p.trk.view.length → (p.trk.phase = .lost ∨ p.trk.phase = .ended) →
      p.remap old = p.publish .remap none) ∧
    (2 ≤ p.trk.view.length → ∀ k, p.trk.phase.leg = some k →
      (indexOfCode p.trk.view (codeAt old k) = none → p.remap old = (dropped .lost).raise .journey) ∧
      ∀ j, indexOfCode p.trk.view (codeAt old k) = some j →
        (p.trk.phase = .atStop k →
          p.remap old = Part.publish { p with trk := { p.trk with phase := .atStop j } } .remap none) ∧
        (p.trk.phase.runLeg = some k → j + 1 = p.trk.view.length → p.remap old = dropped .ended) ∧
        (j + 1 < p.trk.view.length →
          ((p.trk.phase = .running k ∨ p.trk.phase = .approaching k) →
            p.remap old = onLeg j (if (legAt p.trk.view j - p.trk.a) * 1000 ≤ p.odo.legDistance then .approaching j
                                   else .running j)) ∧
          (p.trk.phase = .halted k → p.remap old = onLeg j (.halted j)) ∧
          (p.trk.phase = .doubt k → p.remap old = onLeg j (.doubt j)))))

/-! ### Loads -/

/-- R22, R65, R66, R87, R46, R67, R178: a loader told to load while RUN is 1, or owing a load at a sweep boundary, drops the
pin of a load in flight, takes one pin on the live copy and reads it. At its end the pin is dropped; at a fault the store
stays and the memory error is reported; else the records replace the store, and the block rebuilds what rests on it (the
notice scheduler by `newNotices`, of `DistancePlanAndItsMarks`). The model's choices: the copy is read whole at the ending
step, as the host's writes have then left it (log 13); the address that a failed read or a failed check reports is that of
logs 35 and 37. R21, R64, R86, 11.3: the records of the three tables: where each field stands, the checks of one record in
their order, what their codes stand for, and the records taken one after another until the first that cannot be read or
fails; a load judges the record
count again before them. More of the model's choices: a record is read whole before its first check (log 59), bits 2 to 7 of a
stop record's flags are ignored (log 76), and a segment of the table with a stop code of 0 is refused (log 64). -/
def Obligations.LoadsPinAndReplaceTheStore : Prop :=
  (∀ (v : View) (a n : Nat),
    recordsInOrder v.stop (stopCheck n) 20 n (a + 16) (v.stops a n) ∧
    recordsInOrder v.seatEntry seatEntryCheck 52 n (a + 16) (v.seatEntries a n) ∧
    recordsInOrder v.notice noticeCheck 16 n (a + 16) (v.notices a n)) ∧
  (∀ (n : Nat) (before : List StopRecord) (i : Nat) (r : StopRecord), refusesFirst
    [ (r.code = 0, .range), (∃ q ∈ before, q.code = r.code, .duplicate), (r.mask = 0 ∨ 15 < r.mask, .range),
      (i + 1 < n ∧ (r.legLength < 1 ∨ 1000000 < r.legLength), .range), (i + 1 = n ∧ r.legLength ≠ 0, .range),
      (∃ q, before.getLast? = some q ∧ r.mapX ≤ q.mapX, .order),
      (∃ m, (r.arrival = some m ∨ r.departure = some m) ∧ 1439 < m, .range) ] (stopCheck n before i r)) ∧
  (∀ (before : List RawEntry) (i : Nat) (e : RawEntry), refusesFirst
    ([ (e.number = 0 ∨ 999 < e.number, .range), (∃ q ∈ before, q.number = e.number, .duplicate),
       (∃ q, before.getLast? = some q ∧ e.number < q.number, .order), (4 < e.count, .count) ]
      ++ e.segments.flatMap (fun g =>
        [(g.kind ≠ 1 ∧ g.kind ≠ 2, .range), (g.fromCode = 0 ∨ g.toCode = 0, .range)])) (seatEntryCheck before i e)) ∧
  (∀ (before : List RawNotice) (i : Nat) (d : RawNotice), refusesFirst
    [ (d.id = 0, .range), (∃ q ∈ before, q.id = d.id, .duplicate),
      (6 < d.trigger ∨ 4 < d.filter ∨ 3 < d.endCondition, .range), (d.filter = 3 ∧ d.filterCode = 0, .range),
      (d.targets.testBit 0 = false ∧ d.targets.testBit 1 = false, .range), (63 < d.page, .range),
      (7 < d.priority, .range), (d.duration = 0 ∨ 1023 < d.duration, .range), (1023 < d.gap, .range),
      (3 < d.tones, .range) ] (noticeCheck before i d)) ∧
  (∀ (v : View) (a : Nat),
    let present (o : Option Nat) (n : Nat) : Prop := o = if n = 65535 then none else some n
    (∀ r, v.stop a = .ok r → ∃ name short flags arrival departure,
      v.u16 a = .ok r.code ∧ v.u16 (a + 2) = .ok name ∧ present r.name name ∧ v.u16 (a + 4) = .ok short ∧
      present r.shortName short ∧ v.u8 (a + 6) = .ok r.mask ∧ v.u8 (a + 7) = .ok flags ∧
      r.divide = flags.testBit 0 ∧ r.join = flags.testBit 1 ∧ v.u32 (a + 8) = .ok r.legLength ∧
      v.u16 (a + 12) = .ok r.mapX ∧ v.u16 (a + 14) = .ok arrival ∧ present r.arrival arrival ∧
      v.u16 (a + 16) = .ok departure ∧ present r.departure departure) ∧
    (∀ e, v.seatEntry a = .ok e → v.u16 a = .ok e.number ∧ v.u8 (a + 2) = .ok e.count ∧
      (e.count ≤ 4 → e.segments.length = e.count) ∧ (4 < e.count → e.segments = []) ∧
      ∀ (i : Nat) (g : RawSegment), e.segments[i]? = some g →
        let at_ := a + 4 + 12 * i
        ∃ label note, v.u8 at_ = .ok g.kind ∧ v.u16 (at_ + 2) = .ok g.fromCode ∧ v.u16 (at_ + 4) = .ok g.toCode ∧
          v.u16 (at_ + 6) = .ok label ∧ present g.label label ∧ v.u16 (at_ + 8) = .ok note ∧ present g.note note) ∧
    (∀ d, v.notice a = .ok d → v.u8 a = .ok d.id ∧ v.u8 (a + 1) = .ok d.trigger ∧ v.u16 (a + 2) = .ok d.metres ∧
      v.u8 (a + 4) = .ok d.filter ∧ v.u8 (a + 5) = .ok d.targets ∧ v.u16 (a + 6) = .ok d.filterCode ∧
      v.u8 (a + 8) = .ok d.page ∧ v.u8 (a + 9) = .ok d.priority ∧ v.u16 (a + 10) = .ok d.duration ∧
      v.u16 (a + 12) = .ok d.gap ∧ v.u8 (a + 14) = .ok d.endCondition ∧ v.u8 (a + 15) = .ok d.tones)) ∧
  (∀ e : RawEntry, e.toEntry.number = e.number ∧ e.toEntry.segments.length = e.segments.length ∧
    ∀ (i : Nat) (g : RawSegment), e.segments[i]? = some g → ∃ kind : SegKind,
      e.toEntry.segments[i]? = some { kind := kind, fromCode := g.fromCode, toCode := g.toCode, label := g.label
                                      note := g.note, resolution := .unresolved } ∧
      (g.kind = 1 → kind = .reserved) ∧ (g.kind = 2 → kind = .blocked)) ∧
  (∀ d : RawNotice, ∃ (trigger : Trigger) (filter : StopFilter) (ending : EndCondition),
    d.toDef = { id := d.id, trigger := trigger, metres := d.metres, filter := filter, filterCode := d.filterCode
                toEnd := d.targets.testBit 0, toDoor := d.targets.testBit 1, page := d.page, priority := d.priority
                duration := d.duration, gap := d.gap, endCondition := ending, tones := d.tones } ∧
    (∀ x, [Trigger.approach, .distance, .depart, .arrive, .pass, .doors, .halt][d.trigger]? = some x → trigger = x) ∧
    (∀ x, [StopFilter.all, .divideAhead, .terminusAhead, .code, .joinAhead][d.filter]? = some x → filter = x) ∧
    ∀ x, [EndCondition.timer, .arrive, .depart, .legChange][d.endCondition]? = some x → ending = x) ∧
  (∀ (v : View) (a : Nat),
    let bad (f : LoadFault) (at_ : Nat) (cause : ErrorCause) : Prop := f = { cause := cause, address := at_ }
    let cause (e : Reject) : ErrorCause := match e with
      | .memory f => f.cause
      | .result _ => .check
    (∀ f, v.u16 (a + 12) = .error f → ∃ g, bad g a f.cause ∧
      v.loadStops a = .error g ∧ v.loadSeats a = .error g ∧ v.loadNotices a = .error g) ∧
    ∀ n, v.u16 (a + 12) = .ok n →
      (n = 0 ∨ 64 < n → ∃ g, bad g a .check ∧ v.loadStops a = .error g) ∧
      (96 < n → ∃ g, bad g a .check ∧ v.loadSeats a = .error g) ∧
      (32 < n → ∃ g, bad g a .check ∧ v.loadNotices a = .error g) ∧
      (1 ≤ n → n ≤ 64 → (∀ rs, v.stops a n = .ok rs → v.loadStops a = .ok rs) ∧
        ∀ at_ e, v.stops a n = .error (at_, e) → ∃ g, bad g at_ (cause e) ∧ v.loadStops a = .error g) ∧
      (n ≤ 96 → (∀ rs, v.seatEntries a n = .ok rs → v.loadSeats a = .ok rs) ∧
        ∀ at_ e, v.seatEntries a n = .error (at_, e) → ∃ g, bad g at_ (cause e) ∧ v.loadSeats a = .error g) ∧
      (n ≤ 32 → (∀ rs, v.notices a n = .ok rs → v.loadNotices a = .ok rs) ∧
        ∀ at_ e, v.notices a n = .error (at_, e) → ∃ g, bad g at_ (cause e) ∧ v.loadNotices a = .error g)) ∧
  (∀ (s : State) (copy : Copy) (address : Nat), s.part.regs.run = true →
    let ed := s.part.ed
    let dropped (k : KindState) (load : LoadState) : KindState :=
      match load with
      | .loading c _ _ => k.unpin c
      | .idle => k
      | .owed => k
    (ed.stops.live = some copy → ed.stops.liveAddress = some address →
      let load := LoadState.loading copy address ed.stops.liveEdition
      (s.part.trk.told ≠ 0 → exec .stopListLoadStart s = .next { s with part := { s.part with
        trk := { s.part.trk with told := s.part.trk.told - 1, load := load }
        ed := { ed with stops := (dropped ed.stops s.part.trk.load).pin copy } } }) ∧
      (s.part.trk.boundaries ≠ 0 → s.part.trk.load = .owed →
        exec .trackerOwedLoad s = .next { s with part := { s.part with
          trk := { s.part.trk with boundaries := s.part.trk.boundaries - 1, load := load }
          ed := { ed with stops := ed.stops.pin copy } } })) ∧
    (ed.reservations.live = some copy → ed.reservations.liveAddress = some address →
      let load := LoadState.loading copy address ed.reservations.liveEdition
      (s.part.res.told ≠ 0 → exec .reservationLoadStart s = .next { s with part := { s.part with
        res := { s.part.res with told := s.part.res.told - 1, load := load }
        ed := { ed with reservations := (dropped ed.reservations s.part.res.load).pin copy } } }) ∧
      (s.part.res.boundaries ≠ 0 → s.part.res.load = .owed →
        exec .reservationOwedLoad s = .next { s with part := { s.part with
          res := { s.part.res with boundaries := s.part.res.boundaries - 1, load := load }
          ed := { ed with reservations := ed.reservations.pin copy } } })) ∧
    (ed.notices.live = some copy → ed.notices.liveAddress = some address →
      let load := LoadState.loading copy address ed.notices.liveEdition
      s.part.ntc.told ≠ 0 → exec .noticeLoadStart s = .next { s with part := { s.part with
        ntc := { s.part.ntc with told := s.part.ntc.told - 1, load := load }
        ed := { ed with notices := (dropped ed.notices s.part.ntc.load).pin copy } } })) ∧
  (∀ (s : State) (bus : Bus) (copy : Copy) (address edition : Nat),
    let mem := Memory.writeAll s.part.mem bus.host
    let view : View := { mem := mem, base := s.part.regs.windowBase, bus := bus }
    let ed := s.part.ed
    (s.part.trk.load = .loading copy address edition →
      let ended := { s.part with mem := mem, ed := { ed with stops := ed.stops.unpin copy }
                                 trk := { s.part.trk with load := .idle } }
      (∀ f, view.loadStops address = .error f →
        exec (.stopListLoadComplete bus) s = .next { s with part := ended.memoryError .tracker f.address f.cause }) ∧
      ∀ stops, view.loadStops address = .ok stops →
        let stored := { ended with trk := { ended.trk with stops := stops, view := servedView stops ended.trk.portion } }
        exec (.stopListLoadComplete bus) s = .next { s with part := stored.remap s.part.trk.view }) ∧
    (s.part.res.load = .loading copy address edition →
      let ended := { s.part with mem := mem, ed := { ed with reservations := ed.reservations.unpin copy }
                                 res := { s.part.res with load := .idle } }
      (∀ f, view.loadSeats address = .error f →
        exec (.reservationLoadComplete bus) s
          = .next { s with part := ended.memoryError .reservations f.address f.cause }) ∧
      ∀ entries, view.loadSeats address = .ok entries →
        let table := entries.map RawEntry.toEntry
        let stored := { ended with res := { ended.res.loaded table edition with load := .idle } }
        exec (.reservationLoadComplete bus) s = .next { s with part := stored.evaluateAll }) ∧
    (s.part.ntc.load = .loading copy address edition →
      let ended := { s.part with mem := mem, ed := { ed with notices := ed.notices.unpin copy }
                                 ntc := { s.part.ntc with load := .idle } }
      (∀ f, view.loadNotices address = .error f →
        exec (.noticeLoadComplete bus) s = .next { s with part := ended.memoryError .notices f.address f.cause }) ∧
      ∀ table, view.loadNotices address = .ok table →
        exec (.noticeLoadComplete bus) s = .next { s with part := ended.newNotices (table.map RawNotice.toDef) }))

/-- R66 steps 2 to 5: what a reservation-table load leaves in the seat store before it is evaluated. R62: the engine takes a
profile's seat map and pages: a kept number keeps its record and takes its new place, a new number begins empty and UNKNOWN
with the latched review set; then the store is evaluated. The model's choices: a profile is taken while RUN is 0 too
(log 58); a created seat that the evaluation takes out of UNKNOWN has its module marked, as R74 has it (log 67). -/
def Obligations.SeatStoreLoads : Prop :=
  (∀ (r : Reservations) (table : List SeatEntry) (edition : Nat),
    let loaded := r.loaded table edition
    loaded.storeEdition = some edition ∧
    loaded.seats.length = r.seats.length ∧
    (∀ (i : Nat) (q : Seat), r.seats[i]? = some q → ∃ q' : Seat, loaded.seats[i]? = some q' ∧
      q' = { q with segments := q'.segments, reviewLatched := false } ∧
      (∀ e, table.find? (fun e => e.number == q.number) = some e → q'.segments = e.segments) ∧
      (table.find? (fun e => e.number == q.number) = none → q'.segments = [])) ∧
    loaded.skipped = (table.filter (fun e => decide (∀ q ∈ r.seats, q.number ≠ e.number))).length ∧
    (∀ n, loaded.lowestSkipped = some n →
      (∃ e ∈ table, e.number = n ∧ ∀ q ∈ r.seats, q.number ≠ n) ∧
      ∀ e ∈ table, (∀ q ∈ r.seats, q.number ≠ e.number) → n ≤ e.number) ∧
    (loaded.lowestSkipped = none ↔ loaded.skipped = 0) ∧
    { loaded with seats := r.seats, skipped := r.skipped, lowestSkipped := r.lowestSkipped
                  storeEdition := r.storeEdition } = r) ∧
  (∀ (s : State) (f : Profile) (rest : List Profile), s.part.res.profiles = f :: rest →
    ∃ seats : List Seat, exec .seatMapLoad s = .next { s with part := Part.evaluateAll { s.part with
        res := { s.part.res with profiles := rest, pages := some f.seatPages, seats := seats } } } ∧
      seats.length = f.seatMap.length ∧
      ∀ (i : Nat) (e : SeatPlace), f.seatMap[i]? = some e → ∃ q : Seat, seats[i]? = some q ∧
        q.number = e.number ∧ q.address = e.address ∧ q.half = e.half ∧
        (∀ old, s.part.res.seats.find? (fun o => o.number == e.number) = some old →
          q = { old with address := e.address, half := e.half }) ∧
        (s.part.res.seats.find? (fun o => o.number == e.number) = none →
          q.segments = [] ∧ q.display = .unknown ∧ q.shown = none ∧ q.reviewLatched = true))

/-! ### Reservation engine -/

/-- R68: the resolution of a segment's codes against a view. R69, R70, R72, R79: its rank in store order, fi, with an
UNRESOLVED segment after every other; its span and its end index; and the overlap of two RESOLVED segments of one kind. R73:
the display state by the first row that applies, and the shown segment the covering one (or the later one) of the smallest
fi, of two with the same fi the earlier in store order. -/
def Obligations.SeatResolutionAndDisplay : Prop :=
  (∀ (view : List Nat) (f t : Nat),
    let fi := if f ∈ view then view.idxOf f else 0
    let ti := if t ∈ view then view.idxOf t else view.length - 1
    (f ∉ view → t ∉ view → resolve view f t = .unresolved) ∧
    (f ∈ view ∨ t ∈ view →
      (fi < ti → resolve view f t = .resolved fi ti (decide (f ∉ view)) (decide (t ∉ view))) ∧
      (ti ≤ fi → resolve view f t = .empty fi ti))) ∧
  (∀ (g h : Segment) (fi ti : Nat) (f t : Bool),
    (g.resolution = .resolved fi ti f t →
      g.rank = fi ∧ g.span = some (fi, ti) ∧ g.resolution.endIndex = some ti) ∧
    (g.resolution = .empty fi ti → g.rank = fi ∧ g.span = none ∧ g.resolution.endIndex = some ti) ∧
    (g.resolution = .unresolved → g.rank = 65536 ∧ g.span = none ∧ g.resolution.endIndex = none) ∧
    (g.overlaps h = true ↔ g.kind = h.kind ∧ ∃ fg tg fh th, g.span = some (fg, tg) ∧ h.span = some (fh, th) ∧
      fg < th ∧ fh < tg)) ∧
  (∀ (c : Nat) (segments : List Segment), segments.Pairwise (fun x y => x.rank ≤ y.rank) →
    let covering (kind : SegKind) (g : Segment) : Prop :=
      g ∈ segments ∧ g.kind = kind ∧ ∃ fi ti, g.span = some (fi, ti) ∧ fi ≤ c ∧ c < ti
    let later (g : Segment) : Prop :=
      g ∈ segments ∧ g.kind = .reserved ∧ ∃ fi ti, g.span = some (fi, ti) ∧ c < fi
    let first (candidate : Segment → Prop) (g : Segment) : Prop :=
      candidate g ∧ (∀ h, candidate h → g.rank ≤ h.rank) ∧ ∃ i : Nat, segments[i]? = some g ∧
        ∀ (j : Nat) (h : Segment), j < i → segments[j]? = some h → candidate h → h.rank ≠ g.rank
    ((∃ g, covering .blocked g) →
      ∃ g, classify c segments = (.blocked, some g) ∧ first (covering .blocked) g) ∧
    ((¬ ∃ g, covering .blocked g) → (∃ g, covering .reserved g) →
      ∃ g, classify c segments = (.reservedNow, some g) ∧ first (covering .reserved) g) ∧
    ((¬ ∃ g, covering .blocked g) → (¬ ∃ g, covering .reserved g) → (∃ g, later g) →
      ∃ g, classify c segments = (.reservedLater, some g) ∧ first later g) ∧
    ((¬ ∃ g, covering .blocked g) → (¬ ∃ g, covering .reserved g) → (¬ ∃ g, later g) →
      classify c segments = (.free, none)))

/-- R69 to R74: the evaluation of the whole seat store, at a journey event, a table load and a seat map load: each seat is
evaluated against the reference, the modules of those that show something else are marked, and nothing else changes. At a
journey event the reference becomes the event's first, but a view read in UNPLACED or LOST is the present one. A seat keeps
its old segments, resolved again and in store order, less those that cleanup removes: none in UNPLACED and LOST, else those
whose end index is at or below the reference leg, or below the last served stop in ENDED. The resolution part of its review
flag is that of the segments before cleanup (the model's reading of R69's order of steps: log 46). It shows what R73 gives of
the segments kept, OFF in ENDED, and what it showed before in UNPLACED and LOST. -/
def Obligations.JourneyEventReevaluatesSeats : Prop :=
  (∀ p : Part, p.evaluatesSeats p.evaluateAll (fun _ => True)) ∧
  ∀ (s : State) (e : JourneyEvent) (rest : List JourneyEvent), s.part.res.journeys = e :: rest →
    let leg := match e.phase.leg with
      | some k => some k
      | none => s.part.res.refLeg
    let referred : Part := { s.part with res := { s.part.res with
      journeys := rest, refPhase := e.phase, refLeg := leg, refView := e.view.map (·.code) } }
    exec .reservationJourneyEvent s = .next { s with part := referred.evaluateAll } ∧
    ∃ t, exec .reservationJourneyEvent s = .next t ∧ t.pending = s.pending ∧
      t.part.res.journeys = rest ∧ t.part.res.refPhase = e.phase ∧
      (∀ k, e.phase.leg = some k → t.part.res.refLeg = some k) ∧
      (e.phase.leg = none → t.part.res.refLeg = s.part.res.refLeg) ∧
      t.part.res.refView =
        (if e.phase = .unplaced ∨ e.phase = .lost then s.part.trk.view.map (·.code) else e.view.map (·.code)) ∧
      t.part.res.seats.length = s.part.res.seats.length ∧
      (∀ (i : Nat) (q q' : Seat), s.part.res.seats[i]? = some q → t.part.res.seats[i]? = some q' →
        t.part.res.evaluates q q') ∧
      t.part.cmp.moduleMarks = s.part.cmp.moduleMarks ++
        (((s.part.res.seats.zip t.part.res.seats).filter
          (fun x => decide (x.1.display ≠ x.2.display ∨ x.1.shown ≠ x.2.shown))).map (fun x => x.2.address)) ∧
      { t.part.res with journeys := s.part.res.journeys, refPhase := s.part.res.refPhase, refLeg := s.part.res.refLeg
                        refView := s.part.res.refView, seats := s.part.res.seats } = s.part.res ∧
      { t.part.cmp with moduleMarks := s.part.cmp.moduleMarks } = s.part.cmp ∧
      { t.part with res := s.part.res, cmp := s.part.cmp } = s.part

/-- R79, R82: ADD of a record of the store edition to a seat of the store, and the evaluation of the seat that an amendment
has changed: that seat alone is evaluated, as R69 evaluates each seat of the store, and its module marked where it shows
something else. The new segment is resolved against the present reference view; the overlap with it is judged by the
resolutions that the seat's segments hold from their last evaluation (the model's choice, log 45). R188: after RUN has
become 0, or where it has cut the delivery run off, the answer is owed; so it is where RUN is 1 again (the model's choice,
log 72). -/
def Obligations.AddPutsOneSegment : Prop :=
  (∀ (p : Part) (n : Nat), p.evaluatesSeats (p.evaluateSeat n) (fun q => q.number = n)) ∧
  ∀ (s : State) (run : DeliveryRun) (a : Amendment) (kind : SegKind) (q : Seat),
    s.part.ed.run = some run → run.stage = .handed a → a.action = 1 →
    s.part.res.load = .idle → s.part.res.storeEdition = some a.edition →
    (a.kind = 1 ∧ kind = .reserved) ∨ (a.kind = 2 ∧ kind = .blocked) →
    s.part.res.seats.find? (fun x => x.number == a.seat) = some q →
    let seen := s.part.readReference
    let new : Segment := { kind := kind, fromCode := a.fromCode, toCode := a.toCode, label := a.label, note := a.note
                           resolution := resolve seen.res.refView a.fromCode a.toCode }
    let kept := q.segments.filter (fun g => !new.overlaps g)
    let expires := ∃ c ti, seen.res.cleanupLeg = some c ∧ new.resolution.endIndex = some ti ∧ ti ≤ c
    let answered (p : Part) (r : AmendResult) : Answer :=
      let owed := OwedWrite.amend (run.list + 32 * s.part.ed.take) r
      .next { s with part := { p with ed := if run.cut = false ∧ s.part.regs.run = true
        then { p.ed with run := some { run with stage := .answered r } }
        else { p.ed with run := none, owed := p.ed.owed ++ [owed] } } }
    (new.resolution = .unresolved → exec .add s = answered (seen.raise .amend) .refusedUnresolved) ∧
    (new.resolution ≠ .unresolved → expires → exec .add s = answered (seen.raise .amend) .expired) ∧
    (new.resolution ≠ .unresolved → ¬ expires → 4 ≤ kept.length →
      exec .add s = answered
        ((seen.changeSeat q.number (fun x => { x with reviewLatched := true })).raise .amend) .refusedFull) ∧
    (new.resolution ≠ .unresolved → ¬ expires → kept.length < 4 →
      let changed := Part.evaluateSeat (seen.changeSeat q.number
        (fun x => { x with segments := kept ++ [new], reviewLatched := false })) q.number
      (kept.length = q.segments.length → exec .add s = answered changed .applied) ∧
      (kept.length ≠ q.segments.length → exec .add s = answered (changed.raise .amend) .replaced))

/-- R78, R80, R81, R82: CANCEL, CLEAR and an action that is not named, of a record of the store edition. R76, R77, R181, R188:
whatever a record asks, it is held while the store cannot judge it, which ends the run and raises nothing, and is STALE
where its edition is below the store's; every answer after RUN has become 0 is owed. The seat is evaluated as
`AddPutsOneSegment` says. R181, 11.3: the delivery run's accesses: a slot read hands its record on, field by field, or ends
the run at a bus error; an answered record has its result byte and then the take write,
and the run goes on to the next slot until take reaches post or 16 records are taken. The answer that is owed is also that
of a run cut off whose record the engine answers after RUN is 1 again (the model's choice, log 72). -/
def Obligations.AmendmentsAreAnsweredAndTaken : Prop :=
  (∀ bs : List Byte, bs.length = 32 →
    let at_ (i : Nat) : Nat := (bs.getD i 0).toNat
    let two (i : Nat) : Nat := at_ i + 256 * at_ (i + 1)
    let reference (n : Nat) : Option Nat := if n = 65535 then none else some n
    amendmentOf bs = { edition := two 0 + 65536 * two 2, seat := two 4, action := at_ 6, kind := at_ 7
                       fromCode := two 8, toCode := two 10, label := reference (two 12), note := reference (two 14) }) ∧
  ((∀ (s : State) (run : DeliveryRun) (a : Amendment),
    s.part.ed.run = some run → run.stage = .handed a →
    s.part.res.load = .idle → s.part.res.storeEdition = some a.edition →
    let answered (p : Part) (r : AmendResult) : Answer :=
      let owed := OwedWrite.amend (run.list + 32 * s.part.ed.take) r
      .next { s with part := { p with ed := if run.cut = false ∧ s.part.regs.run = true
        then { p.ed with run := some { run with stage := .answered r } }
        else { p.ed with run := none, owed := p.ed.owed ++ [owed] } } }
    let without (q : Seat) (left : List Segment) : Part :=
      Part.evaluateSeat (s.part.changeSeat q.number (fun x => { x with segments := left, reviewLatched := false }))
        q.number
    let seat := s.part.res.seats.find? (fun x => x.number == a.seat)
    (a.action ≠ 1 → a.action ≠ 2 → a.action ≠ 3 →
      exec .amendInvalidAction s = answered (s.part.raise .amend) .invalid) ∧
    (a.action = 1 → a.kind ≠ 1 → a.kind ≠ 2 → exec .add s = answered (s.part.raise .amend) .invalid) ∧
    (a.action = 2 → a.kind ≠ 1 → a.kind ≠ 2 → exec .cancel s = answered (s.part.raise .amend) .invalid) ∧
    (seat = none → a.action = 3 → exec .clear s = answered (s.part.raise .amend) .unknownSeat) ∧
    (seat = none → a.action = 1 → (a.kind = 1 ∨ a.kind = 2) →
      exec .add s = answered (s.part.raise .amend) .unknownSeat) ∧
    (seat = none → a.action = 2 → (a.kind = 1 ∨ a.kind = 2) →
      exec .cancel s = answered (s.part.raise .amend) .unknownSeat) ∧
    ∀ q, seat = some q →
      (a.action = 3 → exec .clear s = answered (without q []) .applied) ∧
      (∀ kind, a.action = 2 → (a.kind = 1 ∧ kind = SegKind.reserved) ∨ (a.kind = 2 ∧ kind = SegKind.blocked) →
        let match_ (g : Segment) : Bool :=
          decide (g.kind = kind) && decide (g.fromCode = a.fromCode) && decide (g.toCode = a.toCode)
        ((∃ g ∈ q.segments, match_ g = true) →
          exec .cancel s = answered (without q (q.segments.filter (fun g => !match_ g))) .applied) ∧
        ((∀ g ∈ q.segments, match_ g = false) →
          exec .cancel s = answered (s.part.raise .amend) .notFound))) ∧
  (∀ (s : State) (run : DeliveryRun) (a : Amendment) (c : Instr),
    s.part.ed.run = some run → run.stage = .handed a →
    (c = .add ∧ a.action = 1) ∨ (c = .cancel ∧ a.action = 2) ∨ (c = .clear ∧ a.action = 3) ∨
      (c = .amendInvalidAction ∧ a.action ≠ 1 ∧ a.action ≠ 2 ∧ a.action ≠ 3) →
    ((s.part.res.load ≠ .idle ∨ s.part.res.storeEdition = none ∨ ∃ e, s.part.res.storeEdition = some e ∧ e < a.edition) →
      exec c s = .next { s with part := { s.part with ed := { s.part.ed with run := none } } }) ∧
    (∀ e, s.part.res.load = .idle → s.part.res.storeEdition = some e → a.edition < e → run.cut = false →
      s.part.regs.run = true →
      exec c s = .next { s with part := { (s.part.raise .amend) with
        ed := { s.part.ed with run := some { run with stage := .answered .stale } } } }) ∧
    (∀ e, s.part.res.load = .idle → s.part.res.storeEdition = some e → a.edition < e →
      run.cut = true ∨ s.part.regs.run = false →
      let owed := OwedWrite.amend (run.list + 32 * s.part.ed.take) .stale
      exec c s = .next { s with part := { (s.part.raise .amend) with
        ed := { s.part.ed with run := none, owed := s.part.ed.owed ++ [owed] } } }))) ∧
  (∀ (s : State) (bus : Bus) (run : DeliveryRun), s.part.ed.run = some run → s.part.regs.run = true →
    let mem := Memory.writeAll s.part.mem bus.host
    let landed := { s.part with mem := mem }
    let slot := run.list + 32 * s.part.ed.take
    (run.stage = .reading →
      (∀ f, (landed.view bus).bytes slot 32 = .error f →
        exec (.amendmentSlotRead bus) s = .next { s with part :=
          ({ landed with ed := { s.part.ed with run := none } } : Part).memoryError .edition f.address f.cause }) ∧
      (∀ bs, (landed.view bus).bytes slot 32 = .ok bs →
        exec (.amendmentSlotRead bus) s = .next { s with part := { landed with
          ed := { s.part.ed with run := some { run with stage := .handed (amendmentOf bs) } } } })) ∧
    (∀ r, run.stage = .answered r → bus.writeErrors = [] → s.part.memoryCanonical →
      ((s.part.ed.take + 1) % 64 = run.post ∨ 16 ≤ run.count + 1) →
      ∃ t, exec (.amendmentSlotRead bus) s = .next t ∧ t.pending = s.pending ∧
        t.part.ed = { s.part.ed with run := none, take := (s.part.ed.take + 1) % 64, seq := s.part.ed.seq + 1#32 } ∧
        { t.part with mem := s.part.mem, ed := s.part.ed } = s.part ∧
        ∀ b, (∀ x, x ∈ [slot + 16, 0x8E, 4, 5, 6, 7] → b ≠ busAddress s.part.regs.windowBase x) →
          Memory.read t.part.mem b = Memory.read mem b) ∧
    (∀ r, run.stage = .answered r → bus.writeErrors = [] → s.part.memoryCanonical →
      (s.part.ed.take + 1) % 64 ≠ run.post → run.count + 1 < 16 →
      ∃ p : Part, exec (.amendmentSlotRead bus) s
          = exec (.amendmentSlotRead { bus with host := [] }) { s with part := p } ∧
        p.ed = { s.part.ed with run := some { run with count := run.count + 1, stage := .reading }
                                take := (s.part.ed.take + 1) % 64, seq := s.part.ed.seq + 1#32 } ∧
        { p with mem := s.part.mem, ed := s.part.ed } = s.part ∧
        ∀ b, (∀ x, x ∈ [slot + 16, 0x8E, 4, 5, 6, 7] → b ≠ busAddress s.part.regs.windowBase x) →
          Memory.read p.mem b = Memory.read mem b) ∧
    (∀ r, run.stage = .answered r → bus.writeErrors = [] → s.part.memoryCanonical →
      (∀ x, x ∈ [0x8E, 4, 5, 6, 7] → busAddress s.part.regs.windowBase (slot + 16)
        ≠ busAddress s.part.regs.windowBase x) →
      ∃ t, exec (.amendmentSlotRead bus) s = .next t ∧
        Memory.read t.part.mem (busAddress s.part.regs.windowBase (slot + 16)) = BitVec.ofNat 8 r.code ∧
        Memory.read t.part.mem (busAddress s.part.regs.windowBase 0x8E) = BitVec.ofNat 8 ((s.part.ed.take + 1) % 64)))

/-! ### Notice scheduler and chime player -/

/-- R91 with R98, R89, R90, R92, R94: a journey event at the scheduler, step by step. In UNPLACED and LOST the list is
emptied and the plan dropped; else entries whose end condition is met go, the plan is built, kept or dropped, and the
definitions triggered are activated in notice-store order; at the end both selections are recomputed. A plan that a journey
event builds starts with no id fired on its leg (the model's reading of R92 step 5: log 47). -/
def Obligations.NoticeJourneyEventInOrder : Prop :=
  ∀ (s : State) (e : JourneyEvent) (rest : List JourneyEvent), s.part.ntc.journeys = e :: rest →
    let before := s.part.ntc.refPhase
    let others := s.part.odo.marks.filter (fun m => decide (m.tag.owner ≠ .notices))
    let ntc := { s.part.ntc with journeys := rest, refPhase := e.phase, refView := e.view }
    let ended (x : NoticeEntry) : Bool :=
      match noticeOf ntc.store x.id with
      | none => false
      | some d => decide ((d.endCondition = .arrive ∧ e.cause = .arrive) ∨ (d.endCondition = .depart ∧ e.cause = .depart)
          ∨ (d.endCondition = .legChange ∧ e.phase.leg ≠ before.leg))
    let kept := { ntc with active := ntc.active.filter (fun x => !ended x) }
    let unplanned (n : Notices) : Part :=
      { s.part with ntc := { n with plan := none, planGen := n.planGen + 1#16, legFired := [] }
                    odo := { s.part.odo with marks := others } }
    let triggered := ntc.store.filter
      (fun d => decide (triggerOfCause e.cause = some d.trigger) && filterPasses d e.view (judgedStop e))
    ((e.phase = .unplaced ∨ e.phase = .lost) →
      exec .noticeJourneyEvent s = .next { s with part := (unplanned { ntc with active := [] }).reselect }) ∧
    ((e.phase = .ended ∨ ∃ k, e.phase = .atStop k) →
      exec .noticeJourneyEvent s
        = .next { s with part := ((unplanned kept).activateEach triggered).reselect }) ∧
    (∀ k, e.phase.runLeg = some k → before.runLeg = some k → e.cause ≠ .place → e.cause ≠ .remap →
      let same := { s.part with ntc := kept }
      exec .noticeJourneyEvent s = .next { s with part := (same.activateEach triggered).reselect }) ∧
    (∀ k, e.phase.runLeg = some k → before.runLeg ≠ some k ∨ e.cause = .place ∨ e.cause = .remap →
      let built := Part.buildPlan { s.part with ntc := kept } k []
      exec .noticeJourneyEvent s = .next { s with part := (built.activateEach triggered).reselect })

/-- R89, R90: the trigger that each cause matches, its judged stop, and the stop filters on it. R92: the distance plan of
leg k holds the DISTANCE definitions whose filter passes for stop k+1, each at max(0, L_k − m) × 1000 mm, by ascending
distance and in store order where equal, FIRED where its id has fired on the leg. To build it, the plan generation goes up
by 1, the scheduler's marks are cleared and the first six WAITING triggers are armed. To arm up to n: each of the first n
WAITING triggers becomes ARMED; one at or below Leg Distance fires at once, as an event to come, and any other enters the
Mark Set under its id and the plan generation. R93: a mark of the plan's generation marks its trigger FIRED, activates its
notice and arms the next WAITING trigger; any other mark is discarded. R88: a new notice store drops the entries whose id it
does not hold, puts the rest in order of its priorities (those of equal priority in the order they had), rebuilds a plan
that is present with the ids that have fired on the leg, and recomputes the selections. -/
def Obligations.DistancePlanAndItsMarks : Prop :=
  (∀ (store : List NoticeDef) (view : List ServedStop) (k : Nat) (fired : List Nat),
    let plan := planFor store view k fired
    let base := (store.filter (fun d => decide (d.trigger = .distance) && filterPasses d view (some (k + 1)))).map
      (fun d => { id := d.id, distance := (legAt view k - d.metres) * 1000
                  status := if fired.contains d.id then TriggerStatus.fired else TriggerStatus.waiting : PendingTrigger })
    plan.Perm base ∧ plan.Pairwise (fun x y => x.distance ≤ y.distance) ∧
      ∀ mm, plan.filter (fun t => decide (t.distance = mm)) = base.filter (fun t => decide (t.distance = mm))) ∧
  (∀ (p : Part) (k : Nat) (fired : List Nat), ∃ plan, (p.buildPlan k fired).ntc.plan = some plan ∧
    (p.buildPlan k fired).ntc.planGen = p.ntc.planGen + 1#16 ∧
    plan.map (·.id) = (planFor p.ntc.store p.ntc.refView k fired).map (·.id) ∧
    (plan.filter (fun t => decide (t.status = .armed))).map (·.id)
      = (((planFor p.ntc.store p.ntc.refView k fired).filter (fun t => decide (t.status = .waiting))).take 6).map (·.id)) ∧
  (∀ (p : Part) (k : Nat) (fired : List Nat),
    let cleared := { p with
      ntc := { p.ntc with planGen := p.ntc.planGen + 1#16, legFired := fired }
      odo := { p.odo with marks := p.odo.marks.filter (fun m => decide (m.tag.owner ≠ Owner.notices)) } }
    p.buildPlan k fired = cleared.armTriggers 6 (planFor p.ntc.store p.ntc.refView k fired)) ∧
  (∀ (p : Part) (n : Nat) (plan : List PendingTrigger),
    let arms := (plan.filter (fun t => decide (t.status = .waiting))).take n
    let far := arms.filter (fun t => decide (p.odo.legDistance < t.distance))
    let near := arms.filter (fun t => decide (t.distance ≤ p.odo.legDistance))
    let gen := p.ntc.planGen
    let own := p.odo.marks.filter (fun m => decide (m.tag.owner = .notices))
    own.length + far.length ≤ 6 →
    ∃ plan' : List PendingTrigger,
      p.armTriggers n plan = { p with
        ntc := { p.ntc with plan := some plan', inbox := p.ntc.inbox ++ near.map (fun t => NoticeEvent.mark t.id gen) }
        odo := { p.odo with marks :=
          p.odo.marks ++ far.map (fun t => { tag := .notice t.id gen, distance := t.distance : Mark }) } } ∧
      plan'.length = plan.length ∧
      ∀ (i : Nat) (t : PendingTrigger), plan[i]? = some t → plan'[i]? = some
        (if t.status = .waiting ∧ ((plan.take i).filter (fun u => decide (u.status = .waiting))).length < n
         then { t with status := .armed } else t)) ∧
  (∀ (s : State) (id : Nat) (gen : Half16) (rest : List NoticeEvent), s.part.ntc.inbox = .mark id gen :: rest →
    let taken := { s.part with ntc := { s.part.ntc with inbox := rest } }
    ((s.part.ntc.plan = none ∨ gen ≠ s.part.ntc.planGen) → exec .noticeMark s = .next { s with part := taken }) ∧
    ∀ plan, s.part.ntc.plan = some plan → gen = s.part.ntc.planGen →
      let fired := plan.map (fun t => if t.id = id then { t with status := TriggerStatus.fired } else t)
      let before := s.part.ntc.legFired
      let noted := { taken with ntc := { taken.ntc with
        legFired := if id ∈ before then before else before ++ [id] } }
      (noticeOf s.part.ntc.store id = none →
        exec .noticeMark s = .next { s with part := (noted.armTriggers 1 fired).reselect }) ∧
      ∀ d, noticeOf s.part.ntc.store id = some d →
        exec .noticeMark s = .next { s with part := ((noted.activate d).armTriggers 1 fired).reselect }) ∧
  (∀ (p : Part) (store : List NoticeDef),
    let kept := p.ntc.active.filter (fun x => store.any (fun d => d.id == x.id))
    let prio := entryPriority store
    ∃ active : List NoticeEntry, List.Perm active kept ∧ active.Pairwise (fun x y => prio y ≤ prio x) ∧
      (∀ n, active.filter (fun x => decide (prio x = n)) = kept.filter (fun x => decide (prio x = n))) ∧
      let stored := { p with ntc := { p.ntc with store := store, active := active } }
      (p.ntc.plan = none → p.newNotices store = stored.reselect) ∧
      ∀ k, p.ntc.plan ≠ none → p.ntc.refPhase.runLeg = some k →
        p.newNotices store = (stored.buildPlan k p.ntc.legFired).reselect) ∧
  ((triggerOfCause .approach = some .approach ∧ triggerOfCause .depart = some .depart ∧
      triggerOfCause .arrive = some .arrive ∧ triggerOfCause .pass = some .pass ∧
      triggerOfCause .doors = some .doors ∧ triggerOfCause .halt = some .halt ∧
      ∀ c, c ∈ [Cause.overrun, .place, .unplace, .remap, .doubt, .resume] → triggerOfCause c = none) ∧
    ∀ e : JourneyEvent,
      ((e.cause = .approach ∨ e.cause = .halt ∨ e.cause = .depart) → judgedStop e = e.phase.leg.map (· + 1)) ∧
      ((e.cause = .arrive ∨ e.cause = .doors) → judgedStop e = e.phase.leg) ∧
      ∀ code, e.cause = .pass → e.code = some code → judgedStop e = indexOfCode e.view code) ∧
  (∀ (d : NoticeDef) (view : List ServedStop) (judged : Option Nat),
    (d.filter = .all → filterPasses d view judged = true) ∧
    (d.filter ≠ .all → judged = none → filterPasses d view judged = false) ∧
    ∀ (j : Nat) (q : ServedStop), judged = some j → view[j]? = some q →
      (d.filter = .divideAhead → filterPasses d view judged = q.divide) ∧
      (d.filter = .joinAhead → filterPasses d view judged = q.join) ∧
      (d.filter = .terminusAhead → filterPasses d view judged = decide (j + 1 = view.length)) ∧
      (d.filter = .code → filterPasses d view judged = decide (q.code = d.filterCode)))

/-- R96, R101: activation: a re-trigger keeps its place; below eight entries a new one goes after the last of equal or
greater priority; at eight it displaces the last entry where its priority is greater, and is dropped where it is not. A
notice that comes up sends its tones. R97, R104: a sweep boundary at the scheduler: every countdown goes down by 1 and
those that reach 0 act by phase and gap, in list order; then the selections are recomputed, and an owed load starts. R99,
R85: the selection of each group is its first SHOWING entry, else DEFAULT; a profile gives the default pages. The model's
choices: of two selection marks of one event that of END goes first (log 60); a profile is taken while RUN is 0 too
(log 58). -/
def Obligations.NoticesAreActivatedCountedAndSelected : Prop :=
  (∀ (p : Part) (d : NoticeDef),
    let prio := entryPriority p.ntc.store
    let active := p.ntc.active
    let entry : NoticeEntry := { id := d.id, phase := .showing, countdown := d.duration }
    let tones := if d.tones = 0 then [] else [d.tones]
    let inserted (l : List NoticeEntry) : List NoticeEntry :=
      l.takeWhile (fun x => decide (d.priority ≤ prio x)) ++ entry :: l.dropWhile (fun x => decide (d.priority ≤ prio x))
    let withList (l : List NoticeEntry) (ts : List Nat) : Part :=
      { p with ntc := { p.ntc with active := l }
               swp := { p.swp with chime := { p.swp.chime with inbox := p.swp.chime.inbox ++ ts } } }
    (∀ e, active.find? (fun x => x.id == d.id) = some e →
      p.activate d = withList (active.map (fun x => if x.id = d.id then { x with phase := .showing, countdown := d.duration }
                                                    else x)) (if e.phase = .resting then tones else [])) ∧
    (active.find? (fun x => x.id == d.id) = none →
      (active.length < 8 → p.activate d = withList (inserted active) tones) ∧
      (8 ≤ active.length → ∀ last, active.getLast? = some last →
        (prio last < d.priority → ∃ q, q = withList (inserted active.dropLast) tones ∧
          p.activate d = Part.raise { q with ntc := { q.ntc with lastDropped := some last.id } } .noticeDrop) ∧
        (d.priority ≤ prio last →
          p.activate d = Part.raise { p with ntc := { p.ntc with lastDropped := some d.id } } .noticeDrop)))) ∧
  ((∀ s : State, s.part.ntc.boundaries ≠ 0 →
    let ntc := s.part.ntc
    let after (x : NoticeEntry) : List NoticeEntry :=
      match noticeOf ntc.store x.id with
      | none => [x]
      | some d =>
        if 1 < x.countdown then [{ x with countdown := x.countdown - 1 }]
        else match x.phase with
          | .showing => if d.gap = 0 then [] else [{ x with phase := .resting, countdown := d.gap }]
          | .resting => [{ x with phase := .showing, countdown := d.duration }]
    let tones (x : NoticeEntry) : List Nat :=
      match noticeOf ntc.store x.id with
      | none => []
      | some d => if x.countdown ≤ 1 ∧ x.phase = .resting ∧ d.tones ≠ 0 then [d.tones] else []
    let chime := { s.part.swp.chime with inbox := s.part.swp.chime.inbox ++ ntc.active.flatMap tones }
    let counted := Part.reselect { s.part with
      ntc := { ntc with boundaries := ntc.boundaries - 1, active := ntc.active.flatMap after }
      swp := { s.part.swp with chime := chime } }
    (ntc.load ≠ .owed ∨ s.part.regs.run = false →
      exec .noticeCountdown s = .next { s with part := counted }) ∧
    (ntc.load = .owed → s.part.regs.run = true →
      exec .noticeCountdown s = .next { s with part := counted.startNoticeLoad })) ∧
  (∀ p : Part,
    let shows (g : NoticeGroup) (x : NoticeEntry) : Bool :=
      match noticeOf p.ntc.store x.id with
      | none => false
      | some d => decide (x.phase = .showing) && (match g with
        | .endGroup => d.toEnd
        | .doorGroup => d.toDoor)
    let page (x : NoticeEntry) : Option Nat := (noticeOf p.ntc.store x.id).map (·.page)
    let chosen (g : NoticeGroup) (default : Option Nat) : Selection :=
      match p.ntc.active.find? (shows g) with
      | none => { id := none, page := default }
      | some x => { id := some x.id, page := page x }
    let e := chosen .endGroup p.ntc.defaultEnd
    let d := chosen .doorGroup p.ntc.defaultDoor
    let marks := (if e = p.ntc.selEnd then [] else [NoticeGroup.endGroup])
      ++ (if d = p.ntc.selDoor then [] else [NoticeGroup.doorGroup])
    p.reselect = { p with ntc := { p.ntc with selEnd := e, selDoor := d }
                          cmp := { p.cmp with selectionMarks := p.cmp.selectionMarks ++ marks } }) ∧
  (∀ (s : State) (f : Profile) (rest : List Profile), s.part.ntc.profiles = f :: rest →
    let default (sel : Selection) (page : Nat) : Selection := if sel.id = none then { sel with page := some page } else sel
    exec .noticeProfileLoad s = .next { s with part := { s.part with ntc := { s.part.ntc with
      profiles := rest, defaultEnd := some f.endPage, defaultDoor := some f.doorPage
      selEnd := default s.part.ntc.selEnd f.endPage, selDoor := default s.part.ntc.selDoor f.doorPage } } }))

/-- R102: the chime player: a request starts a chime of tones of 150 ms on and 150 ms off where it is IDLE, else becomes the
pending request; the end of a part turns the output off, begins the next tone, or ends the chime, and a pending request
then starts. The model's choices: the end of a part is judged modulo 2^32 (log 25); a part's length
counts from the end of the part before it, and a pending chime's from the ms value at which the end is taken (log 42). -/
def Obligations.ChimePlayerPlays : Prop :=
  ∀ s : State,
    let chime := s.part.swp.chime
    let ms := s.part.swp.ms
    let withChime (c : Chime) : Answer := .next { s with part := { s.part with swp := { s.part.swp with chime := c } } }
    (∀ n rest, chime.inbox = n :: rest →
      (chime.playing = none → exec .chimeRequest s
        = withChime { chime with inbox := rest, playing := some { left := n, on := true, until_ := ms + 150#32 } }) ∧
      (chime.playing ≠ none → exec .chimeRequest s = withChime { chime with inbox := rest, pending := some n })) ∧
    ∀ t, chime.playing = some t → reached ms t.until_ = true →
      (t.on = true → exec .tonePartEnd s
        = withChime { chime with playing := some { t with on := false, until_ := t.until_ + 150#32 } }) ∧
      (t.on = false → 1 < t.left → exec .tonePartEnd s
        = withChime { chime with playing := some { left := t.left - 1, on := true, until_ := t.until_ + 150#32 } }) ∧
      (t.on = false → t.left ≤ 1 →
        (chime.pending = none → exec .tonePartEnd s = withChime { chime with playing := none }) ∧
        ∀ n, chime.pending = some n → exec .tonePartEnd s
          = withChime { chime with playing := some { left := n, on := true, until_ := ms + 150#32 }, pending := none })

/-! ### Composer -/

/-- R49 to R52 and R54: the stages of route position arithmetic on the position record, in exact integers. The model's choice
(log 49): above 15 a weight 16 - fx or 16 - fy of the filter counts as 0; only an fy of a copy changed since its validation
lies there. -/
def Obligations.RoutePositionArithmetic : Prop :=
  (∀ (r : PositionRecord) (k near far len b : Nat), r.xNear = some near → r.xFar = some far → r.len = some len →
    (r.phase = .running k ∨ r.phase = .approaching k ∨ r.phase = .halted k ∨ r.phase = .doubt k) →
    r.stage2 = some (near + (far - near) * min (r.distance / 1000) len / len) ∧
    r.lit b = b * min (r.distance / 1000) len / len ∧
    (near ≤ far → 1 ≤ len → ∀ m, r.stage2 = some m → near ≤ m ∧ m ≤ far) ∧ (1 ≤ len → r.lit b ≤ b)) ∧
  (∀ (r : PositionRecord) (k b : Nat), r.phase = .atStop k → r.stage2 = r.xNear ∧ r.lit b = 0) ∧
  (∀ (r : PositionRecord) (b : Nat), r.phase = .ended → r.stage2 = r.xNear ∧ r.lit b = b) ∧
  (∀ (r : PositionRecord) (b : Nat), r.phase = .unplaced ∨ r.phase = .lost → r.stage2 = none ∧ r.lit b = 0) ∧
  (∀ wp ws m : Nat, scrollOffset none wp ws = 0 ∧ (ws ≤ wp → scrollOffset (some m) wp ws = 0) ∧
    (wp < ws → scrollOffset (some m) wp ws
      = if m < 8 * wp then 0 else if 16 * (ws - wp) < m - 8 * wp then 16 * (ws - wp) else m - 8 * wp)) ∧
  (∀ ul ur ll lr fx fy : Nat,
    filterPixel ul ur ll lr fx fy = (ul * ((16 - fx) * (16 - fy)) + ur * (fx * (16 - fy)) + ll * ((16 - fx) * fy)
      + lr * (fx * fy) + 128) / 256 ∧
    (fx ≤ 15 → fy ≤ 15 →
      min (min ul ur) (min ll lr) ≤ filterPixel ul ur ll lr fx fy ∧
      filterPixel ul ur ll lr fx fy ≤ max (max ul ur) (max ll lr)))

/-- R47, R48, R59, R60, R115: the composer takes a journey event or a progress event: the position record, its marker, and
the panels that the change marks. -/
def Obligations.PositionRecordFollowsTheTracker : Prop :=
  (∀ (s : State) (e : JourneyEvent) (rest : List ComposerEvent), s.part.cmp.events = .journey e :: rest →
    ∃ t, exec .composerJourneyEvent s = .next t ∧ t.pending = s.pending ∧
      t.part.cmp.position.phase = e.phase ∧ t.part.cmp.position.marker = t.part.cmp.position.stage2 ∧
      (∀ k, e.phase.runLeg = some k →
        t.part.cmp.position.xNear = e.view[k]?.map (·.mapX) ∧ t.part.cmp.position.xFar = e.view[k + 1]?.map (·.mapX) ∧
        t.part.cmp.position.len = e.view[k]?.map (·.legLength) ∧
        t.part.cmp.position.distance = s.part.odo.legDistance) ∧
      (e.phase.runLeg = none → t.part.cmp.position.xFar = none ∧ t.part.cmp.position.len = none ∧
        t.part.cmp.position.distance = 0) ∧
      (∀ k, e.phase = .atStop k → t.part.cmp.position.xNear = e.view[k]?.map (·.mapX)) ∧
      (e.phase = .ended → t.part.cmp.position.xNear = e.view.getLast?.map (·.mapX)) ∧
      (e.phase = .unplaced ∨ e.phase = .lost → t.part.cmp.position.xNear = none) ∧
      s.part.marksExactly t.part (fun q => q.line ≠ .seat ∨
        (t.part.cmp.position.marker ≠ s.part.cmp.position.marker ∧ q.strip = true) ∨
        ∃ b ∈ q.bars, s.part.cmp.position.lit b ≠ t.part.cmp.position.lit b) ∧
      Part.sameButRefresh { s.part with cmp := { s.part.cmp with events := rest, position := t.part.cmp.position } }
        t.part) ∧
  (∀ (s : State) (mm : Nat) (rest : List ComposerEvent), s.part.cmp.events = .progress mm :: rest →
    let r := s.part.cmp.position
    (r.phase.runLeg = none ∨ mm < r.distance → exec .progressEvent s
      = .next { s with part := { s.part with cmp := { s.part.cmp with events := rest } } }) ∧
    (∀ k, r.phase.runLeg = some k → r.distance ≤ mm →
      let moved := { r with distance := mm }
      let after := { moved with marker := moved.stage2 }
      ∃ t, exec .progressEvent s = .next t ∧ t.pending = s.pending ∧ t.part.cmp.position = after ∧
        s.part.marksExactly t.part (fun q => (after.marker ≠ r.marker ∧ q.strip = true) ∨
          ∃ b ∈ q.bars, r.lit b ≠ after.lit b) ∧
        Part.sameButRefresh { s.part with cmp := { s.part.cmp with events := rest, position := after } } t.part))

/-- R114, R115, R116, R74, R99: the marks of a seat module, of a selection, of a panel that becomes ONLINE and of a sweep
boundary: each configured panel named enters its line's refresh list once, at the tail, while it is ONLINE or FAILING. A
sweep boundary tests the sweep number as it stands when the composer takes it (the model's choice, log 68). -/
def Obligations.MarksEnterRefreshListsOnce : Prop :=
  (∀ (s : State) (a : Nat) (rest : List Nat), s.part.cmp.moduleMarks = a :: rest →
    let drawn := ((s.part.lineSeat.health a) = .online ∨ (s.part.lineSeat.health a) = .failing) ∧
      s.part.cmp.panels.any (fun q => decide (q.line = .seat) && q.address == a) = true
    let list := s.part.cmp.refreshSeat ++ if a ∉ s.part.cmp.refreshSeat ∧ drawn then [a] else []
    exec .seatModuleMark s = .next { s with part := { s.part with
      cmp := { s.part.cmp with moduleMarks := rest, refreshSeat := list } } }) ∧
  (∀ (s : State) (l : Line) (a : Nat) (rest : List PanelEvent), s.part.cmp.panelEvents = .online l a :: rest →
    let cmp := { s.part.cmp with panelEvents := rest }
    let drawn := ((s.part.line l).health a = .online ∨ (s.part.line l).health a = .failing) ∧
      s.part.cmp.panels.any (fun q => decide (q.line = l) && q.address == a) = true
    let list := s.part.cmp.refresh l ++ if a ∉ s.part.cmp.refresh l ∧ drawn then [a] else []
    exec .panelOnlineMark s = .next { s with part := { s.part with cmp := cmp.setRefresh l list } }) ∧
  (∀ (s : State) (g : NoticeGroup) (rest : List NoticeGroup), s.part.cmp.selectionMarks = g :: rest →
    ∃ t, exec .selectionMark s = .next t ∧ t.pending = s.pending ∧
      s.part.marksExactly t.part (fun q => (g = .endGroup ∧ q.line = .end_) ∨ (g = .doorGroup ∧ q.line = .door)) ∧
      Part.sameButRefresh { s.part with cmp := { s.part.cmp with selectionMarks := rest } } t.part) ∧
  (∀ s : State, s.part.cmp.boundaries ≠ 0 →
    ∃ t, exec .composerSweepMark s = .next t ∧ t.pending = s.pending ∧
      s.part.marksExactly t.part (fun q => q.moving = true ∧ s.part.swp.number ≠ 0) ∧
      Part.sameButRefresh { s.part with cmp := { s.part.cmp with boundaries := s.part.cmp.boundaries - 1 } } t.part)

/-- R122, R115: a panel that goes OFFLINE, and one that a profile removes, loses its slots, its refresh place and its
composition: the composer becomes IDLE, its slot FREE, its decode state empty (R134), and its pin on the content set is
dropped; nothing else of the edition unit changes, and with no such composition nothing of it does. A profile keeps the
record of every panel that stays configured, begins one for every other, in the order of lines and addresses, and marks every
configured panel; it is taken while RUN is 0 too (the model's choice, log 58). -/
def Obligations.PanelsOutAreReleased : Prop :=
  let released (p t : Part) (out : Line → Nat → Prop) : Prop :=
    let lost (i : Nat) : Prop := ∃ c, p.cmp.comp = some c ∧ out c.line c.address ∧ c.slot = i
    (∀ c, p.cmp.comp = some c → out c.line c.address → t.cmp.comp = none ∧
      t.cmp.decoder = { p.cmp.decoder with buffer := [], bitPos := 0, pixelIndex := 0, ink := false } ∧
      (c.pin = none → t.ed = p.ed) ∧
      ∀ pin, c.pin = some pin → t.ed = { p.ed with content := p.ed.content.unpin pin.copy }) ∧
    ((∀ c, p.cmp.comp = some c → ¬ out c.line c.address) →
      t.cmp.comp = p.cmp.comp ∧ t.cmp.decoder = p.cmp.decoder ∧ t.ed = p.ed) ∧
    t.cmp.slots.length = p.cmp.slots.length ∧
    (∀ (i : Nat) (x : Slot), p.cmp.slots[i]? = some x →
      (((∃ l a, x.state.panel = some (l, a) ∧ out l a) ∨ lost i) → t.cmp.slots[i]? = some Slot.freed) ∧
      ((∀ l a, x.state.panel = some (l, a) → ¬ out l a) → ¬ lost i → t.cmp.slots[i]? = some x)) ∧
    { t.cmp with comp := p.cmp.comp, decoder := p.cmp.decoder, slots := p.cmp.slots, refreshSeat := p.cmp.refreshSeat
                 refreshEnd := p.cmp.refreshEnd, refreshDoor := p.cmp.refreshDoor, panels := p.cmp.panels
                 panelEvents := p.cmp.panelEvents, profiles := p.cmp.profiles } = p.cmp ∧
    { t with cmp := p.cmp, ed := p.ed } = p
  (∀ (s : State) (l : Line) (a : Nat) (rest : List PanelEvent), s.part.cmp.panelEvents = .offline l a :: rest →
    ∃ t, exec .panelOffline s = .next t ∧ t.pending = s.pending ∧ t.part.cmp.panelEvents = rest ∧
      (∀ c, s.part.cmp.comp = some c → c.line = l → c.address = a → t.part.cmp.comp = none) ∧
      (∀ c, s.part.cmp.comp = some c → (c.line ≠ l ∨ c.address ≠ a) →
        t.part.cmp.comp = some c ∧ t.part.ed = s.part.ed) ∧
      (∀ x ∈ t.part.cmp.slots, x.state.panel ≠ some (l, a)) ∧
      (∀ (i : Nat) (x : Slot), s.part.cmp.slots[i]? = some x → x.state.panel ≠ some (l, a) →
        (∀ c, s.part.cmp.comp = some c → c.slot ≠ i) → t.part.cmp.slots[i]? = some x) ∧
      t.part.cmp.refresh l = (s.part.cmp.refresh l).filter (fun b => decide (b ≠ a)) ∧
      (∀ l', l' ≠ l → t.part.cmp.refresh l' = s.part.cmp.refresh l') ∧
      released s.part t.part (fun l' a' => l' = l ∧ a' = a) ∧
      t.part.cmp.panels = s.part.cmp.panels ∧ t.part.cmp.profiles = s.part.cmp.profiles ∧
      { t.part with cmp := s.part.cmp, ed := s.part.ed } = s.part) ∧
  (∀ (s : State) (f : Profile) (rest : List Profile), s.part.cmp.profiles = f :: rest →
    let removed (l : Line) (a : Nat) : Prop := ∀ q ∈ (f.line l).panels, q.address ≠ a
    let stays (l : Line) (a : Nat) : Bool := (f.line l).panels.any (fun q => q.address == a)
    ∃ t, exec .composerProfileLoad s = .next t ∧ t.pending = s.pending ∧ t.part.cmp.profiles = rest ∧
      (∀ c, s.part.cmp.comp = some c → removed c.line c.address → t.part.cmp.comp = none) ∧
      (∀ c, s.part.cmp.comp = some c → ¬ removed c.line c.address → t.part.cmp.comp = some c) ∧
      (∀ x ∈ t.part.cmp.slots, ∀ l a, x.state.panel = some (l, a) → ¬ removed l a) ∧
      (∀ l a, a ∈ t.part.cmp.refresh l →
        ¬ removed l a ∧ (a ∈ s.part.cmp.refresh l ∨ ((s.part.line l).health a).drawn = true)) ∧
      (∀ l, ∀ q ∈ (f.line l).panels, ((s.part.line l).health q.address).drawn = true →
        q.address ∈ t.part.cmp.refresh l) ∧
      (∀ q ∈ t.part.cmp.panels, ¬ removed q.line q.address) ∧
      released s.part t.part removed ∧ t.part.cmp.panelEvents = s.part.cmp.panelEvents ∧
      (∀ l, let panels := t.part.cmp.panels.filter (fun q => decide (q.line = l))
        List.Perm (panels.map (·.address)) ((f.line l).panels.map (·.address)) ∧
        panels.Pairwise (fun x y => x.address ≤ y.address) ∧
        ∀ q ∈ panels,
          let old := s.part.cmp.panels.find? (fun o => decide (o.line = l) && o.address == q.address)
          (∀ o, old = some o → q = o) ∧
          (old = none → q = { line := l, address := q.address, moving := false, strip := false, bars := [] })) ∧
      (let mid := { s.part with cmp := { s.part.cmp with
          panels := t.part.cmp.panels
          refreshSeat := s.part.cmp.refreshSeat.filter (stays .seat)
          refreshEnd := s.part.cmp.refreshEnd.filter (stays .end_)
          refreshDoor := s.part.cmp.refreshDoor.filter (stays .door) } }
       Part.marksExactly mid t.part (fun _ => True)) ∧
      { t.part with cmp := s.part.cmp, ed := s.part.ed } = s.part)

/-- R117, R118: which panel the next composition takes (lines in cyclic order after the last served, the first eligible
panel of the list), into the free slot of lowest number; its blank image and areas; with a live content set its pin and what
it reads of the pinned copy: the page count, the text pool length, the strip headers, the marker glyph index, and the run
code table into the decoder's working copy. A read that fails leaves the image blank, with no area to draw, and is reported;
with no live copy nothing is read and nothing pinned. Everything else of the part stands. Last, where the items stand in the
copy, and that a failed read is that of a byte. The model's choices: the items are read at this one step, as the host's
writes have left them (log 13); where they cannot be read the working copy stays as it was (log 80); of a copy changed since its validation at most 2 strips are taken (log 49), and the run code
table as its bytes stand (log 50). -/
def Obligations.CompositionBegins : Prop :=
  (∀ (s : State) (bus : Bus) (l : Line) (a i : Nat) (before after : List Nat) (x : Slot),
    let cmp := s.part.cmp
    let eligible (l : Line) (a : Nat) : Prop := ∀ x ∈ cmp.slots, x.state ≠ .loading l a
    let idle (l : Line) : Prop := ∀ b ∈ cmp.refresh l, ¬ eligible l b
    let first : Line := match cmp.lastLine with
      | .seat => .end_
      | .end_ => .door
      | .door => .seat
    let second : Line := match first with
      | .seat => .end_
      | .end_ => .door
      | .door => .seat
    cmp.comp = none → s.part.regs.run = true →
    cmp.refresh l = before ++ a :: after → eligible l a → (∀ b ∈ before, ¬ eligible l b) →
    (l = first ∨ (l = second ∧ idle first) ∨ (l ≠ first ∧ l ≠ second ∧ idle first ∧ idle second)) →
    cmp.slots[i]? = some x → x.state = .free → (∀ j, j < i → ∀ y, cmp.slots[j]? = some y → y.state ≠ .free) →
    let size := match l with
      | .seat => 1536
      | .end_ => 8192
      | .door => 5120
    let areas : List Area := match l with
      | .seat => [ { rect := { x := 0, y := 0, w := 48, h := 16 }, half := some .left },
                   { rect := { x := 48, y := 0, w := 48, h := 16 }, half := some .right } ]
      | .end_ => [{ rect := { x := 0, y := 0, w := 256, h := 32 }, half := none }]
      | .door => [{ rect := { x := 0, y := 0, w := 160, h := 32 }, half := none }]
    let blank : Composition :=
      { line := l, address := a, slot := i, pin := none, items := none, areas := areas, page := none, glyphs := []
        image := List.replicate size 0#8, overflowed := false, strip := false, bars := [] }
    let mem := Memory.writeAll s.part.mem bus.host
    let v : View := { mem := mem, base := s.part.regs.windowBase, bus := bus }
    ∃ t, exec (.compositionBegin bus) s = .next t ∧ t.pending = s.pending ∧
      t.part.cmp.lastLine = l ∧ t.part.cmp.refresh l = before ++ after ∧
      (∀ l', l' ≠ l → t.part.cmp.refresh l' = cmp.refresh l') ∧
      t.part.cmp.slots = cmp.slots.set i { x with state := .rendering l a } ∧
      { t.part.cmp with
        comp := none, lastLine := cmp.lastLine, slots := cmp.slots, refreshSeat := cmp.refreshSeat
        refreshEnd := cmp.refreshEnd, refreshDoor := cmp.refreshDoor, decoder := cmp.decoder } = cmp ∧
      { t.part with cmp := cmp, ed := s.part.ed, rep := s.part.rep } = { s.part with mem := mem } ∧
      (s.part.ed.content.live = none ∨ s.part.ed.content.liveAddress = none →
        t.part.cmp.comp = some blank ∧ t.part.cmp.decoder = cmp.decoder ∧ t.part.ed = s.part.ed ∧
        t.part.rep = s.part.rep) ∧
      ∀ copy address, s.part.ed.content.live = some copy → s.part.ed.content.liveAddress = some address →
        let pinned := { blank with pin := some { copy := copy, address := address } }
        t.part.ed = { s.part.ed with content := s.part.ed.content.pin copy } ∧
        (∀ f, v.contentItems address = .error f →
          t.part.cmp.comp = some { pinned with areas := [] } ∧ t.part.cmp.decoder = cmp.decoder ∧
          t.part.rep = { s.part.rep with
            memoryError := some { agent := .composer, address := f.address, cause := f.cause }
            attention := s.part.rep.attention ||| 0x100#10 }) ∧
        ∀ items table, v.contentItems address = .ok (items, table) →
          t.part.cmp.comp = some { pinned with items := some items } ∧
          t.part.cmp.decoder = { cmp.decoder with table := some table } ∧ t.part.rep = s.part.rep) ∧
  (∀ (v : View) (a : Nat),
    (∀ (items : ContentItems) (table : RunTable), v.contentItems a = .ok (items, table) ↔
      ∃ (count : Nat) (head entries : List Byte),
        v.u16 (a + 12) = .ok items.pageCount ∧ v.u16 (a + 0x18) = .ok items.poolLength ∧
        v.u8 (a + 0x1B) = .ok count ∧ items.strips.length = min count 2 ∧
        (∀ (i : Nat) (h : StripHeader), items.strips[i]? = some h → ∃ o, v.u32 (a + 0x34 + 4 * i) = .ok o ∧
          v.u16 (a + o) = .ok h.width ∧ v.u8 (a + o + 2) = .ok h.height ∧ v.u32 (a + o + 4) = .ok h.pixels) ∧
        v.u8 (a + 0x1A) = .ok items.markerGlyph ∧
        v.bytes (a + 0x28) 4 = .ok head ∧ v.bytes (a + 0x2C) 8 = .ok entries ∧
        table = { short := decide (head.getD 0 0 ≠ 0), commonX := (head.getD 1 0).toNat
                  endMode := decide (head.getD 2 0 ≠ 0), zeros := decide (head.getD 3 0 ≠ 0)
                  entries := entries.map (fun b => { x := b.toNat % 8, endFlag := b.toNat.testBit 7 }) }) ∧
    ∀ f, v.contentItems a = .error f → v.byte f.address = .error f)

/-- R108, R51 to R54, R110, R113, R119: what the next element of a composition draws. An area without a page stays at
intensity 0; a page's pixels inside the area take its paper, and its windows are to be drawn. R121: where the descriptor
cannot be read the page has its paper and no window, and where its size and paper cannot be read either, the area stays at 0
(log 48). FILL, BAR, STRIP and TEXT windows set their clipped rectangle, and TEXT and the marker queue their glyphs. R58:
the first pixel that cannot be read ends the strip filter, the rest of the window takes the paper, and the marker is drawn
all the same, unless its record cannot be read. R121: a TEXT's errors are reported in turn, a lost glyph moves the pen as
far as its advance was read. Before that, what the drawing rests on: 11.4 for pages, windows and glyph records, R113 for the
page and seat of an area, R53 and R54 for a strip's pixel, R109 for strings, R112 and R75 for fields, R110 and R111 for the
pen. The model's choices: all is read at this step, as the host's writes have left it (logs 13 and 27), the strip's pixels
in raster order (log 39); a glyph record in rising order of its bytes, so one whose width or height cannot be read has
advance 0 (log 78); a seat field is that of the seat whose number the half was begun with, looked up anew at the window
(log 79); a TEXT's string is read before its records, and its width is that of what was read (log 82); an error on an offset
of the directory is one of what it leads to (log 83); bits 2 to 7 of a TEXT window's flags are ignored (log 76); a window
empty after clipping counts as the page's STRIP window (log 33), and its string does not overflow (log 69); of a copy changed since its validation at most 6
windows of a page are drawn, a window of a kind or a strip that is not there draws nothing, a field that is not named draws
the empty string, a strip of size 0 reads row or column 0, above fy 15 the weight 16 - fy is 0, and a pixel is cut to 8 bits
(log 49). -/
def Obligations.ElementsAreDrawn : Prop :=
  (∀ (v : View) (copy index address : Nat) (h : PageHead),
    (v.pagePaper copy index = .ok (address, h) ↔
      ∃ table, v.u32 (copy + 0x10) = .ok table ∧ address = copy + table + 104 * index ∧ v.u16 address = .ok h.width ∧
        v.u8 (address + 2) = .ok h.height ∧ v.u8 (address + 3) = .ok h.paper ∧ h.windows = 0) ∧
    (v.pageAt copy index = .ok (address, h) ↔
      ∃ table, v.u32 (copy + 0x10) = .ok table ∧ address = copy + table + 104 * index ∧ v.u16 address = .ok h.width ∧
        v.u8 (address + 2) = .ok h.height ∧ v.u8 (address + 3) = .ok h.paper ∧ v.u8 (address + 4) = .ok h.windows) ∧
    ∀ f, v.pageAt copy index = .error f → v.byte f.address = .error f) ∧
  (∀ (v : View) (a : Nat),
    (∀ w : Window, v.window a = .ok w ↔ ∃ code, v.u8 a = .ok code ∧ v.u8 (a + 1) = .ok w.startCol ∧
      v.u8 (a + 2) = .ok w.stopCol ∧ v.u8 (a + 3) = .ok w.startRow ∧ v.u8 (a + 4) = .ok w.stopRow ∧
      ((code = 1 ∧ ∃ ink paper zoomH zoomV flags speed field fixed,
          v.u8 (a + 5) = .ok ink ∧ v.u8 (a + 6) = .ok paper ∧ v.u8 (a + 7) = .ok zoomH ∧ v.u8 (a + 8) = .ok zoomV ∧
          v.u8 (a + 9) = .ok flags ∧ v.u8 (a + 10) = .ok speed ∧ v.u8 (a + 11) = .ok field ∧
          v.u16 (a + 12) = .ok fixed ∧ w.kind = .text ink paper zoomH zoomV (flags.testBit 0) (flags.testBit 1) speed
            field (if fixed = 65535 then none else some fixed)) ∨
        (code = 2 ∧ ∃ ink paper border, v.u8 (a + 5) = .ok ink ∧ v.u8 (a + 6) = .ok paper ∧
          v.u8 (a + 7) = .ok border ∧ w.kind = .bar ink paper border) ∨
        (code = 3 ∧ ∃ index y0 fy marker, v.u8 (a + 5) = .ok index ∧ v.u8 (a + 6) = .ok y0 ∧ v.u8 (a + 7) = .ok fy ∧
          v.u8 (a + 8) = .ok marker ∧ w.kind = .strip index y0 fy (decide (marker ≠ 0))) ∨
        (code = 4 ∧ ∃ n, v.u8 (a + 5) = .ok n ∧ w.kind = .fill n) ∨
        ((code = 0 ∨ 4 < code) ∧ w.kind = .other))) ∧
    ∀ f, v.window a = .error f → v.byte f.address = .error f) ∧
  (∀ (p : Part) (a : Nat) (area : Area),
    p.presentPage .end_ a area = (p.ntc.selEnd.page, none) ∧ p.presentPage .door a area = (p.ntc.selDoor.page, none) ∧
    (area.half = none → p.presentPage .seat a area = (none, none)) ∧
    ∀ half, area.half = some half →
      let sits (q : Seat) : Prop := q.address = a ∧ q.half = half
      ((∀ q ∈ p.res.seats, ¬ sits q) → p.presentPage .seat a area = (none, none)) ∧
      ∀ (i : Nat) (q : Seat), p.res.seats[i]? = some q → sits q →
        (∀ (j : Nat) (r : Seat), j < i → p.res.seats[j]? = some r → ¬ sits r) →
        let place := match q.display with
          | .unknown => 0
          | .free => 1
          | .reservedNow => 2
          | .reservedLater => 3
          | .blocked => 4
          | .off => 5
        p.presentPage .seat a area = (p.res.pages.bind (fun pages => pages[place]?), some q.number)) ∧
  (∀ (v : View) (copy : Nat) (strip : StripHeader) (u y0 fy i j : Nat),
    let row (n : Nat) : Nat := if n < strip.height then n else strip.height - 1
    let column (n : Nat) : Nat := if n < strip.width then n else strip.width - 1
    let source (y x : Nat) := v.byte (copy + strip.pixels + row y * strip.width + column x)
    let fx := u % 16
    (∀ q, v.stripOutput copy strip u y0 fy i j = .ok q ↔ ∃ ul ur ll lr : Byte,
      source (y0 + i) (u / 16 + j) = .ok ul ∧ source (y0 + i) (u / 16 + j + 1) = .ok ur ∧
      source (y0 + i + 1) (u / 16 + j) = .ok ll ∧ source (y0 + i + 1) (u / 16 + j + 1) = .ok lr ∧
      q = (ul.toNat * (16 - fx) * (16 - fy) + ur.toNat * fx * (16 - fy) + ll.toNat * (16 - fx) * fy
        + lr.toNat * fx * fy + 128) / 256) ∧
    ∀ f, v.stripOutput copy strip u y0 fy i j = .error f → v.byte f.address = .error f) ∧
  (∀ (v : View) (copy pool : Nat),
    (∀ cs, v.sourceCodes copy pool (.codes cs) = (cs, none)) ∧ v.sourceCodes copy pool (.ref none) = ([], none) ∧
    ∀ o : Nat,
      let text := v.sourceCodes copy pool (.ref (some o))
      (pool ≤ o → text = ([], none)) ∧
      (o < pool → (∀ f, v.u32 (copy + 0x14) = .error f → text = ([], some f)) ∧
        ∀ start, v.u32 (copy + 0x14) = .ok start →
          (∀ f, v.u8 (copy + start + o) = .error f → text = ([], some f)) ∧
          ∀ n, v.u8 (copy + start + o) = .ok n →
            (48 < n ∨ pool < o + 1 + n → text = ([], none)) ∧
            (n ≤ 48 → o + 1 + n ≤ pool →
              (∀ (i c : Nat), text.1[i]? = some c → ∃ b, v.byte (copy + start + o + 1 + i) = .ok b ∧ c = b.toNat) ∧
              (text.2 = none → text.1.length = n) ∧
              ∀ f, text.2 = some f → text.1.length < n ∧
                v.byte (copy + start + o + 1 + text.1.length) = .error f))) ∧
  (∀ (v : View) (copy code : Nat),
    let x := v.charRecord copy code
    x.code = code ∧ (∀ f, v.u32 (copy + 0x1C) = .error f → x.advance = 0 ∧ x.record = .error f) ∧
    ∀ table, v.u32 (copy + 0x1C) = .ok table →
      let at_ := copy + table + 8 * code
      (∀ f, v.bytes at_ 3 = .error f → x.advance = 0 ∧ x.record = .error f) ∧
      (∀ bs, v.bytes at_ 3 = .ok bs →
        (∃ b, v.byte (at_ + 2) = .ok b ∧ x.advance = b.toNat % 64) ∧
        (∀ f, x.record = .error f → v.byte f.address = .error f) ∧
        ∀ g : GlyphRecord, x.record = .ok g ↔ ∃ m, v.u8 at_ = .ok g.width ∧ v.u8 (at_ + 1) = .ok g.height ∧
          v.u8 (at_ + 2) = .ok m ∧ g.advance = m % 64 ∧ v.u16 (at_ + 4) = .ok g.offset ∧
          v.u16 (at_ + 6) = .ok g.length)) ∧
  (∀ (centre marquee : Bool) (speed number tw ww : Nat),
    let starts := penStarts centre marquee speed number tw ww
    let o : Nat := number * speed % (16 * (tw + 16)) / 16
    (tw ≤ ww → starts = [if centre = true then (((ww - tw) / 2 : Nat) : Int) else 0]) ∧
    (ww < tw → marquee = false → starts = [0]) ∧
    (ww < tw → marquee = true → starts = [-(o : Int), -(o : Int) + ((tw + 16 : Nat) : Int)])) ∧
  (∀ (lay : TextLay) (start : Int) (chars : List Machine.Char),
    let pen (i : Nat) : Int := start + ((lay.zoomH * ((chars.take i).map (·.advance)).sum : Nat) : Int)
    lay.jobs start chars = (chars.mapIdx (fun i x => match x.record with
      | .error _ => []
      | .ok g => [({ glyph := x.code, width := g.width, height := g.height, offset := g.offset, length := g.length
                     pen := pen i, top := 0, zoomH := lay.zoomH, zoomV := lay.zoomV, ink := lay.ink, win := lay.win
                     area := lay.area } : GlyphJob)])).flatten) ∧
  (∀ (p : Part) (seat fixed : Option Nat),
    let draws (field : Nat) : TextSource := p.fieldSource seat field fixed
    let stop (i : Nat) : Option StopRecord := p.trk.view[i]?.bind (fun q => p.trk.stops[q.index]?)
    let last := p.trk.view.getLast?.bind (fun q => p.trk.stops[q.index]?)
    let placed : Option (Option StopRecord × Option StopRecord) := match p.trk.phase with
      | .atStop k | .running k | .approaching k | .halted k | .doubt k => some (stop k, stop (k + 1))
      | .ended => some (last, none)
      | .unplaced | .lost => none
    let current := placed.bind (·.1)
    let next := placed.bind (·.2)
    let time (t : Option Nat) : TextSource := match t with
      | none => .codes []
      | some m => .codes [48 + m / 600 % 10, 48 + m / 60 % 10, 58, 48 + m % 60 / 10, 48 + m % 10]
    let name (code : Nat) : Option Nat := (p.trk.stops.find? (fun r => r.code == code)).bind (·.name)
    draws 0 = .ref fixed ∧ draws 1 = .ref (next.bind (·.name)) ∧ draws 2 = .ref (next.bind (·.shortName)) ∧
    draws 3 = .ref (current.bind (·.name)) ∧ draws 4 = .ref (last.bind (·.name)) ∧
    draws 9 = time (next.bind (·.arrival)) ∧ draws 10 = time (current.bind (·.departure)) ∧
    (∀ field, 10 < field → draws field = .codes []) ∧
    (seat.bind (fun n => p.res.seats.find? (fun q => q.number == n)) = none →
      draws 5 = .codes [] ∧ draws 6 = .ref none ∧ draws 7 = .ref none ∧ draws 8 = .ref none) ∧
    ∀ q, seat.bind (fun n => p.res.seats.find? (fun q => q.number == n)) = some q →
      (q.number < 1000 → ∃ cs, draws 5 = .codes cs ∧ (∀ c ∈ cs, 48 ≤ c ∧ c ≤ 57) ∧
        cs.foldl (fun n c => 10 * n + (c - 48)) 0 = q.number ∧ (cs.head? = some 48 → q.number = 0 ∧ cs = [48]) ∧
        cs ≠ []) ∧
      (q.shown = none → draws 6 = .ref none ∧ draws 7 = .ref none ∧ draws 8 = .ref none) ∧
      ∀ shown, q.shown = some shown → draws 6 = .ref (name shown.fromCode) ∧ draws 7 = .ref (name shown.toCode) ∧
        draws 8 = .ref (if shown.label = none then shown.note else shown.label)) ∧
  (∀ (s : State) (bus : Bus) (c : Composition) (area : Area) (rest : List Area), s.part.cmp.comp = some c →
    c.glyphs = [] → (∀ g, c.page = some g → g.windows ≤ g.next) → c.areas = area :: rest →
    let mem := Memory.writeAll s.part.mem bus.host
    let landed := { s.part with mem := mem }
    let present := s.part.presentPage c.line c.address area
    (present.1 = none ∨ c.items = none ∨ c.pin = none ∨
        (∃ index items, present.1 = some index ∧ c.items = some items ∧ items.pageCount ≤ index) →
      exec (.elementBegin bus) s
        = .next { s with part := landed.setComp { c with areas := rest, page := none } }) ∧
    ∀ index items pin, present.1 = some index → c.items = some items → c.pin = some pin → index < items.pageCount →
      (∀ f, (landed.view bus).pageAt pin.address index = .error f →
        let blank := landed.setComp { c with areas := rest, page := none }
        ((∃ e, (landed.view bus).pagePaper pin.address index = .error e) →
          exec (.elementBegin bus) s = .next { s with part := blank.memoryError .composer f.address f.cause }) ∧
        ∀ address h, (landed.view bus).pagePaper pin.address index = .ok (address, h) →
        ∃ c', exec (.elementBegin bus) s
            = .next { s with part := (landed.setComp c').memoryError .composer f.address f.cause } ∧
          c.painted c' area.rect { x := area.rect.x, y := area.rect.y, w := h.width, h := h.height }
            (fun _ _ _ => BitVec.ofNat 8 h.paper) ∧
          (let page : PageDraw :=
            { area := area, seat := present.2, address := address, width := h.width, height := h.height
              paper := h.paper, windows := 0, next := 0 }
           { c' with image := c.image } = { c with areas := rest, page := some page })) ∧
      ∀ address h, (landed.view bus).pageAt pin.address index = .ok (address, h) →
      ∃ c', exec (.elementBegin bus) s = .next { s with part := landed.setComp c' } ∧
        c.painted c' area.rect { x := area.rect.x, y := area.rect.y, w := h.width, h := h.height }
          (fun _ _ _ => BitVec.ofNat 8 h.paper) ∧
        (let page : PageDraw :=
          { area := area, seat := present.2, address := address, width := h.width, height := h.height
            paper := h.paper, windows := min h.windows 6, next := 0 }
         { c' with image := c.image } = { c with areas := rest, page := some page })) ∧
  (∀ (s : State) (bus : Bus) (c : Composition) (g : PageDraw) (pin : ContentPin) (items : ContentItems) (w : Window),
    s.part.cmp.comp = some c → c.glyphs = [] → c.page = some g → g.next < g.windows → c.pin = some pin →
    c.items = some items →
    let mem := Memory.writeAll s.part.mem bus.host
    let landed := { s.part with mem := mem }
    let omitted := landed.setComp { c with page := some { g with next := g.windows } }
    let next := { c with page := some { g with next := g.next + 1 } }
    let report (p : Part) (f : MemFail) : Part := p.memoryError .composer f.address f.cause
    (∀ f, (landed.view bus).window (g.address + 8 + 16 * g.next) = .error f →
      exec (.elementBegin bus) s = .next { s with part := omitted.memoryError .composer f.address f.cause }) ∧
    ((landed.view bus).window (g.address + 8 + 16 * g.next) = .ok w →
    (g.width ≤ w.startCol ∨ g.height ≤ w.startRow ∨ w.stopCol < w.startCol ∨ w.stopRow < w.startRow →
      ((∀ index y0 fy marker, w.kind ≠ .strip index y0 fy marker) →
        exec (.elementBegin bus) s = .next { s with part := landed.setComp next }) ∧
      ∀ index y0 fy marker, w.kind = .strip index y0 fy marker →
        exec (.elementBegin bus) s = .next { s with part := landed.setComp { next with strip := true } }) ∧
    (w.startCol < g.width → w.startRow < g.height → w.startCol ≤ w.stopCol → w.startRow ≤ w.stopRow →
    let r : Rect := { x := g.area.rect.x + w.startCol, y := g.area.rect.y + w.startRow
                      w := min w.stopCol (g.width - 1) + 1 - w.startCol
                      h := min w.stopRow (g.height - 1) + 1 - w.startRow }
    (w.kind = .other → exec (.elementBegin bus) s = .next { s with part := landed.setComp next }) ∧
    (∀ v, w.kind = .fill v →
      ∃ c', exec (.elementBegin bus) s = .next { s with part := landed.setComp c' } ∧
        c.painted c' g.area.rect r (fun _ _ _ => BitVec.ofNat 8 v) ∧ { c' with image := c.image } = next) ∧
    (∀ ink paper border, w.kind = .bar ink paper border →
      let b := if r.w < 3 ∨ r.h < 3 then 0 else r.w - 2
      ∃ c', exec (.elementBegin bus) s = .next { s with part := landed.setComp c' } ∧
        c.painted c' g.area.rect r (fun x y _ => BitVec.ofNat 8
          (if b = 0 ∨ x = 0 ∨ y = 0 ∨ x + 1 = r.w ∨ y + 1 = r.h then border
           else if x < 1 + s.part.cmp.position.lit b then ink else paper)) ∧
        { c' with image := c.image } = { next with bars := c.bars ++ [b] }) ∧
    (∀ (index y0 fy : Nat) (marker : Bool), w.kind = .strip index y0 fy marker → items.strips[index]? = none →
      exec (.elementBegin bus) s = .next { s with part := landed.setComp { next with strip := true } }) ∧
    (∀ (index y0 fy : Nat) (marker : Bool) (strip : StripHeader) (pixels : Nat → Nat) (n : Nat) (errors : List MemFail),
      w.kind = .strip index y0 fy marker → items.strips[index]? = some strip →
      let u := scrollOffset s.part.cmp.position.marker r.w strip.width
      let unsampled (x : Nat) : Prop := strip.width ≤ x ∧ strip.width ≤ r.w
      let output (i : Nat) := (landed.view bus).stripOutput pin.address strip u y0 fy (i / r.w) (i % r.w)
      (∀ i, i < n → ¬ unsampled (i % r.w) → output i = .ok (pixels i)) →
      ((n = r.w * r.h ∧ errors = []) ∨
        (n < r.w * r.h ∧ ¬ unsampled (n % r.w) ∧ ∃ f, output n = .error f ∧ errors = [f])) →
      let filtered := errors.foldl report landed
      ∃ c', c.painted c' g.area.rect r (fun x y _ => BitVec.ofNat 8
          (if unsampled x ∨ n ≤ y * r.w + x then g.paper else pixels (y * r.w + x))) ∧
        { c' with image := c.image } = { next with strip := true } ∧
        (s.part.cmp.position.marker = none ∨ marker = false →
          exec (.elementBegin bus) s = .next { s with part := filtered.setComp c' }) ∧
        ∀ m, s.part.cmp.position.marker = some m → marker = true →
          (∀ f, ((landed.view bus).charRecord pin.address items.markerGlyph).record = .error f →
            exec (.elementBegin bus) s = .next { s with part := report (filtered.setComp c') f }) ∧
          ∀ glyph, ((landed.view bus).charRecord pin.address items.markerGlyph).record = .ok glyph →
            let job : GlyphJob :=
              { glyph := items.markerGlyph, width := glyph.width, height := glyph.height, offset := glyph.offset
                length := glyph.length, pen := (((m - u) / 16 : Nat) : Int) - ((glyph.width / 2 : Nat) : Int)
                top := if glyph.height ≤ r.h then (r.h - glyph.height) / 2 else 0, zoomH := 1, zoomV := 1, ink := 255
                win := r, area := g.area.rect }
            exec (.elementBegin bus) s = .next { s with part := filtered.setComp { c' with glyphs := [job] } }) ∧
    (∀ ink paper zoomH zoomV centre marquee speed field fixed,
      w.kind = .text ink paper zoomH zoomV centre marquee speed field fixed →
      let text := (landed.view bus).sourceCodes pin.address items.poolLength (s.part.fieldSource g.seat field fixed)
      let chars := text.1.map ((landed.view bus).charRecord pin.address)
      let tw := zoomH * (chars.map (·.advance)).sum
      let lay : TextLay := { zoomH := zoomH, zoomV := zoomV, ink := ink, win := r, area := g.area.rect }
      let errors := text.2.toList ++ chars.filterMap (fun x => match x.record with
        | .ok _ => none
        | .error f => some f)
      ∃ c', exec (.elementBegin bus) s = .next { s with part := errors.foldl report (landed.setComp c') } ∧
        c.painted c' g.area.rect r (fun _ _ _ => BitVec.ofNat 8 paper) ∧
        c'.glyphs = (penStarts centre marquee speed s.part.swp.number tw r.w).flatMap (fun x => lay.jobs x chars) ∧
        c'.overflowed = (c.overflowed || (marquee && decide (r.w < tw))) ∧
        { c' with image := c.image, glyphs := c.glyphs, overflowed := c.overflowed } = next))))

/-- R125: X(r), base(R) and the END index. R127 to R129: the bits of a stream, least significant first, past whose end a
need is a LENGTH fault; a symbol is its prefix bits, its terminating bit unless the prefix ends at the END index, and X(R)
tail bits, the first the most significant, and stands for a run of base(R) + tail + 1 pixels; 32 prefix bits with END mode
OFF are a PREFIX fault, and any other failure is that of the first bit that cannot be taken. R127: the bit position is 0 at
a glyph's start and has gone up by 1 for each bit taken, however the decoding ends. R130, R131, R133: the runs
alternate, paper first, until the glyph has its N pixels, the last cut at N, with the pixel index and the colour of the next
run; a faulty glyph is paper from the fault on, one lost to a memory error has no pixel. R110, R55, R134: at the end of a decoding ink pixels set the window's pixels, paper
leaves them, and a fault is reported with the glyph index: R132: it becomes the last content fault, and CONTENT is raised.
The model's choices: the stream is read at the step that ends the decoding (log 27); the bits of a symbol that a LENGTH fault
cuts off, which R129 discards, count in the bit position (log 75); a memory error on the offset of the glyph stream area
omits the glyph (log 83); of a copy changed since its validation,
END mode ON with no END flag ends a prefix as END mode OFF does, the PREFIX fault included, and a glyph of any width and
height is decoded to all its pixels (log 50). -/
def Obligations.GlyphsAreDecodedAndLaid : Prop :=
  (∀ (v : View) (d : Decoder) (t : RunTable) (a len n : Nat),
    let r := v.decodeGlyph d t a len n
    ((r.2 = none ∨ ∃ f, r.2 = some (.fault f)) → r.1.buffer.length = n) ∧
    (∀ f, r.2 = some (.memory f) → r.1.buffer = [])) ∧
  (∀ (t : RunTable) (r : Nat),
    (t.short = true → t.tailBits r = t.commonX) ∧
    (t.short = false → ∀ x, t.entries[min r 7]? = some x → t.tailBits r = x.x) ∧
    t.base r = ((List.range r).map (fun i => 2 ^ t.tailBits i)).sum ∧
    (t.endMode = false → t.endIndex = none) ∧
    (t.endIndex = some r ↔ t.endMode = true ∧ (∃ x, t.entries[r]? = some x ∧ x.endFlag = true) ∧
      ∀ (i : Nat) (x : RunEntry), i < r → t.entries[i]? = some x → x.endFlag = false)) ∧
  (∀ (v : View) (a len i : Nat),
    (8 * len ≤ i → v.streamBit a len i = .error (.fault .lengthFault)) ∧
    (i < 8 * len →
      (∀ b, v.byte (a + i / 8) = .ok b → v.streamBit a len i = .ok (b.toNat.testBit (i % 8))) ∧
      ∀ f, v.byte (a + i / 8) = .error f → v.streamBit a len i = .error (.memory f))) ∧
  (∀ (v : View) (t : RunTable) (a len pos : Nat), t.entries.length = 8 →
    let bit (i : Nat) := v.streamBit a len i
    (∀ run next : Nat, v.streamSymbol a len t pos = .ok (run, next) ↔
      ∃ (r q : Nat) (tail : List Bool),
        (∀ i, i < r → bit (pos + i) = .ok (!t.zeros)) ∧
        ((t.endIndex = some r ∧ q = pos + r) ∨
          (r ≤ 31 ∧ (∀ e, t.endIndex = some e → r < e) ∧ bit (pos + r) = .ok t.zeros ∧ q = pos + r + 1)) ∧
        tail.length = t.tailBits r ∧ (∀ i, i < tail.length → bit (q + i) = .ok (tail.getD i false)) ∧
        run = t.base r + tail.foldl (fun n b => 2 * n + (if b then 1 else 0)) 0 + 1 ∧ next = q + tail.length) ∧
    (∀ p : Nat, v.streamSymbol a len t pos = .error { stop := .fault .prefixFault, bitPos := p } ↔
      p = pos + 32 ∧ t.endIndex = none ∧ ∀ i, i < 32 → bit (pos + i) = .ok (!t.zeros)) ∧
    ∀ (e : StreamStop) (p : Nat), v.streamSymbol a len t pos = .error { stop := e, bitPos := p } →
      e ≠ .fault .prefixFault → pos ≤ p ∧ bit p = .error e ∧ ∀ i, pos ≤ i → i < p → ∃ b, bit i = .ok b) ∧
  (∀ (v : View) (d : Decoder) (t : RunTable) (a len n : Nat),
    let r := v.decodeGlyph d t a len n
    ∃ (runs starts : List Nat),
      starts.length = runs.length + 1 ∧ starts[0]? = some 0 ∧
      (∀ (i run p q : Nat), runs[i]? = some run → starts[i]? = some p → starts[i + 1]? = some q →
        (runs.take i).sum < n ∧ v.streamSymbol a len t p = .ok (run, q)) ∧
      r.1.table = d.table ∧ r.1.pixelIndex = min n runs.sum ∧ r.1.ink = decide (runs.length % 2 = 1) ∧
      (let drawn := (runs.mapIdx (fun i run => List.replicate run (decide (i % 2 = 1)))).flatten
       (r.2 = none → n ≤ runs.sum ∧ r.1.buffer = drawn.take n ∧ starts.getLast? = some r.1.bitPos) ∧
       (∀ f, r.2 = some (.fault f) → runs.sum < n ∧
         (∀ p, starts.getLast? = some p →
           v.streamSymbol a len t p = .error { stop := .fault f, bitPos := r.1.bitPos }) ∧
         r.1.buffer = drawn ++ List.replicate (n - drawn.length) false) ∧
       ∀ f, r.2 = some (.memory f) → runs.sum < n ∧ ∀ p, starts.getLast? = some p →
         v.streamSymbol a len t p = .error { stop := .memory f, bitPos := r.1.bitPos })) ∧
  (∀ (v : View) (d : Decoder) (copy : Nat) (j : GlyphJob),
    (∀ area t, v.u32 (copy + 0x20) = .ok area → d.table = some t →
      v.decodeJob d copy j = v.decodeGlyph d t (copy + area + j.offset) j.length (j.width * j.height)) ∧
    ∀ f, v.u32 (copy + 0x20) = .error f → v.decodeJob d copy j
      = ({ d with buffer := [], bitPos := 0, pixelIndex := 0, ink := false }, some (.memory f))) ∧
  (∀ (s : State) (bus : Bus) (c : Composition) (j : GlyphJob) (rest : List GlyphJob) (pin : ContentPin),
    s.part.cmp.comp = some c → c.glyphs = j :: rest → c.pin = some pin →
    let mem := Memory.writeAll s.part.mem bus.host
    let landed := { s.part with mem := mem }
    let r := (landed.view bus).decodeJob s.part.cmp.decoder pin.address j
    let decoded := { landed with cmp := { s.part.cmp with decoder := r.1 } }
    let ink (x y : Nat) : Prop := ∃ row col, row < j.height ∧ col < j.width ∧
      r.1.buffer[row * j.width + col]? = some true ∧
      j.pen + (j.zoomH * col : Nat) ≤ x ∧ (x : Int) < j.pen + (j.zoomH * (col + 1) : Nat) ∧
      j.top + j.zoomV * row ≤ y ∧ y < j.top + j.zoomV * (row + 1)
    let laid (c' : Composition) : Prop :=
      { c' with image := c.image } = { c with glyphs := rest } ∧
      ∃ pixel : Nat → Nat → Byte → Byte, c.painted c' j.area j.win pixel ∧
        ∀ x y b, (ink x y → pixel x y b = BitVec.ofNat 8 j.ink) ∧ (¬ ink x y → pixel x y b = b)
    (r.2 = none → ∃ c', laid c' ∧ exec (.glyphDecodeEnd bus) s = .next { s with part := decoded.setComp c' }) ∧
    (∀ f, r.2 = some (.fault f) → ∃ c', laid c' ∧
      exec (.glyphDecodeEnd bus) s = .next { s with part := (decoded.setComp c').contentFault j.glyph f }) ∧
    (∀ f, r.2 = some (.memory f) →
      let lost := decoded.setComp { c with glyphs := rest }
      exec (.glyphDecodeEnd bus) s = .next { s with part := lost.memoryError .composer f.address f.cause })) ∧
  ∀ (p : Part) (glyph : Nat) (f : StreamFault), p.contentFault glyph f = { p with rep := { p.rep with
    contentFault := some { glyph := glyph, cause := f }, attention := p.rep.attention ||| 0x200#10 } }

/-- R120, R116, R113: a finished composition: the panel's WAITING slot is freed, the composition's slot becomes WAITING with
the image, the moving flag and the kept windows are those drawn, and the pin is dropped. -/
def Obligations.CompositionCompletes : Prop :=
  ∀ (s : State) (c : Composition), s.part.cmp.comp = some c → c.glyphs = [] → c.areas = [] →
    (∀ g, c.page = some g → g.windows ≤ g.next) → c.slot < s.part.cmp.slots.length →
    ∃ t, exec .compositionComplete s = .next t ∧ t.pending = s.pending ∧ t.part.cmp.comp = none ∧
      t.part.cmp.slots[c.slot]? = some { state := .waiting c.line c.address, image := c.image } ∧
      (∀ (i : Nat) (x : Slot), i ≠ c.slot → s.part.cmp.slots[i]? = some x →
        (x.state = .waiting c.line c.address → t.part.cmp.slots[i]? = some Slot.freed) ∧
        (x.state ≠ .waiting c.line c.address → t.part.cmp.slots[i]? = some x)) ∧
      t.part.cmp.panels = s.part.cmp.panels.map (fun q => if q.line = c.line ∧ q.address = c.address then
        { q with moving := c.overflowed, strip := c.strip, bars := c.bars } else q) ∧
      (c.pin = none → t.part.ed = s.part.ed) ∧
      (∀ pin, c.pin = some pin → t.part.ed = { s.part.ed with content := s.part.ed.content.unpin pin.copy }) ∧
      { t.part.cmp with comp := s.part.cmp.comp, slots := s.part.cmp.slots, panels := s.part.cmp.panels }
        = s.part.cmp ∧
      { t.part with cmp := s.part.cmp, ed := s.part.ed } = s.part

/-! ### Panel lines -/

/-- R135, R136, R139: an even parity bit; a frame's bytes with the CRC of its body, taken bit by bit from 0xFFFF; the outcome
of an exchange by the first of the nine rows that fits. -/
def Obligations.FramesAndOutcomes : Prop :=
  (∀ b : Byte, (((List.range 8).filter (fun i => b.toNat.testBit i)).length + (if evenParity b then 1 else 0)) % 2 = 0) ∧
  (∀ (address kind : Nat) (payload : List Byte),
    let body := [BitVec.ofNat 8 address, BitVec.ofNat 8 kind, BitVec.ofNat 8 payload.length,
      BitVec.ofNat 8 (payload.length / 256)] ++ payload
    frameOf address kind payload
      = body ++ [BitVec.ofNat 8 (crc16 body).toNat, BitVec.ofNat 8 ((crc16 body).toNat / 256)]) ∧
  (crc16 [] = 0xFFFF#16 ∧ ∀ (bs : List Byte) (b : Byte),
    let shift (r : Half16) (i : Nat) : Half16 :=
      if r.msb ≠ b.toNat.testBit i then (r <<< 1) ^^^ 0x1021#16 else r <<< 1
    crc16 (bs ++ [b]) = shift (shift (shift (shift (shift (shift (shift (shift (crc16 bs) 7) 6) 5) 4) 3) 2) 1) 0) ∧
  (∀ (l : Line) (a : Nat) (cs : List RxChar),
    let byte (i : Nat) : Nat := ((cs[i]?).map (fun c => c.data.toNat)).getD 0
    let size := match l with
      | .seat => 1
      | .end_ => 2
      | .door => 3
    let r1 := cs = []
    let r2 := ∃ c ∈ cs, c.parity ≠ evenParity c.data ∨ c.stop = false
    let r3 := cs.length ≠ 9 ∨ byte 2 + 256 * byte 3 ≠ 3
    let r4 := (crc16 ((cs.take 7).map (·.data))).toNat ≠ byte 7 + 256 * byte 8
    let r5 := byte 0 ≠ a
    let r6 := byte 1 ≠ 0x81 ∨ 2 < byte 4 ∨ byte 6 ≠ size
    (r1 → outcomeOf l a cs = .failure .noReply) ∧
    (¬ r1 → r2 → outcomeOf l a cs = .failure .char) ∧
    (¬ r1 → ¬ r2 → r3 → outcomeOf l a cs = .failure .length) ∧
    (¬ r1 → ¬ r2 → ¬ r3 → r4 → outcomeOf l a cs = .failure .check) ∧
    (¬ r1 → ¬ r2 → ¬ r3 → ¬ r4 → r5 → outcomeOf l a cs = .failure .address) ∧
    (¬ r1 → ¬ r2 → ¬ r3 → ¬ r4 → ¬ r5 →
      (r6 → outcomeOf l a cs = .failure .length) ∧
      (¬ r6 → (byte 4 = 1 → outcomeOf l a cs = .failure .check) ∧
        (byte 4 = 2 → outcomeOf l a cs = .notReady (byte 5)) ∧
        (byte 4 = 0 → outcomeOf l a cs = .good (byte 5)))))

/-- R145 to R148, R151: a free line begins the first kind of work present, in the order broadcast SHOW (lowest group whose
SHOW is due, with all that remain staged or the hold limit reached at the sending), LOAD, addressed SHOW, QUERY (each
round-robin from its pointer), with the frame, the rate in force and, for a LOAD, the slot's image. R153: the SHOW decision
of a group: its reading, its step, and the level of the sent step. The model's choices: a QUERY that R147 makes due by count
is kept as the record's flag queryDue, judged wherever its counts move (log 20), and the exchange
keeps the us value at which its sending ends, rounded up (log 24). -/
def Obligations.ArbiterBeginsTheFirstWork : Prop :=
  (∀ (s : State) (l : Line) (f : LineConfig),
    let c := s.part.line l
    let us := s.part.swp.us
    c.config = some f → c.exchange = none → c.quiet = none → s.part.regs.run = true →
    let grouped (g : Nat) : Prop := (f.groups.getD g { grouped := false, hold := 0 }).grouped = true
    let dueGroup (g : Nat) : Prop := g < 4 ∧ grouped g ∧ (c.group g).showDue = true ∧
      ∃ r, (c.group g).round = some r ∧ ((r.members ≠ [] ∧ ∀ m ∈ r.members, m.staged = true) ∨
        (f.groups.getD g { grouped := false, hold := 0 }).hold ≤ r.age)
    let up (q : Panel) : Prop := q.health = .online ∨ q.health = .failing
    let loadable (a : Nat) : Prop := ∃ q ∈ c.panels, q.address = a ∧ up q ∧
      (∃ x ∈ s.part.cmp.slots, x.state = .waiting l a) ∧ (∀ x ∈ s.part.cmp.slots, x.state ≠ .rendering l a) ∧
      (grouped q.group → ∃ r, (c.group q.group).round = some r ∧ ∃ m ∈ r.members, m.address = a ∧ m.staged = false)
    let showable (a : Nat) : Prop := ∃ q ∈ c.panels, q.address = a ∧ up q ∧ q.owed = true ∧ ¬ grouped q.group
    let askable (a : Nat) : Prop := ∃ q ∈ c.panels, q.address = a ∧
      (q.health = .joining ∨ q.health = .failing ∨ q.queryDue = true)
    let turn (pointer : Nat) (ok : Nat → Prop) (a : Nat) : Prop := ok a ∧
      ((pointer < a ∧ ∀ b, ok b → pointer < b → a ≤ b) ∨ ((∀ b, ok b → b ≤ pointer) ∧ ∀ b, ok b → a ≤ b))
    let sending (kind : ExchangeKind) (address group : Nat) (frame : List Byte) : Option Exchange :=
      some { kind := kind, address := address, group := group, frame := frame, rate := f.rate, awaiting := false
             due := us + BitVec.ofNat 32 (sendingTime f.rate frame.length) }
    (∀ g, dueGroup g → (∀ h, h < g → ¬ dueGroup h) →
      let d := c.showDecision f g
      let full := ((c.group g).round.map (fun r => r.members.all (·.staged))).getD false
      exec (.broadcastShow l) s = .next { s with part := s.part.setLine l { d.1 with
        exchange := sending (.broadcast full) 0 g (frameOf 0 0x02 [BitVec.ofNat 8 g, BitVec.ofNat 8 d.2]) } }) ∧
    ((∀ g, ¬ dueGroup g) →
      (∀ (a i : Nat) (x : Slot), turn c.loadPtr loadable a → s.part.cmp.slots[i]? = some x → x.state = .waiting l a →
        (∀ j, j < i → ∀ y, s.part.cmp.slots[j]? = some y → y.state ≠ .waiting l a) →
        let g := c.groupOf a
        let slots := s.part.cmp.slots.set i { x with state := .loading l a }
        let begun := { s.part with cmp := { s.part.cmp with slots := slots } }
        exec (.loadExchange l) s = .next { s with part := begun.setLine l { c with
          loadPtr := a, exchange := sending (.load i) a g (frameOf a 0x01 (BitVec.ofNat 8 g :: x.image)) } }) ∧
      ((∀ a, ¬ loadable a) →
        (∀ a, turn c.showPtr showable a →
          let g := c.groupOf a
          let d := LineCtl.showDecision { c with showPtr := a } f g
          exec (.addressedShow l) s = .next { s with part := s.part.setLine l { d.1 with
            exchange := sending .showOne a g (frameOf a 0x02 [BitVec.ofNat 8 g, BitVec.ofNat 8 d.2]) } }) ∧
        ((∀ a, ¬ showable a) → ∀ a, turn c.queryPtr askable a →
          let g := c.groupOf a
          let begun (q : Panel) : Panel :=
            if q.address = a ∧ (q.health = .absent ∨ q.health = .offline) then { q with probe := 32, queryDue := false }
            else q
          exec (.queryExchange l) s = .next { s with part := s.part.setLine l { c with
            queryPtr := a, panels := c.panels.map begun, exchange := sending .query a g (frameOf a 0x03 []) } })))) ∧
  (∀ (c : LineCtl) (f : LineConfig) (g : Nat), g < c.groups.length →
    let old := c.group g
    let d := c.showDecision f g
    let new := d.1.group g
    let lit (n : Nat) : Prop := ∃ q ∈ c.panels, q.group = g ∧ q.health = .online ∧ q.light = some n
    d.2 = f.levels.getD (new.sentStep.getD 8) 0 ∧
    d.1 = { c with groups := c.groups.set g { old with sentStep := new.sentStep, candStep := new.candStep } } ∧
    ((∀ n, ¬ lit n) → new.sentStep = old.sentStep ∧ new.candStep = none) ∧
    ∀ n, lit n → (∀ m, lit m → m ≤ n) →
      let step := (f.thresholds.filter (fun t => decide (t ≤ n))).length
      (old.sentStep = none → new.sentStep = some step ∧ new.candStep = none) ∧
      (old.sentStep = some step → new.sentStep = some step ∧ new.candStep = none) ∧
      (∀ sent, old.sentStep = some sent → step ≠ sent →
        (old.candStep = some step → new.sentStep = some step ∧ new.candStep = none) ∧
        (old.candStep ≠ some step → new.sentStep = some sent ∧ new.candStep = some step)))

/-- R138 to R140, R143, R144, R146, R148, R150 to R152: the ends of a frame and of an exchange. An addressed frame awaits its
reply; an addressed exchange, whose reply is complete or has timed out, gives its panel's record its outcome; a broadcast
SHOW closes its group's round and leaves every record but the show owed of the staged members. Last, what the staging of a
member and its leaving do to an open round. The model's choice: FRAME_SENT and REPLY_TIMEOUT act at any us value, so it is
the sender of the commands that keeps to the frame's time and the reply window (log 24). -/
def Obligations.ExchangesEnd : Prop :=
  (∀ (s : State) (l : Line) (x : Exchange), (s.part.line l).exchange = some x → x.awaiting = false →
    (x.kind = .showOne ∨ x.kind = .query ∨ (∃ i, x.kind = .load i)) →
    let sent := { x with awaiting := true, due := s.part.swp.us + 2000#32 }
    exec (.frameSent l) s
      = .next { s with part := s.part.setLine l { s.part.line l with exchange := some sent } }) ∧
  (∀ (s : State) (l : Line) (x : Exchange) (full : Bool), (s.part.line l).exchange = some x → x.awaiting = false →
    x.kind = .broadcast full → x.group < (s.part.line l).groups.length →
    let c := s.part.line l
    let old := c.group x.group
    let staged (a : Nat) : Prop := ∃ r, old.round = some r ∧ ∃ m ∈ r.members, m.address = a ∧ m.staged = true
    ∃ t c', exec (.frameSent l) s = .next t ∧ t.pending = s.pending ∧ c' = t.part.line l ∧
      (c'.group x.group).round = none ∧ (c'.group x.group).showDue = false ∧ (c'.group x.group).changed = false ∧
      (old.changed = true → (c'.group x.group).completed = false ∧ (c'.group x.group).syncFail = false) ∧
      (old.changed = false →
        (full = true → (c'.group x.group).completed = true ∧ (c'.group x.group).syncFail = false) ∧
        (full = false → (c'.group x.group).completed = old.completed ∧
          (c'.group x.group).syncFail = (old.syncFail || old.completed))) ∧
      (c'.group x.group).sentStep = old.sentStep ∧ (c'.group x.group).candStep = old.candStep ∧
      (∀ g, g ≠ x.group → c'.group g = c.group g) ∧ c'.exchange = none ∧
      c'.panels.length = c.panels.length ∧
      (∀ (i : Nat) (q : Panel), c.panels[i]? = some q →
        (staged q.address → c'.panels[i]? = some { q with owed := false }) ∧
        (¬ staged q.address → c'.panels[i]? = some q)) ∧
      { c' with groups := c.groups, exchange := c.exchange, panels := c.panels } = c ∧
      t.part.rep.attention
        = (if full = false ∧ old.completed = true then s.part.rep.attention ||| 0x040#10 else s.part.rep.attention) ∧
      { t.part.rep with attention := s.part.rep.attention } = s.part.rep ∧
      { (t.part.setLine l c) with rep := s.part.rep } = s.part) ∧
  (∀ (s : State) (l : Line) (x : Exchange) (cs : List RxChar) (run : Instr) (q : Panel),
    (s.part.line l).exchange = some x → x.awaiting = true → (run = .reply l cs ∨ run = .replyTimeout l cs) →
    (s.part.line l).panel x.address = some q → (∀ full, x.kind ≠ .broadcast full) →
    let c := s.part.line l
    let outcome := outcomeOf l x.address cs
    let good := match outcome with
      | .good _ => true
      | .notReady _ => false
      | .failure _ => false
    let owed := match x.kind with
      | .load _ => good || q.owed
      | .showOne => !good && q.owed
      | .query => q.owed
      | .broadcast _ => q.owed
    let q' := Panel.after { q with owed := owed } outcome
    let leaves := q'.health = .offline ∧ q.health ≠ .offline
    let stages := c.isGrouped q.group = true ∧ good = true ∧ ∃ i, x.kind = .load i
    ∃ t c', exec run s = .next t ∧ t.pending = s.pending ∧ c' = t.part.line l ∧ c'.exchange = none ∧
      c'.panels = c.panels.map (fun p => if p.address = x.address then
        Panel.after { p with owed := match x.kind with
          | .load _ => good || p.owed
          | .showOne => !good && p.owed
          | .query => p.owed
          | .broadcast _ => p.owed } outcome else p) ∧
      (¬ leaves → ¬ stages → c'.groups = c.groups) ∧
      (∀ g, g ≠ q.group → c'.group g = c.group g) ∧
      (stages → q.group < c.groups.length → c'.group q.group = (c.group q.group).stage x.address) ∧
      (leaves → q.group < c.groups.length → c'.group q.group = (c.group q.group).leave x.address) ∧
      { c' with groups := c.groups, exchange := c.exchange, panels := c.panels } = c ∧
      (∀ i, x.kind = .load i → ∀ (j : Nat) (y : Slot), s.part.cmp.slots[j]? = some y → t.part.cmp.slots[j]? = some
        (if j = i ∧ y.state = .loading l x.address then
          (if good then Slot.freed else { y with state := .waiting l x.address }) else y)) ∧
      ((∀ i, x.kind ≠ .load i) → t.part.cmp.slots = s.part.cmp.slots) ∧
      t.part.cmp.panelEvents = s.part.cmp.panelEvents ++
        (if q'.health = q.health then []
         else if q'.health = .online then [.online l x.address]
         else if q'.health = .offline then [.offline l x.address] else []) ∧
      t.part.rep.attention = (if q'.health ≠ q.health ∧ ¬ (q.health = .absent ∧ q'.health = .joining) then
        s.part.rep.attention ||| 0x020#10 else s.part.rep.attention) ∧
      { t.part.rep with attention := s.part.rep.attention } = s.part.rep ∧
      { t.part.cmp with slots := s.part.cmp.slots, panelEvents := s.part.cmp.panelEvents } = s.part.cmp ∧
      { (t.part.setLine l c) with rep := s.part.rep, cmp := s.part.cmp } = s.part) ∧
  (∀ (x : Group) (r : Round) (a : Nat), x.round = some r → r.members ≠ [] →
    let staged := r.members.map (fun m => if m.address = a then { m with staged := true } else m)
    let left := r.members.filter (fun m => decide (m.address ≠ a))
    x.stage a = { x with round := some { r with members := staged }
                         showDue := x.showDue || staged.all (·.staged) } ∧
    (left = [] → x.leave a = { x with round := none, showDue := false }) ∧
    (left ≠ [] → x.leave a = { x with round := some { r with members := left }
                                      showDue := x.showDue || left.all (·.staged) }))

/-- R139, R140, R143, R144: a panel's record after each outcome, by its health. R147: an outcome leaves no QUERY due by
count but that of a panel which stays ABSENT or OFFLINE, whose probe countdown has reached 0 (the flag queryDue is the
model's, log 20). -/
def Obligations.HealthMovesByOutcome : Prop :=
  (∀ (q : Panel) (n : Nat),
    let g := q.after (.good n)
    let r := q.after (.notReady n)
    let seen := { q with idle := 0, queryDue := false, light := some n }
    ((q.health = .absent ∨ q.health = .offline) → g = { seen with health := .joining, goodRun := 0 }) ∧
    (q.health = .joining → q.goodRun < 2 → g = { seen with goodRun := q.goodRun + 1 }) ∧
    (q.health = .joining → 2 ≤ q.goodRun →
      g = { seen with health := .online, goodRun := q.goodRun + 1, failRun := 0 }) ∧
    (q.health = .online → g = seen) ∧ (q.health = .failing → g = { seen with health := .online, failRun := 0 }) ∧
    (q.health = .absent → r = { seen with health := .joining, goodRun := 0 }) ∧
    (q.health = .offline → r = { seen with queryDue := decide (q.probe = 0) }) ∧
    (q.health ≠ .absent → q.health ≠ .offline → r = seen)) ∧
  (∀ (q : Panel) (k : Failure),
    let counted (n : Nat) : Nat := if n < 65535 then n + 1 else 65535
    let counters := match k with
      | .noReply => if q.health = .absent then q.counters
                    else { q.counters with noReply := counted q.counters.noReply }
      | .char => { q.counters with char := counted q.counters.char }
      | .length => { q.counters with length := counted q.counters.length }
      | .check => { q.counters with check := counted q.counters.check }
      | .address => { q.counters with address := counted q.counters.address }
    let b := q.after (.failure k)
    let failed := { q with idle := 0, queryDue := false, counters := counters }
    let out := { failed with health := .offline, probe := 32, owed := false, light := none }
    ((q.health = .absent ∨ q.health = .offline) → b = { failed with queryDue := decide (q.probe = 0) }) ∧
    (q.health = .joining → b = out) ∧
    (q.health = .online → b = { failed with health := .failing, failRun := 1 }) ∧
    (q.health = .failing → q.failRun < 3 → b = { failed with failRun := q.failRun + 1 }) ∧
    (q.health = .failing → 3 ≤ q.failRun → b = { out with failRun := q.failRun + 1 }))

/-- R147, R149, R151: a sweep boundary at a line: idle counts and probe countdowns; open rounds age and come due; a group with
work and no round opens one. Then the three judgements alone: a round at its hold limit, an ONLINE panel idle for 16, a
probe countdown at 0. The model's choices: a QUERY that comes due by count is kept as the record's flag queryDue (log 20); an
age stays at 15 while its due SHOW waits (log 61). -/
def Obligations.LineAgesAtSweepBoundary : Prop :=
  (∀ (s : State) (l : Line), (s.part.line l).boundaries ≠ 0 →
    let c := s.part.line l
    let work (q : Panel) : Prop := q.address ∈ s.part.cmp.refresh l ∨
      (∃ x ∈ s.part.cmp.slots, x.state.panel = some (l, q.address)) ∨ q.owed = true
    ∃ t c', exec (.lineSweepAgeing l) s = .next t ∧ t.pending = s.pending ∧ c' = t.part.line l ∧
      c'.boundaries = c.boundaries - 1 ∧
      c'.panels = c.panels.map (fun q => match q.health with
        | .online => { q with idle := min (q.idle + 1) 16, queryDue := decide (15 ≤ q.idle) }
        | .absent => { q with probe := q.probe - 1, queryDue := decide (q.probe ≤ 1) }
        | .offline => { q with probe := q.probe - 1, queryDue := decide (q.probe ≤ 1) }
        | .joining => q
        | .failing => q) ∧
      c'.groups.length = c.groups.length ∧
      (∀ g, g < c.groups.length →
        (∀ r, (c.group g).round = some r → c'.group g = { c.group g with
          round := some { r with age := min (r.age + 1) 15 }
          showDue := (c.group g).showDue || decide (c.hold g ≤ min (r.age + 1) 15) }) ∧
        ((c.group g).round = none →
          (¬ (c.isGrouped g = true ∧ ∃ q ∈ c.panels, q.group = g ∧ work q) → c'.group g = c.group g) ∧
          (c.isGrouped g = true → (∃ q ∈ c.panels, q.group = g ∧ work q) →
            ∃ members : List Member, c'.group g = { c.group g with
                round := some { members := members, age := 0 }
                showDue := (c.group g).showDue || members.all (·.staged) } ∧
              ∀ m, m ∈ members ↔ ∃ q ∈ c.panels, q.group = g ∧ work q ∧ m = { address := q.address, staged := q.owed }))) ∧
      { c' with boundaries := c.boundaries, groups := c.groups, panels := c.panels } = c ∧
      t.part.setLine l c = s.part) ∧
  (∀ (s : State) (l : Line) (g a : Nat),
    let c := s.part.line l
    (∀ r, g < c.groups.length → (c.group g).round = some r → c.hold g ≤ r.age →
      let due := { c with groups := c.groups.set g { c.group g with showDue := true } }
      exec (.holdLimitReached l g) s = .next { s with part := s.part.setLine l due }) ∧
    (let asked (q : Panel) : Panel :=
       if q.address = a ∧ q.health = .online ∧ q.idle = 16 then { q with queryDue := true } else q
     exec (.idleCountFull l a) s
       = .next { s with part := s.part.setLine l { c with panels := c.panels.map asked } }) ∧
    (let asked (q : Panel) : Panel :=
       if q.address = a ∧ (q.health = .absent ∨ q.health = .offline) ∧ q.probe = 0 then { q with queryDue := true }
       else q
     exec (.probeCountdownEnd l a) s
       = .next { s with part := s.part.setLine l { c with panels := c.panels.map asked } }))

/-- R142, R152: a line takes a profile: records are matched by address, steps and pointers stay, and the groups follow the new
modes and hold limits; a change of mode while the group's broadcast SHOW is in flight is noted, to act at its close. R138: an
exchange with a panel removed is cut off: its frame ends with the character in hand, if one is, and the quiet time of 2 ms
runs from there; it ends once they have passed, and begins again at a start bit that arrives while the controller receives.
R135: TXD and DIR: the bits of the characters being sent, and DIR at transmit while they are; TXD rests at 1. The model's
choices: a flag for a record that is created marks its QUERY as due (log 20); the character in hand at the us value of the
cut is the one begun by then, and none is in hand once all are sent (logs 24 and 52); the load judges an open round anew, so
one that raises the hold limit above the age withdraws the SHOW of a round not fully staged, as R151's law has it (log 51);
a line takes a profile handed to it while RUN is 0 too (log 58); the end of the quiet time is judged modulo 2^32 (log 25);
cutOffQuietEnd before that end or with no quiet time, and quietTimeStartBit with none, leave the state as it is (log 2). -/
def Obligations.LineTakesProfile : Prop :=
  let quarters (rate : Nat) : Nat := if rate = 0 then 8 else if rate = 1 then 4 else if rate = 2 then 2 else 1
  (∀ (s : State) (l : Line) (f : Profile) (rest : List Profile), (s.part.line l).profiles = f :: rest →
    let c := s.part.line l
    let n := f.line l
    let listed (a : Nat) : Prop := ∃ q ∈ n.panels, q.address = a
    let cut := ∃ x, c.exchange = some x ∧ ¬ listed x.address ∧ ∀ full, x.kind ≠ .broadcast full
    let round (g : Nat) : Option Round := (c.group g).round.map (fun r =>
      { r with members := r.members.filter (fun m => n.panels.any (fun q => q.address == m.address && q.group == g)) })
    let grouped (k : LineConfig) (g : Nat) : Bool := (k.groups.getD g { grouped := false, hold := 0 }).grouped
    let hold (g : Nat) : Nat := (n.groups.getD g { grouped := false, hold := 0 }).hold
    let broadcasting (g : Nat) : Prop := ∃ x full, c.exchange = some x ∧ x.kind = .broadcast full ∧ x.group = g
    let modeChanges (g : Nat) : Prop := ∃ o, c.config = some o ∧ grouped o g ≠ grouped n g
    ∃ t c', exec (.lineProfileLoad l) s = .next t ∧ t.pending = s.pending ∧ c' = t.part.line l ∧
      c'.profiles = rest ∧ c'.config = some n ∧ c'.panels.length = n.panels.length ∧
      (∀ (i : Nat) (place : PanelPlace), n.panels[i]? = some place →
        (∀ q, c.panel place.address = some q → c'.panels[i]? = some { q with group := place.group }) ∧
        (c.panel place.address = none → ∃ q, c'.panels[i]? = some q ∧ q.address = place.address ∧
          q.group = place.group ∧ q.health = .absent ∧ q.goodRun = 0 ∧ q.failRun = 0 ∧ q.idle = 0 ∧ q.probe = 0 ∧
          q.light = none ∧ q.owed = false ∧
          q.counters = { noReply := 0, char := 0, length := 0, check := 0, address := 0 } ∧ q.queryDue = true)) ∧
      (cut → c'.exchange = none) ∧
      (∀ x, cut → c.exchange = some x →
        let start := x.due - BitVec.ofNat 32 (sendingTime x.rate x.frame.length)
        let begun := 4 * (s.part.swp.us - start).toNat / (11 * quarters x.rate) + 1
        (x.awaiting = true ∨ x.frame.length < begun →
          c'.tail = none ∧ c'.quiet = some (s.part.swp.us + 2000#32)) ∧
        (x.awaiting = false → begun ≤ x.frame.length →
          c'.tail = some { bytes := x.frame.take begun, rate := x.rate, start := start } ∧
          c'.quiet = some (start + BitVec.ofNat 32 (sendingTime x.rate begun) + 2000#32))) ∧
      (¬ cut → c'.exchange = c.exchange ∧ c'.quiet = c.quiet ∧ c'.tail = c.tail) ∧
      c'.groups.length = c.groups.length ∧
      (∀ g, g < c.groups.length →
        (c'.group g).sentStep = (c.group g).sentStep ∧ (c'.group g).candStep = (c.group g).candStep ∧
        (broadcasting g → (c'.group g).round = round g ∧ (c'.group g).showDue = (c.group g).showDue ∧
          (c'.group g).completed = (c.group g).completed ∧ (c'.group g).syncFail = (c.group g).syncFail ∧
          ((c'.group g).changed = true ↔ (c.group g).changed = true ∨ modeChanges g)) ∧
        (¬ broadcasting g → (c'.group g).changed = (c.group g).changed ∧
          (modeChanges g → (c'.group g).completed = false ∧ (c'.group g).syncFail = false) ∧
          (¬ modeChanges g → (c'.group g).completed = (c.group g).completed ∧
            (c'.group g).syncFail = (c.group g).syncFail) ∧
          (modeChanges g → grouped n g = false → (c'.group g).round = none ∧ (c'.group g).showDue = false) ∧
          (¬ (modeChanges g ∧ grouped n g = false) →
            (round g = none → (c'.group g).round = none ∧ (c'.group g).showDue = (c.group g).showDue) ∧
            (∀ r, round g = some r → r.members = [] → (c'.group g).round = none ∧ (c'.group g).showDue = false) ∧
            (∀ r, round g = some r → r.members ≠ [] → (c'.group g).round = some r ∧
              (c'.group g).showDue = (r.members.all (·.staged) || decide (hold g ≤ r.age)))))) ∧
      { c' with profiles := c.profiles, config := c.config, panels := c.panels, exchange := c.exchange
                quiet := c.quiet, tail := c.tail, groups := c.groups } = c ∧
      t.part.setLine l c = s.part) ∧
  (∀ (s : State) (l : Line),
    let c := s.part.line l
    let us := s.part.swp.us
    let ended := { c with quiet := none, tail := none }
    let again := { c with quiet := some (us + 2000#32) }
    let sends := ∃ x, c.tail = some x ∧
      2147483648 ≤ (us - (x.start + BitVec.ofNat 32 (sendingTime x.rate x.bytes.length))).toNat
    (∀ d, c.quiet = some d →
      ((us - d).toNat < 2147483648 →
        exec (.cutOffQuietEnd l) s = .next { s with part := s.part.setLine l ended }) ∧
      (2147483648 ≤ (us - d).toNat → exec (.cutOffQuietEnd l) s = .next s) ∧
      (¬ sends → exec (.quietTimeStartBit l) s = .next { s with part := s.part.setLine l again }) ∧
      (sends → exec (.quietTimeStartBit l) s = .next s)) ∧
    (c.quiet = none → exec (.cutOffQuietEnd l) s = .next s ∧ exec (.quietTimeStartBit l) s = .next s)) ∧
  (∀ (c : LineCtl) (us : Word) (quarter : Nat),
    let shown (bytes : List Byte) (rate : Nat) (start : Word) : Bool :=
      let n := (4 * (us - start).toNat + quarter) / quarters rate
      match bytes[n / 11]? with
      | none => true
      | some b => if n % 11 = 0 then false else if n % 11 ≤ 8 then b.toNat.testBit (n % 11 - 1)
                  else if n % 11 = 9 then evenParity b else true
    (∀ x, c.exchange = some x →
      (x.awaiting = true → c.txd us quarter = true ∧ c.transmitting us = false) ∧
      (x.awaiting = false → c.transmitting us = true ∧
        c.txd us quarter = shown x.frame x.rate (x.due - BitVec.ofNat 32 (sendingTime x.rate x.frame.length)))) ∧
    (c.exchange = none →
      (c.tail = none → c.txd us quarter = true ∧ c.transmitting us = false) ∧
      ∀ x, c.tail = some x → c.txd us quarter = shown x.bytes x.rate x.start ∧
        c.transmitting us = decide (2147483648 ≤
          (us - (x.start + BitVec.ofNat 32 (sendingTime x.rate x.bytes.length))).toNat)))

/-! ### Sweep timer and train sync -/

/-- R157 to R160: a boundary that the timer makes itself, when next boundary due is reached: the number of R159, the last
boundary, the sweep pulse, in LEADING the lead pulse, the next boundary due, and the boundary raised toward every block. The
ends of the two pulses, and what the part drives on TSYNC by the sync state and the lead pulse. The model's choices:
sweepBoundary before it is due leaves the state as it is (log 2); the boundary is handed to the tracker and the reservation
engine while they owe a load (log 44), and the edition unit keeps one flag for it (log 32); with a lead pulse still in
progress TSYNC stays at 1 to the later of the two ends (log 53). -/
def Obligations.SweepBoundaryByPeriod : Prop :=
  (∀ (wrap n : Nat) (zeroMark : Bool),
    (wrap = 0 → numberAfter wrap n zeroMark = 0) ∧
    (wrap ≠ 0 → zeroMark = true → numberAfter wrap n zeroMark = 1) ∧
    (wrap ≠ 0 → zeroMark = false → (n = 0 ∨ wrap ≤ n) → numberAfter wrap n zeroMark = 1) ∧
    (wrap ≠ 0 → zeroMark = false → n ≠ 0 → n < wrap → numberAfter wrap n zeroMark = n + 1)) ∧
  (∀ (s : State) (due : Word), s.part.regs.run = true →
    (s.part.swp.sync = .alone ∨ s.part.swp.sync = .leading ∨ s.part.swp.sync = .freewheel) →
    s.part.swp.nextDue = some due →
    let w := s.part.swp
    let number := numberAfter w.wrap w.number false
    let ends := w.us + if number = 1 then 3000#32 else 1000#32
    let later : Word := match w.leadPulse with
      | none => ends
      | some e => if (ends - e).toNat < 2147483648 then ends else e
    let raised (load : LoadState) (n : Nat) : Nat := if load = .owed then n + 1 else n
    let rung (c : LineCtl) : LineCtl := { c with boundaries := c.boundaries + 1 }
    ((w.ms - due).toNat < 2147483648 →
      exec .sweepBoundary s = .next { s with part := { s.part with
        swp := { w with
          number := number, last := some { us := w.us, ms := w.ms }
          leadPulse := if w.sync = .leading then some later else w.leadPulse
          sweepPulse := some (w.us + 1000#32), nextDue := some (w.ms + BitVec.ofNat 32 w.period) }
        trk := { s.part.trk with boundaries := raised s.part.trk.load s.part.trk.boundaries }
        res := { s.part.res with boundaries := raised s.part.res.load s.part.res.boundaries }
        ntc := { s.part.ntc with boundaries := s.part.ntc.boundaries + 1 }
        cmp := { s.part.cmp with boundaries := s.part.cmp.boundaries + 1 }
        lineSeat := rung s.part.lineSeat, lineEnd := rung s.part.lineEnd, lineDoor := rung s.part.lineDoor
        ed := { s.part.ed with boundary := true }
        rep := { s.part.rep with boundaries := s.part.rep.boundaries + 1 } } }) ∧
    (2147483648 ≤ (w.ms - due).toNat → exec .sweepBoundary s = .next s)) ∧
  (∀ s : State,
    (∀ e, s.part.swp.sweepPulse = some e → (s.part.swp.us - e).toNat < 2147483648 →
      exec .sweepPulseEnd s
        = .next { s with part := { s.part with swp := { s.part.swp with sweepPulse := none } } }) ∧
    (∀ e, s.part.swp.leadPulse = some e → (s.part.swp.us - e).toNat < 2147483648 →
      exec .leadPulseEnd s
        = .next { s with part := { s.part with swp := { s.part.swp with leadPulse := none } } })) ∧
  (∀ p : Part,
    (∀ e, p.swp.leadPulse = some e → p.tsyncDrive = some true) ∧
    (p.swp.leadPulse = none → (p.swp.sync = .leading → p.tsyncDrive = some false) ∧
      (p.swp.sync ≠ .leading → p.tsyncDrive = none)))

/-- R161 to R163: TSYNC edges in FOLLOWING and FREEWHEEL, and the loss of the leader. A pulse below 250 us is discarded, one
of 2 ms or more is a zero mark; a valid pulse makes a boundary unless the last boundary lies less than 20 ms behind, where a
zero mark realigns the number; in FREEWHEEL it first regains the leader. A boundary is that of `SweepBoundaryByPeriod`
without a change of next boundary due. The model's choice: syncSilenceExpiry with RUN 0, outside FOLLOWING or before it is
due leaves the state as it is (log 2). -/
def Obligations.TrainSyncFollowsTheLeader : Prop :=
  (∀ s : State,
    let high := { s.part with pins := { s.part.pins with tsync := true } }
    let low := { s.part with pins := { s.part.pins with tsync := false } }
    let watches := s.part.regs.run = true ∧ (s.part.swp.sync = .following ∨ s.part.swp.sync = .freewheel)
    (¬ watches → exec .tsyncRisingEdge s = .next { s with part := high } ∧
      exec .tsyncTrailingEdge s = .next { s with part := low }) ∧
    (watches →
      exec .tsyncRisingEdge s = .next { s with part := { high with
        swp := { s.part.swp with pulseStart := some s.part.swp.us } } } ∧
      (s.part.swp.pulseStart = none → exec .tsyncTrailingEdge s = .next { s with part := low }) ∧
      ∀ start, s.part.swp.pulseStart = some start →
        let w := s.part.swp
        let width := (w.us - start).toNat
        let zeroMark := decide (2000 ≤ width)
        let valid := { w with pulseStart := none, lastPulse := some w.us
                              silence := some (w.ms + BitVec.ofNat 32 (3 * w.period)) }
        let heard := { low with swp := valid }
        let followed := if w.sync = .freewheel then
            Part.raise { heard with swp := { valid with sync := .following, nextDue := none } } .trainSync
          else heard
        let near := ∃ b, w.last = some b ∧ (w.us - b.us).toNat < 20000
        (width < 250 → exec .tsyncTrailingEdge s
          = .next { s with part := { low with swp := { w with pulseStart := none } } }) ∧
        (250 ≤ width → ¬ near →
          ∃ t, exec .tsyncTrailingEdge s = .next t ∧ t.pending = s.pending ∧
            t.part.swp = { followed.swp with
              number := numberAfter w.wrap w.number zeroMark, last := some { us := w.us, ms := w.ms }
              sweepPulse := some (w.us + 1000#32) } ∧
            t.part = Part.makeBoundary followed zeroMark) ∧
        (250 ≤ width → near → zeroMark = false → exec .tsyncTrailingEdge s = .next { s with part := followed }) ∧
        (250 ≤ width → near → zeroMark = true → exec .tsyncTrailingEdge s
          = .next { s with part := { followed with
              swp := { followed.swp with number := if w.wrap = 0 then w.number else 1 } } }))) ∧
  (∀ (s : State) (deadline : Word), s.part.swp.silence = some deadline →
    let w := s.part.swp
    let freed := { w with sync := .freewheel, silence := none, nextDue := some w.ms }
    (s.part.regs.run = true → w.sync = .following → (w.ms - deadline).toNat < 2147483648 →
      exec .syncSilenceExpiry s
        = exec .sweepBoundary { s with part := Part.raise { s.part with swp := freed } .trainSync } ∧
      ∃ t, exec .syncSilenceExpiry s = .next t ∧ t.pending = s.pending ∧ t.part.swp.sync = .freewheel ∧
        t.part.swp.silence = none ∧ t.part.swp.nextDue = some (w.ms + BitVec.ofNat 32 w.period) ∧
        t.part.swp.number = numberAfter w.wrap w.number false ∧ t.part.rep.attention.getLsbD 7 = true) ∧
    ((s.part.regs.run = false ∨ w.sync ≠ .following ∨ 2147483648 ≤ (w.ms - deadline).toNat) →
      exec .syncSilenceExpiry s = .next s))

/-- R157, R164, R166: the timer takes a profile's period, SWEEP_WRAP, role and outputs; a change of role sets the sync state
and its deadlines; a boundary or a loss of the leader that is then due comes at once, as the step of `sweepBoundary` and
of `syncSilenceExpiry`; with neither due the timer's own state is all that changes. The model's choices: the ms value of the
last valid pulse, from which the silence deadline counts, is found from its us value (log 40); a load taken while RUN is 0
(log 58) sets next boundary due as any other, and no boundary is made of it (log 54). -/
def Obligations.SweepTakesProfile : Prop :=
  ∀ (s : State) (f : Profile) (rest : List Profile), s.part.swp.profiles = f :: rest →
    let w := s.part.swp
    let run := s.part.regs.run
    let fromLast : Word := match w.last with
      | none => w.ms
      | some t => t.ms + BitVec.ofNat 32 f.period
    let periodDue : Option Word := match w.last with
      | none => w.nextDue
      | some t => some (t.ms + BitVec.ofNat 32 f.period)
    let taken := { w with profiles := rest, period := f.period, wrap := f.wrap, role := f.role, outs := f.outs }
    let follows := w.sync = .following ∨ w.sync = .freewheel
    ∃ w' : Sweep,
      (∃ t, exec .sweepBoundary { s with part := { s.part with swp := w' } } = .next t ∧
        exec .sweepProfileLoad s = exec .syncSilenceExpiry t) ∧
      (let boundary := run = true ∧ w'.sync ≠ .following ∧
         ∃ d, w'.nextDue = some d ∧ (w'.ms - d).toNat < 2147483648
       let loss := run = true ∧ w'.sync = .following ∧ ∃ d, w'.silence = some d ∧ (w'.ms - d).toNat < 2147483648
       let with' : State := { s with part := { s.part with swp := w' } }
       (∃ u, exec .sweepProfileLoad s = .next u ∧ u.pending = s.pending ∧ u.part.swp.profiles = rest ∧
         u.part.swp.period = f.period ∧ u.part.swp.wrap = f.wrap ∧ u.part.swp.role = f.role ∧
         u.part.swp.outs = f.outs) ∧
       (¬ boundary → ¬ loss → exec .sweepProfileLoad s = .next with') ∧
       (boundary → exec .sweepProfileLoad s = exec .sweepBoundary with') ∧
       (loss → exec .sweepProfileLoad s = exec .syncSilenceExpiry with')) ∧
      { w' with sync := w.sync, nextDue := w.nextDue, silence := w.silence, pulseStart := w.pulseStart } = taken ∧
      (f.role = w.role → w'.sync = w.sync ∧ w'.pulseStart = w.pulseStart ∧
        (f.period = w.period → w'.nextDue = w.nextDue ∧ w'.silence = w.silence) ∧
        (f.period ≠ w.period →
          (w.sync ≠ .following → w'.nextDue = periodDue ∧ w'.silence = w.silence) ∧
          (w.sync = .following → w'.nextDue = w.nextDue ∧ (w.silence = none → w'.silence = none) ∧
            (w.silence ≠ none →
              (w.lastPulse = none → w'.silence = some (w.ms + BitVec.ofNat 32 (3 * f.period))) ∧
              (∀ us, w.lastPulse = some us →
                w'.silence = some (w.msAt us + BitVec.ofNat 32 (3 * f.period))))))) ∧
      (f.role ≠ w.role → f.role = .follow → w'.sync = .following ∧ w'.nextDue = none ∧ w'.pulseStart = w.pulseStart ∧
        w'.silence = if run then some (w.ms + BitVec.ofNat 32 (3 * f.period)) else none) ∧
      (f.role ≠ w.role → f.role ≠ .follow →
        w'.sync = (if f.role = .lead then SyncState.leading else SyncState.alone) ∧
        w'.silence = none ∧ w'.pulseStart = none ∧
        (follows → w'.nextDue = some fromLast) ∧
        (¬ follows → w'.nextDue = if f.period = w.period then w.nextDue else periodDue))

/-! ### Edition unit -/

/-- R171, R178: a full write with no bus error: for each kind the request written back where it is, live, busy A, busy B,
result and live edition, then capacity and take, then the sequence word, 1 more than before; no other byte is touched. R171,
R181, R183: every head-block write is its fields, byte by byte, then the sequence word; the first byte that meets a bus error
is reported and leaves the rest unwritten, the sequence word with them; that the bytes before it are written, inside its
field too, is the model's choice (log 81). Whether the sequence counter has gone up after such a
write the model leaves open (log 16). The fields of a full write, a take write and a position write, in order (log 38); a
result byte that meets a bus error is reported, and take advances as usual. 11.2, 11.3: the numbers of the results. -/
def Obligations.FullWriteShowsEditionUnit : Prop :=
  (∀ (p : Part) (bus : Bus) (fields : List FieldWrite),
    let base := p.regs.windowBase
    let bytes (fs : List FieldWrite) : List (Nat × Byte) := fs.flatMap (fun f =>
      (List.range f.size).map (fun i => (f.offset + i, BitVec.ofNat 8 (f.value / 256 ^ i))))
    let refused (x : Nat × Byte) : Prop := busAddress base x.1 ∈ bus.writeErrors
    let put (m : Memory) (xs : List (Nat × Byte)) : Memory :=
      Memory.writeAll m (xs.map (fun x => (busAddress base x.1, x.2)))
    let seq := p.ed.seq + 1#32
    let word := bytes [{ offset := 4, size := 4, value := seq.toNat }]
    let shown := put p.mem (bytes fields)
    (∀ before x after, bytes fields = before ++ x :: after → (∀ y ∈ before, ¬ refused y) → refused x →
      ∃ n, (n = p.ed.seq ∨ n = seq) ∧ p.headWrite bus fields = Part.memoryError
        { p with mem := put p.mem before, ed := { p.ed with seq := n } } .edition x.1 .bus) ∧
    ((∀ y ∈ bytes fields, ¬ refused y) →
      (∀ before x after, word = before ++ x :: after → (∀ y ∈ before, ¬ refused y) → refused x →
        p.headWrite bus fields = Part.memoryError
          { p with mem := put shown before, ed := { p.ed with seq := seq } } .edition x.1 .bus) ∧
      ((∀ y ∈ word, ¬ refused y) →
        p.headWrite bus fields = { p with mem := put shown word, ed := { p.ed with seq := seq } }))) ∧
  (∀ (p : Part) (bus : Bus) (back : List Kind) (slot : Nat) (r : AmendResult) (result : PositionResult),
    let field (offset size value : Nat) : FieldWrite := { offset := offset, size := size, value := value }
    let entry (k : Kind) : Nat := match k with
      | .coachProfile => 0x10
      | .stopList => 0x28
      | .reservationTable => 0x40
      | .noticeTable => 0x58
      | .contentSet => 0x70
    let code (c : Option Copy) : Nat := match c with
      | none => 0
      | some .a => 1
      | some .b => 2
    let busy (b : Prop) [Decidable b] : Nat := if b then 1 else 0
    let shown (k : Kind) : List FieldWrite :=
      let s := p.ed.kind k
      (if k ∈ back then [field (entry k + 8) 1 0] else []) ++
        [ field (entry k + 9) 1 (code s.live), field (entry k + 10) 1 (busy (s.live = some .a ∨ 0 < s.pinsA)),
          field (entry k + 11) 1 (busy (s.live = some .b ∨ 0 < s.pinsB)), field (entry k + 12) 1 s.result.code,
          field (entry k + 16) 4 s.liveEdition ]
    let place := busAddress p.regs.windowBase (slot + 16)
    p.fullWrite bus back = p.headWrite bus (shown .coachProfile ++ shown .stopList ++ shown .reservationTable
      ++ shown .noticeTable ++ shown .contentSet ++ [field 0x8C 1 64, field 0x8E 1 p.ed.take]) ∧
    p.takeWrite bus = p.headWrite bus [field 0x8E 1 p.ed.take] ∧
    (p.regs.run = true → bus.wait = false →
      p.positionWrite bus result = p.headWrite bus [field 0x91 1 result.code, field 0x90 1 0]) ∧
    p.takeRecord bus slot r = (let q := p.resultWrite bus slot r.code
      Part.takeWrite { q with ed := { q.ed with take := (q.ed.take + 1) % 64 } } bus) ∧
    (place ∈ bus.writeErrors → p.resultWrite bus slot r.code = p.memoryError .edition (slot + 16) .bus) ∧
    (place ∉ bus.writeErrors → p.resultWrite bus slot r.code
      = { p with mem := Memory.write p.mem place (BitVec.ofNat 8 r.code) })) ∧
  ([Result.noResult, .done, .kind, .count, .order, .duplicate, .range, .editionOrder, .memory].map Result.code
      = [0, 1, 2, 3, 4, 5, 6, 7, 8] ∧
    [PositionResult.done, .notServed, .lastStop, .noStops, .invalid].map PositionResult.code = [1, 2, 3, 4, 5] ∧
    [AmendResult.applied, .replaced, .stale, .invalid, .unknownSeat, .refusedUnresolved, .expired, .refusedFull,
      .notFound].map AmendResult.code = [1, 2, 3, 4, 5, 6, 7, 8, 9]) ∧
  ∀ (p : Part) (bus : Bus) (back : List Kind), bus.writeErrors = [] → p.memoryCanonical →
    let p' := p.fullWrite bus back
    let at_ (offset : Nat) : Byte := Memory.read p'.mem (busAddress p.regs.windowBase offset)
    let entry (k : Kind) : Nat := match k with
      | .coachProfile => 0x10
      | .stopList => 0x28
      | .reservationTable => 0x40
      | .noticeTable => 0x58
      | .contentSet => 0x70
    let code (c : Option Copy) : Byte := match c with
      | none => 0
      | some .a => 1
      | some .b => 2
    let busy (b : Prop) [Decidable b] : Byte := if b then 1 else 0
    (∀ k : Kind,
      let s := p.ed.kind k
      (k ∈ back → at_ (entry k + 8) = 0) ∧
      at_ (entry k + 9) = code s.live ∧
      at_ (entry k + 10) = busy (s.live = some .a ∨ 0 < s.pinsA) ∧
      at_ (entry k + 11) = busy (s.live = some .b ∨ 0 < s.pinsB) ∧
      at_ (entry k + 12) = BitVec.ofNat 8 s.result.code ∧
      ∀ i, i < 4 → at_ (entry k + 16 + i) = BitVec.ofNat 8 (s.liveEdition / 256 ^ i)) ∧
    at_ 0x8C = 64 ∧ at_ 0x8E = BitVec.ofNat 8 p.ed.take ∧
    (∀ i, i < 4 → at_ (4 + i) = BitVec.ofNat 8 ((p.ed.seq + 1#32).toNat / 256 ^ i)) ∧
    (∀ a, (∀ k : Kind, (k ∈ back → a ≠ busAddress p.regs.windowBase (entry k + 8)) ∧
        ∀ i, i ∈ [9, 10, 11, 12, 16, 17, 18, 19] → a ≠ busAddress p.regs.windowBase (entry k + i)) →
      (∀ i, i ∈ [0x8C, 0x8E, 4, 5, 6, 7] → a ≠ busAddress p.regs.windowBase i) →
      Memory.read p'.mem a = Memory.read p.mem a) ∧
    { p' with mem := p.mem } = { p with ed := { p.ed with seq := p.ed.seq + 1#32 } }

/-- R170, R173, R180, R183, R188, 11.2: a boundary operation: the owed writes, the reading of the head block, the requests and
the full write, the position request, the amendment list. The model's choices: boundaryOperation whose boundary has not come,
or with RUN 0, leaves the state as it is (log 2), and so does one that waits for a position answer, all of it, where R170 has
its read of step 2 wait (log 32); of the cases of R180 the first that holds applies alone (log 62); a run cut off whose record
is unanswered is one in flight (log 72). -/
def Obligations.BoundaryOperationTakesTheHeadBlock : Prop :=
  ([Kind.coachProfile, .stopList, .reservationTable, .noticeTable, .contentSet].map slotEntry
      = [0x10, 0x28, 0x40, 0x58, 0x70] ∧
    ∀ (head : List Byte) (offset : Nat),
      let at_ (i : Nat) : Nat := (head.getD (offset + i) 0).toNat
      headField head offset 1 = at_ 0 ∧ headField head offset 2 = at_ 0 + 256 * at_ 1 ∧
      headField head offset 4 = at_ 0 + 256 * at_ 1 + 65536 * at_ 2 + 16777216 * at_ 3 ∧
      littleEndian (head.take 4) = headField head 0 4) ∧
  (∀ (s : State) (bus : Bus),
    (s.part.ed.boundary = false ∨ s.part.regs.run = false ∨ s.part.trk.request ≠ none →
      exec (.boundaryOperation bus) s = .next s) ∧
    (s.part.ed.boundary = true → s.part.regs.run = true → s.part.trk.request = none →
      let landed := { s.part with mem := Memory.writeAll s.part.mem bus.host
                                  ed := { s.part.ed with boundary := false, owed := [] } }
      let board := { bus with late := [] }
      let owedWrite (p : Part) (w : OwedWrite) : Part := match w with
        | .full k request => p.completionWrite board k request
        | .amend slot r => (p.resultWrite board slot r.code).advanceTake board
        | .position r => p.headWrite board (positionFields r)
      let paid := s.part.ed.owed.foldl owedWrite landed
      (∀ f, (paid.view bus).bytes 0 256 = .error f →
        exec (.boundaryOperation bus) s = .next { s with part := paid.memoryError .edition f.address f.cause }) ∧
      ∀ head, (paid.view bus).bytes 0 256 = .ok head →
        (littleEndian (head.take 4) ≠ 0x52AC7240 →
          exec (.boundaryOperation bus) s = .next { s with part := paid.memoryError .edition 0 .signature }) ∧
        (littleEndian (head.take 4) = 0x52AC7240 →
          exec (.boundaryOperation bus) s
            = .next { s with part := ((paid.takeRequests bus head).handPosition bus head).examineList head }))) ∧
  (∀ (p : Part) (bus : Bus) (head : List Byte), ∃ (q : Part) (back : List Kind),
    p.takeRequests bus head = (q.lateWrites bus).fullWrite bus back ∧
    (∀ k : Kind,
      let s := p.ed.kind k
      let request := headField head (slotEntry k + 8) 1
      let named (c : Copy) : Prop := (request = 1 ∧ c = .a) ∨ (request = 2 ∧ c = .b)
      let address (c : Copy) : Nat := headField head (slotEntry k + if c = .a then 0 else 4) 4
      (request = 0 ∨ s.switch ≠ none → q.ed.kind k = s ∧ k ∉ back) ∧
      (request ≠ 0 → s.switch = none →
        (2 < request → q.ed.kind k = { s with result := .range } ∧ k ∈ back) ∧
        ∀ c, named c →
          (s.live = some c → q.ed.kind k = { s with result := .done } ∧ k ∈ back) ∧
          (s.live ≠ some c → k ∉ back ∧ q.ed.kind k = { s.pin c with
            switch := some { copy := c, address := address c, request := request } }))) ∧
    (∀ i, q.rep.attention.getLsbD i = true ↔ p.rep.attention.getLsbD i = true ∨
      ∃ k : Kind, (p.ed.kind k).switch = none ∧
        ((i = 1 ∧ 2 < headField head (slotEntry k + 8) 1) ∨
         (i = 0 ∧ ((headField head (slotEntry k + 8) 1 = 1 ∧ (p.ed.kind k).live = some .a) ∨
                   (headField head (slotEntry k + 8) 1 = 2 ∧ (p.ed.kind k).live = some .b))))) ∧
    { q.rep with attention := p.rep.attention } = p.rep ∧
    q.ed = { p.ed with profile := q.ed.profile, stops := q.ed.stops, reservations := q.ed.reservations
                       notices := q.ed.notices, content := q.ed.content } ∧
    { q with ed := p.ed, rep := p.rep } = p) ∧
  (∀ (p : Part) (bus : Bus) (head : List Byte),
    let code := headField head 0x90 1
    let request (kind : PositionKind) : Part := { p with trk := { p.trk with
      request := some { kind := kind, code := headField head 0x92 2, metres := headField head 0x94 4 } } }
    (code = 0 → p.handPosition bus head = p) ∧
    (code = 1 → p.handPosition bus head = request .placeAtStop) ∧
    (code = 2 → p.handPosition bus head = request .placeInLeg) ∧
    (code = 3 → p.handPosition bus head = request .unplace) ∧
    (3 < code → p.handPosition bus head = p.headWrite bus (positionFields .invalid))) ∧
  (∀ (p : Part) (head : List Byte),
    let list := headField head 0x88 4
    let post := headField head 0x8D 1
    let outside := list % 16 ≠ 0 ∨ 16777216 < list + 2048
    (outside → p.examineList head = p.memoryError .edition list .window) ∧
    (¬ outside → 64 ≤ post → p.examineList head = p.memoryError .edition 0x8D .amendIndex) ∧
    (¬ outside → post < 64 → (post = p.ed.take ∨ p.ed.run ≠ none) → p.examineList head = p) ∧
    (¬ outside → post < 64 → post ≠ p.ed.take → p.ed.run = none →
      p.examineList head = { p with ed := { p.ed with
        run := some { post := post, count := 0, list := list, stage := .reading, cut := false } } }))

/-- R174 to R176: the end of a switch in flight. The header checks come first, in order, of the header as 11.3 lays it out.
A copy that passes becomes live, its pin is dropped, and the loader is told, or for the coach profile every block; a content
set marks every panel and ends what R113 keeps of the panels' windows. A copy that fails drops its pin and leaves the live
copy. The full write of the completion follows, the request written back where the re-read still finds it, or is owed where
it has not had its turn. R177 with R3, R24, R156, R85, R141 and R61, R192 with R106 and R126, R21, R64, R86: the checks of
each kind after the header, in their order: the first that fails gives the result, and a passed coach profile gives its
values (log 36 for the checks that range over a line's panels and a page's windows; the record checks are those of
`LoadsPinAndReplaceTheStore`). A memory error is that of a byte that could not be read. R63: the edition floor of the
checks. The model's choices: the copy is read whole at this step (log 13), and the edition floor judged at it (log 74), a
load counting in it from its start at the engine (log 66); each section is read whole before its first check (log 59); a
fault of the copy's extent reports the copy's address, a failed read that of its byte (log 35); a fixed text reference of
0xFFFF passes (log 28), and bits 2 to 7 of a flags byte are ignored (log 76); of a strip count above 2 strips 0 and 1 alone
are held (log 77); an empty area of a content set beyond the stated length is refused (log 65); the full write is owed where
bus.wait says that its turn has not come (log 15); a row that the validation does not call for does nothing (log 2). -/
def Obligations.SwitchesEnd : Prop :=
  (∀ (v : View) (k : Kind) (floor : Option Nat) (a : Nat) (h : Header),
    let refused (r : Result) : Prop := v.validBody k floor a h = .error (.result r)
    let judged {α : Type} (records : Except (Nat × Reject) α) : Prop :=
      (∀ rs, records = .ok rs → v.validBody k floor a h = .ok none) ∧
      ∀ at_ e, records = .error (at_, e) → v.validBody k floor a h = .error e
    (v.header a = .ok h → a % 16 = 0 → a + 16 ≤ 16777216 → h.kind = Kind.number k → leastLength k h.count ≤ h.length →
      a + h.length ≤ 16777216 →
      (∀ f, v.validBody k floor a h = .ok f → v.validate k floor a = .ok { header := h, profile := f }) ∧
      ∀ e, v.validBody k floor a h = .error e → v.validate k floor a = .error e) ∧
    (∀ f, v.validBody k floor a h = .error (.memory f) → v.byte f.address = .error f) ∧
    (k = .stopList → (h.count = 0 ∨ 64 < h.count → refused .count) ∧
      (1 ≤ h.count → h.count ≤ 64 → judged (v.stops a h.count))) ∧
    (k = .reservationTable → ((∃ m, floor = some m ∧ h.edition ≤ m) → refused .editionOrder) ∧
      ((∀ m, floor = some m → m < h.edition) → (96 < h.count → refused .count) ∧
        (h.count ≤ 96 → judged (v.seatEntries a h.count)))) ∧
    (k = .noticeTable → (32 < h.count → refused .count) ∧ (h.count ≤ 32 → judged (v.notices a h.count))) ∧
    (k = .coachProfile → (∀ f, v.profile a h.count = .ok f → v.validBody k floor a h = .ok (some f)) ∧
      ∀ e, v.profile a h.count = .error e → v.validBody k floor a h = .error e) ∧
    (k = .contentSet → (v.validContent a h = .ok () → v.validBody k floor a h = .ok none) ∧
      ∀ e, v.validContent a h = .error e → v.validBody k floor a h = .error e)) ∧
  (∀ (v : View) (a n : Nat), v.bus.readErrors = [] → a + 416 + 4 * n ≤ 16777216 →
    let b (o : Nat) : Nat := (Memory.read v.mem (busAddress v.base (a + o))).toNat
    let w (o : Nat) : Nat := b o + 256 * b (o + 1)
    let start (l : Line) : Nat := match l with
      | .seat => 0x38
      | .end_ => 0xB0
      | .door => 0x128
    let most (l : Line) : Nat := match l with
      | .seat => 48
      | .end_ => 4
      | .door => 8
    let address (l : Line) (i : Nat) : Nat := b (start l + 24 + 2 * i)
    let group (l : Line) (i : Nat) : Nat := b (start l + 25 + 2 * i)
    let panels (l : Line) : Nat := b (start l + 1)
    let line (l : Line) : List (Prop × Result) :=
      [ (most l < panels l, .count),
        (∃ i, i < panels l ∧ (address l i = 0 ∨ 63 < address l i), .range),
        (∃ i j, i < j ∧ j < panels l ∧ address l i = address l j, .duplicate),
        ((∃ i, i < panels l ∧ 3 < group l i) ∨ (∃ g, g < 4 ∧ b (start l + 2 + g) / 16 = 0), .range),
        (3 < b (start l), .range), (∃ i, i < 9 ∧ 15 < b (start l + 14 + i), .range) ]
    let seat (i : Nat) : Nat := 0x1A0 + 4 * i
    let place (i : Nat) : List (Prop × Result) :=
      [ (w (seat i) = 0 ∨ 999 < w (seat i), .range), (∃ j, j < i ∧ w (seat j) = w (seat i), .duplicate),
        (b (seat i + 2) = 0 ∨ 63 < b (seat i + 2), .range),
        (∀ j, j < panels .seat → address .seat j ≠ b (seat i + 2), .range), (1 < b (seat i + 3), .range),
        (∃ j, j < i ∧ b (seat j + 2) = b (seat i + 2) ∧ b (seat j + 3) = b (seat i + 3), .duplicate) ]
    let table : List (Prop × Result) :=
      [ (1 < b 0x10 ∨ (b 0x11 ≠ 1 ∧ b 0x11 ≠ 4 ∧ b 0x11 ≠ 16) ∨ w 0x12 < 1500 ∨ 4000 < w 0x12 ∨ b 0x14 < 1 ∨
          200 < b 0x14 ∨ w 0x18 < 1 ∨ 4000 < w 0x18 ∨ 3999 < w 0x1A ∨ b 0x15 < 1 ∨ 31 < b 0x15 ∨ b 0x16 < 1 ∨
          7 < b 0x16 ∨ b 0x17 < 1 ∨ 31 < b 0x17 ∨ w 0x18 ≤ w 0x1A, .range),
        (b 0x1C < 1 ∨ 4 < b 0x1C ∨ 60000 < w 0x1E ∨ 10000 < w 0x20 ∨ 20000 < w 0x22, .range),
        (w 0x24 < 50 ∨ 1000 < w 0x24 ∨ 2 < b 0x28 ∨ ∃ i, i < 4 ∧ 7 < b (0x2C + i) % 128, .range),
        (63 < b 0x29 ∨ 63 < b 0x2A, .range) ]
      ++ line .seat ++ line .end_ ++ line .door ++ [(96 < n, .count)] ++ (List.range n).flatMap place
      ++ [(∃ i, i < 6 ∧ 63 < b (0x30 + i), .range)]
    let config (l : Line) : LineConfig :=
      { rate := b (start l)
        panels := (List.range (panels l)).map (fun i => { address := address l i, group := group l i })
        groups := (List.range 4).map (fun g => { grouped := (b (start l + 2 + g)).testBit 0, hold := b (start l + 2 + g) / 16 })
        thresholds := (List.range 8).map (fun i => b (start l + 6 + i))
        levels := (List.range 9).map (fun i => b (start l + 14 + i)) }
    match v.profile a n with
    | .error (.memory _) => False
    | .error (.result r) => refusesFirst table (some r)
    | .ok f => refusesFirst table none ∧
      f.wheel = { rising := decide (b 0x10 = 0), d := b 0x11, c := w 0x12, p := b 0x14 } ∧
      f.motion = { vMove := w 0x18, vStop := w 0x1A, nMove := b 0x15, nStill := b 0x16, nDoor := b 0x17 } ∧
      f.portion = b 0x1C ∧ f.a = w 0x1E ∧ f.w = w 0x20 ∧ f.o = w 0x22 ∧ f.period = w 0x24 ∧ f.wrap = w 0x26 ∧
      (b 0x28 = 0 ∧ f.role = .alone ∨ b 0x28 = 1 ∧ f.role = .lead ∨ b 0x28 = 2 ∧ f.role = .follow) ∧
      f.outs.length = 4 ∧
      (∀ (i : Nat) (o : OutSetting), f.outs[i]? = some o → o.invert = (b (0x2C + i)).testBit 7 ∧
        [OutSource.off, .on, .chime, .doorsReleased, .moving, .sweepPulse, .panelFault, .attention][b (0x2C + i) % 128]?
          = some o.source) ∧
      f.endPage = b 0x29 ∧ f.doorPage = b 0x2A ∧ f.seatPages = (List.range 6).map (fun i => b (0x30 + i)) ∧
      f.seat = config .seat ∧ f.end_ = config .end_ ∧ f.door = config .door ∧
      f.seatMap = (List.range n).map (fun i => { number := w (seat i), address := b (seat i + 2)
                                                 half := if b (seat i + 3) = 0 then .left else .right })) ∧
  (∀ (v : View) (a : Nat) (h : Header), v.bus.readErrors = [] → 64 ≤ h.length → a + h.length ≤ 16777216 →
    let b (o : Nat) : Nat := (Memory.read v.mem (busAddress v.base (a + o))).toNat
    let w (o : Nat) : Nat := b o + 256 * b (o + 1)
    let d (o : Nat) : Nat := w o + 65536 * w (o + 2)
    let strips := b 0x1B
    let strip (i : Nat) : Nat := d (0x34 + 4 * i)
    let window (o : Nat) : List (Prop × Result) :=
      [ (b o < 1 ∨ 4 < b o, .range), (b (o + 2) < b (o + 1) ∨ b (o + 4) < b (o + 3), .order),
        (b o = 1 ∧ (b (o + 7) < 1 ∨ 8 < b (o + 7) ∨ b (o + 8) < 1 ∨ 4 < b (o + 8) ∨ 10 < b (o + 11)), .range),
        (b o = 1 ∧ (b (o + 9)).testBit 1 = true ∧ (b (o + 10) < 1 ∨ 64 < b (o + 10)), .range),
        (b o = 1 ∧ b (o + 11) = 0 ∧ w (o + 12) ≠ 65535 ∧ w 0x18 ≤ w (o + 12), .range),
        (b o = 3 ∧ (strips ≤ b (o + 5) ∨ 2 ≤ b (o + 5) ∨ b (strip (b (o + 5)) + 2) ≤ b (o + 6) ∨ 15 < b (o + 7)),
          .range) ]
    let page (o : Nat) : List (Prop × Result) :=
      [ (w o = 0 ∨ 256 < w o ∨ b (o + 2) = 0 ∨ 32 < b (o + 2), .range), (b (o + 4) = 0 ∨ 6 < b (o + 4), .count) ]
      ++ (List.range (b (o + 4))).flatMap (fun i => window (o + 8 + 16 * i))
    let glyph (o : Nat) : List (Prop × Result) :=
      [ (b o = 0 ∨ 32 < b o ∨ b (o + 1) = 0 ∨ 32 < b (o + 1), .range), (d 0x24 < w (o + 4) + w (o + 6), .range) ]
    let x (i : Nat) : Nat := b (0x2C + i) % 8
    let ends (i : Nat) : Bool := (b (0x2C + i)).testBit 7
    let table : List (Prop × Result) :=
      [ (h.length < d 0x10 + 104 * h.count, .range), (h.length < d 0x14 + w 0x18, .range),
        (h.length < d 0x1C + 2048, .range), (h.length < d 0x20 + d 0x24, .range),
        (strips ≤ 2 ∧ ∃ i, i < strips ∧ h.length < strip i + 8, .range), (h.count = 0 ∨ 64 < h.count, .count) ]
      ++ (List.range h.count).flatMap (fun i => page (d 0x10 + 104 * i)) ++ [(16384 < w 0x18, .range)]
      ++ (List.range 256).flatMap (fun i => glyph (d 0x1C + 8 * i))
      ++ [ (2 < strips, .count),
           (∃ i, i < strips ∧ (w (strip i) = 0 ∨ 4096 < w (strip i) ∨ b (strip i + 2) = 0 ∨ 64 < b (strip i + 2) ∨
             h.length < d (strip i + 4) + w (strip i) * b (strip i + 2)), .range),
           (1 < b 0x28 ∨ 1 < b 0x2A ∨ 1 < b 0x2B ∨ (b 0x28 = 1 ∧ 6 < b 0x29) ∨
             (b 0x28 = 0 ∧ ∃ i, i < 8 ∧ 6 < x i) ∨ (b 0x2A = 1 ∧ ∀ i, i < 8 → ends i = false) ∨
             (b 0x2A = 0 ∧ ∃ i, i < 8 ∧ ends i = true), .range) ]
    match v.validContent a h with
    | .error (.memory _) => 2 < strips
    | .error (.result r) => refusesFirst table (some r)
    | .ok _ => refusesFirst table none) ∧
  (∀ (v : View) (k : Kind) (floor : Option Nat) (a : Nat),
    let outside (f : MemFail) : Prop := f = { cause := .window, address := a }
    (a % 16 ≠ 0 ∨ 16777216 < a + 16 → ∃ f, outside f ∧ v.validate k floor a = .error (.memory f)) ∧
    (a % 16 = 0 → a + 16 ≤ 16777216 →
      (∀ f, v.header a = .error f → v.validate k floor a = .error (.memory f)) ∧
      ∀ h, v.header a = .ok h →
        (h.kind ≠ Kind.number k → v.validate k floor a = .error (.result .kind)) ∧
        (h.kind = Kind.number k →
          (h.length < leastLength k h.count → v.validate k floor a = .error (.result .count)) ∧
          (leastLength k h.count ≤ h.length → 16777216 < a + h.length →
            ∃ f, outside f ∧ v.validate k floor a = .error (.memory f)) ∧
          ∀ ok, v.validate k floor a = .ok ok → ok.header = h ∧ (k = .coachProfile ↔ ok.profile ≠ none)))) ∧
  ([Kind.coachProfile, .stopList, .reservationTable, .noticeTable, .contentSet].map Kind.number = [1, 2, 3, 4, 5] ∧
    (∀ n, [Kind.coachProfile, .stopList, .reservationTable, .noticeTable, .contentSet].map (leastLength · n)
      = [416 + 4 * n, 16 + 20 * n, 16 + 52 * n, 16 + 16 * n, 64]) ∧
    (∀ (v : View) (a : Nat) (h : Header), v.header a = .ok h ↔ v.u8 a = .ok h.kind ∧ v.u32 (a + 4) = .ok h.edition ∧
      v.u32 (a + 8) = .ok h.length ∧ v.u16 (a + 12) = .ok h.count) ∧
    ∀ (v : View) (a : Nat) (b : Nat → Byte),
      (v.byte a = .ok (b 0) → v.u8 a = .ok (b 0).toNat) ∧
      ((∀ i, i < 2 → v.byte (a + i) = .ok (b i)) → v.u16 a = .ok ((b 0).toNat + 256 * (b 1).toNat)) ∧
      ((∀ i, i < 4 → v.byte (a + i) = .ok (b i)) → v.u32 a
        = .ok ((b 0).toNat + 256 * (b 1).toNat + 65536 * (b 2).toNat + 16777216 * (b 3).toNat))) ∧
  (∀ r : Reservations, (r.load = .idle ∨ r.load = .owed → r.floor = r.storeEdition) ∧
    ∀ c a e, r.load = .loading c a e →
      (r.storeEdition = none → r.floor = some e) ∧ ∀ m, r.storeEdition = some m → r.floor = some (max m e)) ∧
  (∀ (s : State) (k : Kind) (w : Switch) (bus : Bus), (s.part.ed.kind k).switch = some w →
    let landed := { s.part with mem := Memory.writeAll s.part.mem bus.host }
    let old := s.part.ed.kind k
    let found := View.validate { mem := landed.mem, base := s.part.regs.windowBase, bus := bus } k s.part.res.floor
      w.address
    let ended (p : Part) (run : Instr) : Prop :=
      (bus.wait = true → exec run s
        = .next { s with part := { p with ed := { p.ed with owed := p.ed.owed ++ [.full k w.request] } } }) ∧
      (bus.wait = false →
        (∀ f, (p.view bus).u8 (slotEntry k + 8) = .error f → exec run s
          = .next { s with part := ((p.memoryError .edition f.address f.cause).lateWrites bus).fullWrite bus [] }) ∧
        (∀ r, (p.view bus).u8 (slotEntry k + 8) = .ok r → exec run s
          = .next { s with part := (p.lateWrites bus).fullWrite bus (if r = w.request then [k] else []) }))
    (∀ ok, found = .ok ok →
      let live := { old.unpin w.copy with
        live := some w.copy, liveAddress := some w.address, liveEdition := ok.header.edition, switch := none
        result := .done }
      let passed := { landed with ed := s.part.ed.setKind k live }
      ended ((passed.tellLoader k ok.profile).raise .switchDone) (.switchCompletion k bus) ∧
      exec (.switchRefusal k bus) s = .next s) ∧
    (∀ e, found = .error e →
      exec (.switchCompletion k bus) s = .next s ∧
      (∀ result, e = .result result →
        let kept := { old.unpin w.copy with switch := none, result := result }
        ended (Part.raise { landed with ed := s.part.ed.setKind k kept } .switchRefused) (.switchRefusal k bus)) ∧
      ∀ f, e = .memory f →
        let kept := { old.unpin w.copy with switch := none, result := .memory }
        let reported := landed.memoryError .edition f.address f.cause
        ended (Part.raise { reported with ed := s.part.ed.setKind k kept } .switchRefused) (.switchRefusal k bus))) ∧
  (∀ (p : Part) (f : Profile) (none_or : Option Profile),
    p.tellLoader .stopList none_or = { p with trk := { p.trk with told := p.trk.told + 1 } } ∧
    p.tellLoader .reservationTable none_or = { p with res := { p.res with told := p.res.told + 1 } } ∧
    p.tellLoader .noticeTable none_or = { p with ntc := { p.ntc with told := p.ntc.told + 1 } } ∧
    p.marksExactly (p.tellLoader .contentSet none_or) (fun _ => True) ∧
    (let forgotten := p.cmp.panels.map (fun q => { q with strip := false, bars := [] })
     Part.sameButRefresh { p with cmp := { p.cmp with panels := forgotten } } (p.tellLoader .contentSet none_or)) ∧
    (let given (c : LineCtl) : LineCtl := { c with profiles := c.profiles ++ [f] }
     p.tellLoader .coachProfile (some f) = { p with
       odo := { p.odo with profiles := p.odo.profiles ++ [f] }, trk := { p.trk with profiles := p.trk.profiles ++ [f] }
       res := { p.res with profiles := p.res.profiles ++ [f] }, ntc := { p.ntc with profiles := p.ntc.profiles ++ [f] }
       cmp := { p.cmp with profiles := p.cmp.profiles ++ [f] }, swp := { p.swp with profiles := p.swp.profiles ++ [f] }
       lineSeat := given p.lineSeat, lineEnd := given p.lineEnd, lineDoor := given p.lineDoor }))

/-! ### Report unit -/

/-- R184: a page write reaches its first fields at the boundary and the rest at its end, with the page sequence word. A field
is written where it differs from the page image, and recorded; one that meets a bus error is reported and still differs.
Under FREEZE nothing is written, and a boundary that meets a write in progress defers its own:
each has its own write, with its sequence word, when the one before it ends. 11.5 with R26, R42, R43, R84,
R155, R167, R169: where each field stands and what it holds. The model's choices: the fields in rising order of offset, the
first of them those that the operand reaches (log 17); a field whose
datum is absent and for which 11.5 states no value is left open (log 18), and the review set is 0 beyond the seat map
(log 57). -/
def Obligations.PageWritesFieldsThatDiffer : Prop :=
  (pageFields.map (fun f => (f.offset, f.size))
    = [ (0x004, 1), (0x005, 1), (0x006, 1), (0x007, 1), (0x008, 1), (0x00A, 2), (0x00C, 2), (0x00E, 2), (0x010, 2),
        (0x014, 4), (0x01C, 1), (0x01D, 1) ]
      ++ [0x020, 0x030, 0x040].flatMap (fun o => [(o, 1), (o + 2, 2), (o + 4, 4), (o + 8, 4), (o + 12, 4)])
      ++ [ (0x050, 1), (0x051, 1), (0x052, 1), (0x054, 2), (0x058, 4), (0x05C, 1), (0x05D, 1), (0x05E, 1), (0x060, 1),
           (0x061, 1), (0x062, 1), (0x064, 4) ]
      ++ (List.range 12).map (fun i => (0x068 + i, 1)) ++ (List.range 192).map (fun i => (0x080 + i, 1))
      ++ (List.range 60).flatMap (fun i => let o := 0x140 + 16 * i
           [ (o, 1), (o + 1, 1), (o + 2, 1), (o + 3, 1), (o + 4, 1), (o + 6, 2), (o + 8, 2), (o + 10, 2), (o + 12, 2),
             (o + 14, 2) ])) ∧
  (∀ p : Part,
    let shows (offset value : Nat) : Prop := ∃ f ∈ pageFields, f.offset = offset ∧ f.value p = value
    let phase := p.trk.phase
    let view := p.trk.view
    let flag (b : Bool) : Nat := if b then 1 else 0
    shows 0x004 (match phase with
      | .unplaced => 0
      | .atStop _ => 1
      | .running _ => 2
      | .approaching _ => 3
      | .halted _ => 4
      | .doubt _ => 5
      | .ended => 6
      | .lost => 7) ∧
    shows 0x005 (phase.leg.getD 0xFF) ∧ shows 0x006 (p.trk.portion.getD 0) ∧
    shows 0x007 (if p.odo.motion = .moving then 1 else 0) ∧ shows 0x008 (if p.odo.door = .released then 1 else 0) ∧
    (∀ k, phase.leg = some k → shows 0x00A ((view[k]?.map (·.code)).getD 0) ∧
      shows 0x00C ((view[k + 1]?.map (·.code)).getD 0)) ∧
    (phase = .ended → shows 0x00A ((view.getLast?.map (·.code)).getD 0)) ∧
    (phase = .unplaced ∨ phase = .lost → shows 0x00A 0) ∧ (phase.leg = none → shows 0x00C 0) ∧
    shows 0x00E p.swp.number ∧ shows 0x010 p.odo.speed ∧ shows 0x014 (p.odo.legDistance / 1000) ∧
    shows 0x01C (match p.swp.role with
      | .alone => 0
      | .lead => 1
      | .follow => 2) ∧
    shows 0x01D (match p.swp.sync with
      | .alone => 0
      | .leading => 1
      | .following => 2
      | .freewheel => 3) ∧
    (∀ o r, (o, r) ∈ [(0x020, p.trk.arrival), (0x030, p.trk.departure), (0x040, p.trk.passed)] →
      (r = none → shows o 0) ∧
      ∀ x : JourneyRecord, r = some x → shows o 1 ∧ shows (o + 2) x.code ∧ shows (o + 4) x.ms.toNat ∧
        shows (o + 8) x.measured ∧ shows (o + 12) x.expected) ∧
    shows 0x050 (p.ntc.lastDropped.getD 0) ∧ shows 0x052 p.res.skipped ∧ shows 0x054 (p.res.lowestSkipped.getD 0) ∧
    (p.res.storeEdition = none → shows 0x051 0) ∧
    (∀ e, p.res.storeEdition = some e → shows 0x051 1 ∧ shows 0x058 e) ∧
    (p.rep.contentFault = none → shows 0x05C 0) ∧
    (∀ x, p.rep.contentFault = some x → shows 0x05C 1 ∧ shows 0x05D x.glyph ∧
      shows 0x05E (if x.cause = .prefixFault then 1 else 2)) ∧
    (p.rep.memoryError = none → shows 0x060 0) ∧
    (∀ x, p.rep.memoryError = some x → shows 0x060 1 ∧
      shows 0x061 (match x.agent with
        | .edition => 1
        | .tracker => 2
        | .reservations => 3
        | .notices => 4
        | .composer => 5
        | .report => 6) ∧
      shows 0x062 (match x.cause with
        | .bus => 1
        | .check => 2
        | .window => 3
        | .signature => 4
        | .amendIndex => 5) ∧
      shows 0x064 x.address) ∧
    (∀ o l, (o, l) ∈ [(0x068, Line.seat), (0x06C, .end_), (0x070, .door)] → ∀ g, g < 4 →
      shows (o + g) (flag ((p.line l).group g).syncFail)) ∧
    (∀ i, i < 96 →
      (p.res.seats[i]? = none → shows (0x080 + i) 0 ∧ shows (0x0E0 + i) 0) ∧
      ∀ q, p.res.seats[i]? = some q → shows (0x0E0 + i) (flag (q.reviewResolution || q.reviewLatched)) ∧
        shows (0x080 + i) (match q.display with
          | .unknown => 0
          | .free => 1
          | .reservedNow => 2
          | .reservedLater => 3
          | .blocked => 4
          | .off => 5)) ∧
    ∀ o n l, (o, n, l) ∈ [(0x140, 48, Line.seat), (0x440, 4, .end_), (0x480, 8, .door)] → ∀ i, i < n →
      let at_ := o + 16 * i
      ((p.line l).panels[i]? = none → shows (at_ + 2) 0 ∧ shows (at_ + 4) 0) ∧
      ∀ q, (p.line l).panels[i]? = some q →
        shows at_ q.address ∧ shows (at_ + 1) q.group ∧
        shows (at_ + 2) (match q.health with
          | .absent => 1
          | .joining => 2
          | .online => 3
          | .failing => 4
          | .offline => 5) ∧
        (q.light = none → shows (at_ + 4) 0) ∧ (∀ n, q.light = some n → shows (at_ + 3) n ∧ shows (at_ + 4) 1) ∧
        shows (at_ + 6) q.counters.noReply ∧ shows (at_ + 8) q.counters.char ∧ shows (at_ + 10) q.counters.length ∧
        shows (at_ + 12) q.counters.check ∧ shows (at_ + 14) q.counters.address) ∧
  (∀ (s : State) (bus : Bus) (reach : Nat), s.part.rep.boundaries ≠ 0 →
    let taken := { s.part.rep with boundaries := s.part.rep.boundaries - 1 }
    (s.part.regs.freeze = true →
      exec (.statusPageWrite bus reach) s = .next { s with part := { s.part with rep := taken } }) ∧
    (s.part.regs.freeze = false → ∀ n, s.part.rep.writing = some n →
      exec (.statusPageWrite bus reach) s
        = .next { s with part := { s.part with rep := { taken with deferred := s.part.rep.deferred + 1 } } }) ∧
    (s.part.regs.freeze = false → s.part.rep.writing = none →
      let begun := { s.part with mem := Memory.writeAll s.part.mem bus.host
                                 rep := { taken with writing := some reach } }
      exec (.statusPageWrite bus reach) s
        = .next { s with part := (pageFields.take reach).foldl (Part.reachField bus) begun })) ∧
  (∀ (s : State) (bus : Bus) (n : Nat), s.part.rep.writing = some n → bus.writeErrors = [] → s.part.memoryCanonical →
    let landed := { s.part with mem := Memory.writeAll s.part.mem bus.host }
    let written := (pageFields.drop n).foldl (Part.reachField bus) landed
    let base := s.part.regs.windowBase
    ∃ t, exec (.statusPageWriteDone bus) s = .next t ∧ t.pending = s.pending ∧
      t.part.rep.pageSeq = s.part.rep.pageSeq + 1#32 ∧
      (s.part.rep.deferred = 0 → t.part.rep.writing = none ∧ t.part.rep.deferred = 0) ∧
      (∀ d, s.part.rep.deferred = d + 1 → t.part.rep.writing = some 0 ∧ t.part.rep.deferred = d) ∧
      { t.part.rep with pageSeq := written.rep.pageSeq, writing := written.rep.writing
                        deferred := written.rep.deferred } = written.rep ∧
      { t.part with mem := written.mem, rep := written.rep } = written ∧
      (∀ i, i < 4 → Memory.read t.part.mem (busAddress base (0x1000 + i))
        = BitVec.ofNat 8 (t.part.rep.pageSeq.toNat / 256 ^ i)) ∧
      ∀ a, (∀ i, i < 4 → a ≠ busAddress base (0x1000 + i)) → Memory.read t.part.mem a = Memory.read written.mem a) ∧
  (∀ (p : Part) (bus : Bus) (f : PageField), f ∈ pageFields → p.memoryCanonical →
    let place (i : Nat) : Nat := busAddress p.regs.windowBase (0x1000 + f.offset + i)
    let p' := Part.reachField bus p f
    (p.rep.imageOf f.offset = some (f.value p) → p' = p) ∧
    (p.rep.imageOf f.offset ≠ some (f.value p) → (∀ i, i < f.size → place i ∉ bus.writeErrors) →
      (∀ i, i < f.size → Memory.read p'.mem (place i) = BitVec.ofNat 8 (f.value p / 256 ^ i)) ∧
      (∀ a, (∀ i, i < f.size → a ≠ place i) → Memory.read p'.mem a = Memory.read p.mem a) ∧
      p'.rep.imageOf f.offset = some (f.value p) ∧
      (∀ o, o ≠ f.offset → p'.rep.imageOf o = p.rep.imageOf o) ∧
      { p' with mem := p.mem, rep := { p'.rep with pageImage := p.rep.pageImage } } = p) ∧
    (p.rep.imageOf f.offset ≠ some (f.value p) → (∃ i, i < f.size ∧ place i ∈ bus.writeErrors) →
      p'.rep.pageImage = p.rep.pageImage ∧ p'.rep.attention = p.rep.attention ||| 0x100#10 ∧
      (∃ i, i < f.size ∧ place i ∈ bus.writeErrors ∧ p'.rep.memoryError
        = some { agent := .report, address := 0x1000 + f.offset + i, cause := .bus }) ∧
      ∀ a, (∀ i, i < f.size → a ≠ place i) → Memory.read p'.mem a = Memory.read p.mem a))

/-! ### Registers and the port -/

/-- R168, R185, R186, R193, 11.1, 11.7: what each register reads; the writes to WINDOW_BASE, ATTENTION, ATTENTION_ENABLE and
the registers that ignore them; the bit of each attention flag, and ATTN; the 40 bits of a write and of a read on the port.
A transaction begins when SSEL goes low and ends when it goes high; a write acts at its 40th bit; a read captures its
register at its 8th bit and gives the value on SDO in bits 9 to 40, which SDO changes to on the falling edge of SCK before
each; later bits are ignored, fewer than 40 change no register, SDO is driven only while SSEL is low, and no bit is taken
while the port waits after a reset. Each row that writes a register is one whole transaction (the model's choice, log 23).
R166: the levels of the output lines. -/
def Obligations.RegistersReadAndWritten : Prop :=
  (∀ p : Part, p.readRegister 0 = 0x72400001#32 ∧
    p.readRegister 1 = (if p.regs.run then 1#32 else 0#32) + (if p.regs.freeze then 4#32 else 0#32) ∧
    p.readRegister 2 = p.regs.windowBase ∧ (p.readRegister 3).toNat = p.rep.attention.toNat ∧
    (p.readRegister 4).toNat = p.regs.attentionEnable.toNat ∧ (∀ n, 5 ≤ n → p.readRegister n = 0#32) ∧
    (p.attn = true ↔ ∃ i, p.rep.attention.getLsbD i = true ∧ p.regs.attentionEnable.getLsbD i = true)) ∧
  (∀ (p : Part) (i : Nat) (f : Flag),
    [Flag.switchDone, .switchRefused, .journey, .amend, .noticeDrop, .panel, .groupSyncFail, .trainSync, .memory,
      .content][i]? = some f →
    p.raise f = { p with rep := { p.rep with attention := p.rep.attention ||| (1#10 <<< i) } }) ∧
  (∀ (p : Part) (i : Nat) (o : OutSetting), p.swp.outs[i]? = some o → ∃ active : Bool,
    p.outLevel i = (if active then !o.invert else o.invert) ∧
    (o.source = .off → active = false) ∧ (o.source = .on → active = true) ∧
    (o.source = .chime → (active = true ↔ ∃ tone, p.swp.chime.playing = some tone ∧ tone.on = true)) ∧
    (o.source = .doorsReleased → (active = true ↔ p.odo.door = .released)) ∧
    (o.source = .moving → (active = true ↔ p.odo.motion = .moving)) ∧
    (o.source = .sweepPulse → (active = true ↔ p.swp.sweepPulse ≠ none)) ∧
    (o.source = .panelFault → (active = true ↔ ∃ l : Line, ∃ q ∈ (p.line l).panels, q.health = .offline)) ∧
    (o.source = .attention → (active = true ↔ p.attn = true))) ∧
  (∀ (s : State) (v : Word),
    let seen := { s.part with spi := Port.idle }
    (s.part.regs.run = true → exec (.windowBaseWrite v) s = .next { s with part := seen }) ∧
    (s.part.regs.run = false → ∃ base : Word,
      exec (.windowBaseWrite v) s = .next { s with part := { seen with regs := { s.part.regs with windowBase := base } } } ∧
      base.toNat = v.toNat / 65536 * 65536) ∧
    (∃ flags : BitVec 10,
      exec (.attentionWrite v) s = .next { s with part := { seen with rep := { s.part.rep with attention := flags } } } ∧
      ∀ i, i < 10 → flags.getLsbD i = (s.part.rep.attention.getLsbD i && !v.getLsbD i)) ∧
    (∃ enables : BitVec 10,
      exec (.attentionEnableWrite v) s
        = .next { s with part := { seen with regs := { s.part.regs with attentionEnable := enables } } } ∧
      ∀ i, i < 10 → enables.getLsbD i = v.getLsbD i) ∧
    ∀ n, (n = 0 ∨ n = 5 ∨ n = 6 ∨ n = 7) → exec (.ignoredRegisterWrite n v) s = .next { s with part := seen }) ∧
  (∀ (n : Nat) (v : Word) (u1 u2 u3 u4 : Bool) (more : List Bool), n < 8 →
    let msbFirst (b : Nat) : List Bool := [7, 6, 5, 4, 3, 2, 1, 0].map (fun i => b.testBit i)
    let data := [0, 1, 2, 3].flatMap (fun i => msbFirst (v.toNat / 256 ^ i % 256))
    let command (write : Bool) : List Bool := [write, u1, u2, u3, u4, n.testBit 2, n.testBit 1, n.testBit 0]
    serialWrite (command true ++ data ++ more) = some (n, v) ∧
    serialWrite (command true ++ data.take 31) = none ∧ serialWrite (command false ++ data ++ more) = none ∧
    serialRead (command false ++ more) = some n ∧ serialReply v = data ∧
    ∀ p : Part,
      p.transact (command true ++ data ++ more) = { p.writeRegister n v with spi := Port.idle } ∧
      p.portWrite n v = p.transact
        ([true, false, false, false, false, n.testBit 2, n.testBit 1, n.testBit 0] ++ data) ∧
      p.transact (command false ++ data ++ more) = { p with spi := Port.idle } ∧
      (p.readRegister n = v → p.replyBits (command false ++ data ++ more) = List.replicate 8 (.driven none) ++
        data.map (fun b => .driven (some b)) ++ List.replicate more.length (.driven none))) ∧
  (∀ (p : Part) (bits : List Bool) (sdi : Bool),
    (bits.length < 40 → p.transact bits = { p with spi := Port.idle }) ∧
    p.transact bits = (bits.foldl (fun q b => q.clockFall.clockBit b) p.selectRise.selectFall).selectRise ∧
    p.selectRise
      = { p with spi := { selected := false, awaitHigh := false, bits := [], captured := none, sending := none } } ∧
    (p.spi.selected = true → p.selectFall = p) ∧
    (p.spi.selected = false → p.selectFall
      = { p with spi := { selected := true, awaitHigh := false, bits := [], captured := none, sending := none } }) ∧
    (p.spi.selected = false → p.spi.sdo = .released) ∧
    (p.spi.selected = true → p.spi.sdo = .driven p.spi.sending) ∧
    (p.spi.selected = false ∨ p.spi.awaitHigh = true → p.clockBit sdi = p ∧ p.clockFall = p) ∧
    (p.spi.selected = true → p.spi.awaitHigh = false →
      (p.spi.captured = none → p.clockFall = { p with spi := { p.spi with sending := none } }) ∧
      ∀ v, p.spi.captured = some v →
        p.clockFall = { p with spi := { p.spi with sending := (serialReply v)[p.spi.bits.length - 8]? } }) ∧
    (p.spi.bits.length ≠ 39 ∨ p.spi.bits.head? = some false → (p.clockBit sdi).spi.sdo = p.spi.sdo) ∧
    (p.powerOn.spi = { selected := p.spi.selected, awaitHigh := p.spi.selected, bits := [], captured := none
                       sending := none } ∧
      p.engineReset.spi = p.powerOn.spi))

/-- R185, R184, R187 to R189, R46, R67, R104, R122, R164: the writes to CONTROL with RESET clear. A write that leaves RUN and
FREEZE as they are does nothing. FREEZE becoming 1 cuts a page write off, becoming 0 marks every field. RUN becoming 1 makes
a boundary, or sets the silence deadline in FOLLOWING; RUN becoming 0 abandons switches, loads and the composition, each with
its pin. The model's choices: a load told and not begun is owed as one in flight is, and a boundary that a block other than
the composer has not taken is dropped (log 14); runSet, runClear, freezeSet and freezeClear force the bit of their operand
that they are named for, and each is a whole transaction, which leaves the port idle (log 23); a page write that FREEZE cuts
off does not advance its count, and the writes deferred behind it end with it (log 63); a profile that a block has not taken
is kept for it (log 58), and so are a position request (log 71) and a record that the engine judges (log 72); a sweep pulse
in progress runs to its end (log 70). -/
def Obligations.ControlSetsRunAndFreeze : Prop :=
  ∀ (s : State) (v : Word),
    let seen := { s.part with spi := Port.idle }
    let freeze := v.getLsbD 2
    let frozen (p : Part) : Part :=
      if freeze = p.regs.freeze then p
      else if freeze then { p with regs := { p.regs with freeze := true }
                                   rep := { p.rep with writing := none, deferred := 0 } }
      else { p with regs := { p.regs with freeze := false }, rep := { p.rep with pageImage := [] } }
    let running := { seen with regs := { s.part.regs with run := true } }
    let w := s.part.swp
    (s.part.regs.run = true → exec (.runSet v) s = .next { s with part := frozen seen }) ∧
    (s.part.regs.run = false → exec (.runClear v) s = .next { s with part := frozen seen }) ∧
    (s.part.regs.run = false → w.sync = .following → exec (.runSet v) s
      = .next { s with part := frozen { running with
          swp := { w with silence := some (w.ms + BitVec.ofNat 32 (3 * w.period)) } } }) ∧
    (s.part.regs.run = false → w.sync ≠ .following → ∃ t,
      exec .sweepBoundary { s with part := { running with swp := { w with nextDue := some w.ms } } } = .next t ∧
      t.part.ed.boundary = true ∧ t.part.swp.last = some { us := w.us, ms := w.ms } ∧
      exec (.runSet v) s = .next { t with part := frozen t.part }) ∧
    (s.part.regs.run = true → ∃ p : Part, exec (.runClear v) s = .next { s with part := frozen p } ∧
      p.regs = { s.part.regs with run := false } ∧ p.mem = s.part.mem ∧ p.odo = s.part.odo ∧
      p.swp = { w with nextDue := none, silence := none, pulseStart := none } ∧
      (∀ k : Kind, (p.ed.kind k).switch = none ∧ (p.ed.kind k).live = (s.part.ed.kind k).live ∧
        (p.ed.kind k).liveAddress = (s.part.ed.kind k).liveAddress ∧
        (p.ed.kind k).liveEdition = (s.part.ed.kind k).liveEdition ∧
        (p.ed.kind k).result = (s.part.ed.kind k).result) ∧
      p.ed.boundary = false ∧ p.ed.take = s.part.ed.take ∧ p.ed.seq = s.part.ed.seq ∧
      (s.part.ed.run = none → p.ed.run = none ∧ p.ed.owed = s.part.ed.owed) ∧
      (∀ run, s.part.ed.run = some run →
        (run.stage = .reading → p.ed.run = none ∧ p.ed.owed = s.part.ed.owed) ∧
        (∀ a, run.stage = .handed a → p.ed.run = some { run with cut := true } ∧ p.ed.owed = s.part.ed.owed) ∧
        (∀ r, run.stage = .answered r → p.ed.run = none ∧
          p.ed.owed = s.part.ed.owed ++ [.amend (run.list + 32 * s.part.ed.take) r])) ∧
      (let owes (load : LoadState) (told : Nat) : LoadState := if load = .idle ∧ told = 0 then .idle else .owed
       p.trk = { s.part.trk with load := owes s.part.trk.load s.part.trk.told, told := 0, boundaries := 0 } ∧
       p.res = { s.part.res with load := owes s.part.res.load s.part.res.told, told := 0, boundaries := 0 } ∧
       p.ntc = { s.part.ntc with load := owes s.part.ntc.load s.part.ntc.told, told := 0, boundaries := 0 }) ∧
      (let ended (x : KindState) : KindState := match x.switch with
         | none => x
         | some w => { x.unpin w.copy with switch := none }
       let dropped (load : LoadState) (x : KindState) : KindState := match load with
         | .loading c _ _ => x.unpin c
         | .idle => x
         | .owed => x
       let left (x : KindState) : KindState := match s.part.cmp.comp.bind (·.pin) with
         | none => x
         | some pin => x.unpin pin.copy
       p.ed = { s.part.ed with
         profile := ended s.part.ed.profile
         stops := dropped s.part.trk.load (ended s.part.ed.stops)
         reservations := dropped s.part.res.load (ended s.part.ed.reservations)
         notices := dropped s.part.ntc.load (ended s.part.ed.notices)
         content := left (ended s.part.ed.content)
         boundary := false, run := p.ed.run, owed := p.ed.owed }) ∧
      p.rep = { s.part.rep with writing := none, deferred := 0, boundaries := 0 } ∧ p.cmp.comp = none ∧
      { p.cmp with comp := s.part.cmp.comp, slots := s.part.cmp.slots, decoder := s.part.cmp.decoder
                   refreshSeat := s.part.cmp.refreshSeat, refreshEnd := s.part.cmp.refreshEnd
                   refreshDoor := s.part.cmp.refreshDoor } = s.part.cmp ∧
      (s.part.cmp.comp = none → p.cmp = s.part.cmp) ∧
      (∀ c, s.part.cmp.comp = some c →
        (∀ i, i ≠ c.slot → p.cmp.slots[i]? = s.part.cmp.slots[i]?) ∧
        (c.slot < s.part.cmp.slots.length → p.cmp.slots[c.slot]? = some Slot.freed) ∧
        (∀ l, l ≠ c.line → p.cmp.refresh l = s.part.cmp.refresh l) ∧
        p.cmp.decoder = { s.part.cmp.decoder with buffer := [], bitPos := 0, pixelIndex := 0, ink := false } ∧
        (let marked := ((s.part.line c.line).health c.address).drawn = true ∧ c.address ∉ s.part.cmp.refresh c.line ∧
           ∃ q ∈ s.part.cmp.panels, q.line = c.line ∧ q.address = c.address
         (marked → p.cmp.refresh c.line = s.part.cmp.refresh c.line ++ [c.address]) ∧
         (¬ marked → p.cmp.refresh c.line = s.part.cmp.refresh c.line))) ∧
      (∀ l, p.line l = { s.part.line l with boundaries := 0 }) ∧ p.pins = s.part.pins ∧ p.spi = Port.idle ∧
      p.free = s.part.free) ∧
    (v.getLsbD 0 = true → exec (.freezeSet v) s = exec (.runSet (v ||| 4#32)) s ∧
      exec (.freezeClear v) s = exec (.runSet (v &&& 0xFFFFFFFB#32)) s) ∧
    (v.getLsbD 0 = false → exec (.freezeSet v) s = exec (.runClear (v ||| 4#32)) s ∧
      exec (.freezeClear v) s = exec (.runClear (v &&& 0xFFFFFFFB#32)) s)

/-! ### Memory -/

/-- Which bytes of memory a command may change, where memory is canonical (`StepKeepsMemoryCanonical`): none for a
command without a bus operand; the host's writes alone for the loads and the composer's reads; beside the host's, the
part's fields of the head block, an answered amendment's result byte, and the status page. -/
def Obligations.CommandsStoreOnlyTheirFields : Prop :=
  ∀ (c : Instr) (s t : State), s.part.memoryCanonical → exec c s = .next t →
    let base := s.part.regs.windowBase
    let head (a : Nat) : Prop := ∃ i, a = busAddress base i ∧ (i ∈ [4, 5, 6, 7, 0x8C, 0x8E, 0x90, 0x91] ∨
      ∃ entry ∈ [0x10, 0x28, 0x40, 0x58, 0x70], ∃ j ∈ [8, 9, 10, 11, 12, 16, 17, 18, 19], i = entry + j)
    let owedSlot (a : Nat) : Prop := ∃ slot r, .amend slot r ∈ s.part.ed.owed ∧ a = busAddress base (slot + 16)
    let runSlot (a : Nat) : Prop := ∃ run, s.part.ed.run = some run ∧
      a = busAddress base (run.list + 32 * s.part.ed.take + 16)
    let page (a : Nat) : Prop := ∃ i, i < 0x1000 ∧ a = busAddress base (0x1000 + i)
    (busOf c = none → t.part.mem = s.part.mem) ∧
    ∀ bus, busOf c = some bus →
      let landed := Memory.writeAll s.part.mem bus.host
      ∃ m, (m = s.part.mem ∨ m = landed ∨ m = Memory.writeAll landed bus.late) ∧
        ((c = .stopListLoadComplete bus ∨ c = .reservationLoadComplete bus ∨ c = .noticeLoadComplete bus ∨
            c = .compositionBegin bus ∨ c = .elementBegin bus ∨ c = .glyphDecodeEnd bus) → t.part.mem = m) ∧
        ((c = .placeAtStop bus ∨ c = .placeInLeg bus ∨ c = .unplace bus ∨
            (∃ k, c = .switchCompletion k bus ∨ c = .switchRefusal k bus)) →
          ∀ a, ¬ head a → Memory.read t.part.mem a = Memory.read m a) ∧
        (c = .boundaryOperation bus → ∀ a, ¬ head a → ¬ owedSlot a → Memory.read t.part.mem a = Memory.read m a) ∧
        (c = .amendmentSlotRead bus → ∀ a, ¬ head a → ¬ runSlot a → Memory.read t.part.mem a = Memory.read m a) ∧
        ((c = .statusPageWriteDone bus ∨ ∃ reach, c = .statusPageWrite bus reach) →
          ∀ a, ¬ page a → Memory.read t.part.mem a = Memory.read m a)
end
end

