-- ==== Sys2Proof/Laws/State.lean ====
section
/-! SUPPORT. One lemma for each update of the state, and what the outcomes of a meaning say. -/

namespace Sys2Proof.Machine

/-! ### Outcomes -/

/-- What `State.onPart` answers. -/
@[simp] theorem State.onPart_next (s : State) (f : Part → Part) (t : State) :
    s.onPart f = .next t ↔ t = { s with part := f s.part } := by
  unfold State.onPart
  constructor
  · intro h; injection h with h; exact h.symm
  · intro h; rw [h]

/-! ### A line's controller -/

/-- Reading the line that was set. -/
@[simp] theorem Part.line_setLine (p : Part) (l : Line) (c : LineCtl) : (p.setLine l c).line l = c := by
  cases l <;> rfl

/-- Setting a line leaves another. -/
theorem Part.line_setLine_of_ne (p : Part) {l k : Line} (c : LineCtl) (h : k ≠ l) :
    (p.setLine l c).line k = p.line k := by
  cases l <;> cases k <;> first | rfl | exact absurd rfl h

/-- The later of two settings of a line stands. -/
@[simp] theorem Part.setLine_setLine (p : Part) (l : Line) (c d : LineCtl) :
    (p.setLine l c).setLine l d = p.setLine l d := by
  cases l <;> rfl

/-- Setting a line to what it is changes nothing. -/
@[simp] theorem Part.setLine_line (p : Part) (l : Line) : p.setLine l (p.line l) = p := by
  cases l <;> rfl

/-- Setting a line leaves every other part of the state. -/
@[simp] theorem Part.setLine_keeps (p : Part) (l : Line) (c : LineCtl) :
    (p.setLine l c).mem = p.mem ∧ (p.setLine l c).regs = p.regs ∧ (p.setLine l c).pins = p.pins ∧
    (p.setLine l c).spi = p.spi ∧ (p.setLine l c).odo = p.odo ∧ (p.setLine l c).trk = p.trk ∧
    (p.setLine l c).res = p.res ∧ (p.setLine l c).ntc = p.ntc ∧ (p.setLine l c).cmp = p.cmp ∧
    (p.setLine l c).swp = p.swp ∧ (p.setLine l c).ed = p.ed ∧ (p.setLine l c).rep = p.rep ∧
    (p.setLine l c).free = p.free := by
  cases l <;> exact ⟨rfl, rfl, rfl, rfl, rfl, rfl, rfl, rfl, rfl, rfl, rfl, rfl, rfl⟩

/-! ### A kind of the edition unit -/

/-- Reading the kind that was set. -/
@[simp] theorem Edition.kind_setKind (e : Edition) (k : Kind) (s : KindState) : (e.setKind k s).kind k = s := by
  cases k <;> rfl

/-- Setting a kind leaves another. -/
theorem Edition.kind_setKind_of_ne (e : Edition) {k j : Kind} (s : KindState) (h : j ≠ k) :
    (e.setKind k s).kind j = e.kind j := by
  cases k <;> cases j <;> first | rfl | exact absurd rfl h

/-- Setting a kind to what it is changes nothing. -/
@[simp] theorem Edition.setKind_kind (e : Edition) (k : Kind) : e.setKind k (e.kind k) = e := by
  cases k <;> rfl

/-- Setting a kind leaves the rest of the edition unit. -/
@[simp] theorem Edition.setKind_keeps (e : Edition) (k : Kind) (s : KindState) :
    (e.setKind k s).take = e.take ∧ (e.setKind k s).run = e.run ∧ (e.setKind k s).owed = e.owed ∧
    (e.setKind k s).seq = e.seq ∧ (e.setKind k s).boundary = e.boundary := by
  cases k <;> exact ⟨rfl, rfl, rfl, rfl, rfl⟩

/-- The pin count after a pin is taken. -/
theorem KindState.pins_pin (s : KindState) (c d : Copy) :
    (s.pin c).pins d = s.pins d + if c = d then 1 else 0 := by
  cases c <;> cases d <;> rfl

/-- The pin count after a pin is dropped. -/
theorem KindState.pins_unpin (s : KindState) (c d : Copy) :
    (s.unpin c).pins d = s.pins d - if c = d then 1 else 0 := by
  cases c <;> cases d <;> rfl

/-! ### A line's refresh list -/

/-- Reading the refresh list that was set. -/
@[simp] theorem Composer.refresh_setRefresh (c : Composer) (l : Line) (r : List Nat) :
    (c.setRefresh l r).refresh l = r := by
  cases l <;> rfl

/-- Setting a refresh list leaves another. -/
theorem Composer.refresh_setRefresh_of_ne (c : Composer) {l k : Line} (r : List Nat) (h : k ≠ l) :
    (c.setRefresh l r).refresh k = c.refresh k := by
  cases l <;> cases k <;> first | rfl | exact absurd rfl h

/-- Setting a refresh list to what it is changes nothing. -/
@[simp] theorem Composer.setRefresh_refresh (c : Composer) (l : Line) : c.setRefresh l (c.refresh l) = c := by
  cases l <;> rfl

/-- Setting a refresh list leaves the rest of the composer. -/
@[simp] theorem Composer.setRefresh_keeps (c : Composer) (l : Line) (r : List Nat) :
    (c.setRefresh l r).comp = c.comp ∧ (c.setRefresh l r).lastLine = c.lastLine ∧
    (c.setRefresh l r).slots = c.slots ∧ (c.setRefresh l r).panels = c.panels ∧
    (c.setRefresh l r).position = c.position ∧ (c.setRefresh l r).decoder = c.decoder ∧
    (c.setRefresh l r).events = c.events ∧ (c.setRefresh l r).moduleMarks = c.moduleMarks ∧
    (c.setRefresh l r).selectionMarks = c.selectionMarks ∧ (c.setRefresh l r).panelEvents = c.panelEvents ∧
    (c.setRefresh l r).boundaries = c.boundaries ∧ (c.setRefresh l r).profiles = c.profiles := by
  cases l <;> exact ⟨rfl, rfl, rfl, rfl, rfl, rfl, rfl, rfl, rfl, rfl, rfl, rfl⟩

/-! ### Reports and flags -/

/-- What raising a flag does. -/
@[simp] theorem Part.raise_attention (p : Part) (f : Flag) :
    (p.raise f).rep.attention = p.rep.attention ||| f.mask := rfl

/-- Raising a flag leaves the rest of the report unit. -/
@[simp] theorem Part.raise_rep (p : Part) (f : Flag) :
    (p.raise f).rep = { p.rep with attention := p.rep.attention ||| f.mask } := rfl

/-- What a memory error report does to the report unit. -/
@[simp] theorem Part.memoryError_rep (p : Part) (agent : Agent) (a : Nat) (cause : ErrorCause) :
    (p.memoryError agent a cause).rep = { p.rep with
      memoryError := some { agent := agent, address := a, cause := cause }
      attention := p.rep.attention ||| Flag.memory.mask } := rfl

/-- What a content fault report does to the report unit. -/
@[simp] theorem Part.contentFault_rep (p : Part) (glyph : Nat) (cause : StreamFault) :
    (p.contentFault glyph cause).rep = { p.rep with
      contentFault := some { glyph := glyph, cause := cause }
      attention := p.rep.attention ||| Flag.content.mask } := rfl

/-- What setting the composition does. -/
@[simp] theorem Part.setComp_cmp (p : Part) (c : Composition) : (p.setComp c).cmp = { p.cmp with comp := some c } := rfl

/-- What setting the delivery run does. -/
@[simp] theorem Part.setRun_ed (p : Part) (r : Option DeliveryRun) : (p.setRun r).ed = { p.ed with run := r } := rfl

/-- What owing a write does. -/
@[simp] theorem Part.owe_ed (p : Part) (w : OwedWrite) : (p.owe w).ed = { p.ed with owed := p.ed.owed ++ [w] } := rfl

/-- What entering a tracker state does. -/
@[simp] theorem Part.enter_trk (p : Part) (x : Phase) : (p.enter x).trk = { p.trk with phase := x } := rfl

/-- What a change of a kind does to the edition unit. -/
@[simp] theorem Part.changeKind_ed (p : Part) (k : Kind) (f : KindState → KindState) :
    (p.changeKind k f).ed = p.ed.setKind k (f (p.ed.kind k)) := rfl

/-- The host's writes change memory alone. -/
@[simp] theorem Part.hostWrites_mem (p : Part) (bus : Bus) : (p.hostWrites bus).mem = Memory.writeAll p.mem bus.host := rfl

/-- The host's late writes change memory alone. -/
@[simp] theorem Part.lateWrites_mem (p : Part) (bus : Bus) : (p.lateWrites bus).mem = Memory.writeAll p.mem bus.late := rfl

/-! ### Folds -/

/-- What every step of a fold keeps, the fold keeps. -/
theorem foldl_keeps {β γ : Type} (g : Part → β) (f : Part → γ → Part) (h : ∀ q x, g (f q x) = g q) (l : List γ)
    (p : Part) : g (l.foldl f p) = g p := by
  induction l generalizing p with
  | nil => rfl
  | cons x xs ih => simp only [List.foldl_cons]; rw [ih, h]

/-- A law that every step of a fold keeps, the fold keeps. -/
theorem foldl_law {γ : Type} (law : Part → Prop) (f : Part → γ → Part) (h : ∀ q x, law q → law (f q x)) (l : List γ)
    (p : Part) (hp : law p) : law (l.foldl f p) := by
  induction l generalizing p with
  | nil => exact hp
  | cons x xs ih => exact ih _ (h _ _ hp)

end Sys2Proof.Machine
end

