-- ==== Sys2Proof/Laws/FrameTravel.lean ====
section
/-! SUPPORT. Frames: what the operations of the odometer and the tracker, and the shared ones, leave as it was. -/

namespace Sys2Proof.Machine

/-- What `Part.hostWrites` leaves as it was. -/
@[simp] theorem Part.hostWrites_keeps (p : Part) (bus : Bus) :
    (Part.hostWrites p bus).regs = p.regs ∧ (Part.hostWrites p bus).pins = p.pins ∧
    (Part.hostWrites p bus).spi = p.spi ∧ (Part.hostWrites p bus).odo = p.odo ∧
    (Part.hostWrites p bus).trk = p.trk ∧ (Part.hostWrites p bus).res = p.res ∧ (Part.hostWrites p bus).ntc = p.ntc ∧
    (Part.hostWrites p bus).cmp = p.cmp ∧ (Part.hostWrites p bus).lineSeat = p.lineSeat ∧
    (Part.hostWrites p bus).lineEnd = p.lineEnd ∧ (Part.hostWrites p bus).lineDoor = p.lineDoor ∧
    (Part.hostWrites p bus).swp = p.swp ∧ (Part.hostWrites p bus).ed = p.ed ∧ (Part.hostWrites p bus).rep = p.rep ∧
    (Part.hostWrites p bus).free = p.free := by
  simp [Part.hostWrites]

/-- What `Part.lateWrites` leaves as it was. -/
@[simp] theorem Part.lateWrites_keeps (p : Part) (bus : Bus) :
    (Part.lateWrites p bus).regs = p.regs ∧ (Part.lateWrites p bus).pins = p.pins ∧
    (Part.lateWrites p bus).spi = p.spi ∧ (Part.lateWrites p bus).odo = p.odo ∧
    (Part.lateWrites p bus).trk = p.trk ∧ (Part.lateWrites p bus).res = p.res ∧ (Part.lateWrites p bus).ntc = p.ntc ∧
    (Part.lateWrites p bus).cmp = p.cmp ∧ (Part.lateWrites p bus).lineSeat = p.lineSeat ∧
    (Part.lateWrites p bus).lineEnd = p.lineEnd ∧ (Part.lateWrites p bus).lineDoor = p.lineDoor ∧
    (Part.lateWrites p bus).swp = p.swp ∧ (Part.lateWrites p bus).ed = p.ed ∧ (Part.lateWrites p bus).rep = p.rep ∧
    (Part.lateWrites p bus).free = p.free := by
  simp [Part.lateWrites]

/-- What `Part.changeKind` leaves as it was. -/
@[simp] theorem Part.changeKind_keeps (p : Part) (k : Kind) (f : KindState → KindState) :
    (Part.changeKind p k f).mem = p.mem ∧ (Part.changeKind p k f).regs = p.regs ∧
    (Part.changeKind p k f).pins = p.pins ∧ (Part.changeKind p k f).spi = p.spi ∧
    (Part.changeKind p k f).odo = p.odo ∧ (Part.changeKind p k f).trk = p.trk ∧ (Part.changeKind p k f).res = p.res ∧
    (Part.changeKind p k f).ntc = p.ntc ∧ (Part.changeKind p k f).cmp = p.cmp ∧
    (Part.changeKind p k f).lineSeat = p.lineSeat ∧ (Part.changeKind p k f).lineEnd = p.lineEnd ∧
    (Part.changeKind p k f).lineDoor = p.lineDoor ∧ (Part.changeKind p k f).swp = p.swp ∧
    (Part.changeKind p k f).rep = p.rep ∧ (Part.changeKind p k f).free = p.free := by
  simp [Part.changeKind]

/-- What `Part.pin` leaves as it was. -/
@[simp] theorem Part.pin_keeps (p : Part) (k : Kind) (c : Copy) :
    (Part.pin p k c).mem = p.mem ∧ (Part.pin p k c).regs = p.regs ∧ (Part.pin p k c).pins = p.pins ∧
    (Part.pin p k c).spi = p.spi ∧ (Part.pin p k c).odo = p.odo ∧ (Part.pin p k c).trk = p.trk ∧
    (Part.pin p k c).res = p.res ∧ (Part.pin p k c).ntc = p.ntc ∧ (Part.pin p k c).cmp = p.cmp ∧
    (Part.pin p k c).lineSeat = p.lineSeat ∧ (Part.pin p k c).lineEnd = p.lineEnd ∧
    (Part.pin p k c).lineDoor = p.lineDoor ∧ (Part.pin p k c).swp = p.swp ∧ (Part.pin p k c).rep = p.rep ∧
    (Part.pin p k c).free = p.free ∧ (Part.pin p k c).ed.take = p.ed.take ∧ (Part.pin p k c).ed.seq = p.ed.seq ∧
    (Part.pin p k c).ed.boundary = p.ed.boundary ∧ (Part.pin p k c).ed.run = p.ed.run ∧
    (Part.pin p k c).ed.owed = p.ed.owed := by
  simp [Part.pin]

/-- What `Part.unpin` leaves as it was. -/
@[simp] theorem Part.unpin_keeps (p : Part) (k : Kind) (c : Copy) :
    (Part.unpin p k c).mem = p.mem ∧ (Part.unpin p k c).regs = p.regs ∧ (Part.unpin p k c).pins = p.pins ∧
    (Part.unpin p k c).spi = p.spi ∧ (Part.unpin p k c).odo = p.odo ∧
    (Part.unpin p k c).trk = p.trk ∧ (Part.unpin p k c).res = p.res ∧ (Part.unpin p k c).ntc = p.ntc ∧
    (Part.unpin p k c).cmp = p.cmp ∧ (Part.unpin p k c).lineSeat = p.lineSeat ∧
    (Part.unpin p k c).lineEnd = p.lineEnd ∧ (Part.unpin p k c).lineDoor = p.lineDoor ∧
    (Part.unpin p k c).swp = p.swp ∧ (Part.unpin p k c).rep = p.rep ∧ (Part.unpin p k c).free = p.free ∧
    (Part.unpin p k c).ed.take = p.ed.take ∧ (Part.unpin p k c).ed.seq = p.ed.seq ∧
    (Part.unpin p k c).ed.boundary = p.ed.boundary ∧ (Part.unpin p k c).ed.run = p.ed.run ∧
    (Part.unpin p k c).ed.owed = p.ed.owed := by
  simp [Part.unpin]

/-- What `Part.dropLoadPin` leaves as it was. -/
@[simp] theorem Part.dropLoadPin_keeps (p : Part) (k : Kind) (l : LoadState) :
    (Part.dropLoadPin p k l).mem = p.mem ∧ (Part.dropLoadPin p k l).regs = p.regs ∧
    (Part.dropLoadPin p k l).pins = p.pins ∧ (Part.dropLoadPin p k l).spi = p.spi ∧
    (Part.dropLoadPin p k l).odo = p.odo ∧ (Part.dropLoadPin p k l).trk = p.trk ∧
    (Part.dropLoadPin p k l).res = p.res ∧ (Part.dropLoadPin p k l).ntc = p.ntc ∧
    (Part.dropLoadPin p k l).cmp = p.cmp ∧ (Part.dropLoadPin p k l).lineSeat = p.lineSeat ∧
    (Part.dropLoadPin p k l).lineEnd = p.lineEnd ∧ (Part.dropLoadPin p k l).lineDoor = p.lineDoor ∧
    (Part.dropLoadPin p k l).swp = p.swp ∧ (Part.dropLoadPin p k l).rep = p.rep ∧
    (Part.dropLoadPin p k l).free = p.free ∧ (Part.dropLoadPin p k l).ed.take = p.ed.take ∧
    (Part.dropLoadPin p k l).ed.seq = p.ed.seq ∧ (Part.dropLoadPin p k l).ed.boundary = p.ed.boundary ∧
    (Part.dropLoadPin p k l).ed.run = p.ed.run ∧ (Part.dropLoadPin p k l).ed.owed = p.ed.owed := by
  unfold Part.dropLoadPin; split <;> simp

/-- What `Part.raise` leaves as it was. -/
@[simp] theorem Part.raise_keeps (p : Part) (f : Flag) :
    (Part.raise p f).mem = p.mem ∧ (Part.raise p f).regs = p.regs ∧ (Part.raise p f).pins = p.pins ∧
    (Part.raise p f).spi = p.spi ∧ (Part.raise p f).odo = p.odo ∧ (Part.raise p f).trk = p.trk ∧
    (Part.raise p f).res = p.res ∧ (Part.raise p f).ntc = p.ntc ∧ (Part.raise p f).cmp = p.cmp ∧
    (Part.raise p f).lineSeat = p.lineSeat ∧ (Part.raise p f).lineEnd = p.lineEnd ∧
    (Part.raise p f).lineDoor = p.lineDoor ∧ (Part.raise p f).swp = p.swp ∧ (Part.raise p f).ed = p.ed ∧
    (Part.raise p f).free = p.free ∧ (Part.raise p f).rep.writing = p.rep.writing ∧
    (Part.raise p f).rep.boundaries = p.rep.boundaries := by
  refine ⟨?_, ?_, ?_, ?_, ?_, ?_, ?_, ?_, ?_, ?_, ?_, ?_, ?_, ?_, ?_, ?_, ?_⟩ <;> rfl

/-- What `Part.raiseIf` leaves as it was. -/
@[simp] theorem Part.raiseIf_keeps (p : Part) (b : Bool) (f : Flag) :
    (Part.raiseIf p b f).mem = p.mem ∧ (Part.raiseIf p b f).regs = p.regs ∧ (Part.raiseIf p b f).pins = p.pins ∧
    (Part.raiseIf p b f).spi = p.spi ∧ (Part.raiseIf p b f).odo = p.odo ∧
    (Part.raiseIf p b f).trk = p.trk ∧ (Part.raiseIf p b f).res = p.res ∧ (Part.raiseIf p b f).ntc = p.ntc ∧
    (Part.raiseIf p b f).cmp = p.cmp ∧ (Part.raiseIf p b f).lineSeat = p.lineSeat ∧
    (Part.raiseIf p b f).lineEnd = p.lineEnd ∧ (Part.raiseIf p b f).lineDoor = p.lineDoor ∧
    (Part.raiseIf p b f).swp = p.swp ∧ (Part.raiseIf p b f).ed = p.ed ∧ (Part.raiseIf p b f).free = p.free ∧
    (Part.raiseIf p b f).rep.writing = p.rep.writing ∧ (Part.raiseIf p b f).rep.boundaries = p.rep.boundaries := by
  unfold Part.raiseIf; split <;> simp

/-- What `Part.memoryError` leaves as it was. -/
@[simp] theorem Part.memoryError_keeps (p : Part) (agent : Agent) (address : Nat) (cause : ErrorCause) :
    (Part.memoryError p agent address cause).mem = p.mem ∧ (Part.memoryError p agent address cause).regs = p.regs ∧
    (Part.memoryError p agent address cause).pins = p.pins ∧
    (Part.memoryError p agent address cause).spi = p.spi ∧
    (Part.memoryError p agent address cause).odo = p.odo ∧ (Part.memoryError p agent address cause).trk = p.trk ∧
    (Part.memoryError p agent address cause).res = p.res ∧ (Part.memoryError p agent address cause).ntc = p.ntc ∧
    (Part.memoryError p agent address cause).cmp = p.cmp ∧
    (Part.memoryError p agent address cause).lineSeat = p.lineSeat ∧
    (Part.memoryError p agent address cause).lineEnd = p.lineEnd ∧
    (Part.memoryError p agent address cause).lineDoor = p.lineDoor ∧
    (Part.memoryError p agent address cause).swp = p.swp ∧ (Part.memoryError p agent address cause).ed = p.ed ∧
    (Part.memoryError p agent address cause).free = p.free ∧
    (Part.memoryError p agent address cause).rep.writing = p.rep.writing ∧
    (Part.memoryError p agent address cause).rep.boundaries = p.rep.boundaries := by
  simp [Part.memoryError]

/-- What `Part.contentFault` leaves as it was. -/
@[simp] theorem Part.contentFault_keeps (p : Part) (glyph : Nat) (cause : StreamFault) :
    (Part.contentFault p glyph cause).mem = p.mem ∧ (Part.contentFault p glyph cause).regs = p.regs ∧
    (Part.contentFault p glyph cause).pins = p.pins ∧
    (Part.contentFault p glyph cause).spi = p.spi ∧ (Part.contentFault p glyph cause).odo = p.odo ∧
    (Part.contentFault p glyph cause).trk = p.trk ∧ (Part.contentFault p glyph cause).res = p.res ∧
    (Part.contentFault p glyph cause).ntc = p.ntc ∧ (Part.contentFault p glyph cause).cmp = p.cmp ∧
    (Part.contentFault p glyph cause).lineSeat = p.lineSeat ∧ (Part.contentFault p glyph cause).lineEnd = p.lineEnd ∧
    (Part.contentFault p glyph cause).lineDoor = p.lineDoor ∧ (Part.contentFault p glyph cause).swp = p.swp ∧
    (Part.contentFault p glyph cause).ed = p.ed ∧ (Part.contentFault p glyph cause).free = p.free ∧
    (Part.contentFault p glyph cause).rep.writing = p.rep.writing ∧
    (Part.contentFault p glyph cause).rep.boundaries = p.rep.boundaries := by
  simp [Part.contentFault]

/-- What `Part.reportMotion` leaves as it was. -/
@[simp] theorem Part.reportMotion_keeps (p : Part) (before : Motion) :
    (Part.reportMotion p before).mem = p.mem ∧ (Part.reportMotion p before).regs = p.regs ∧
    (Part.reportMotion p before).pins = p.pins ∧ (Part.reportMotion p before).spi = p.spi ∧
    (Part.reportMotion p before).odo = p.odo ∧ (Part.reportMotion p before).res = p.res ∧
    (Part.reportMotion p before).ntc = p.ntc ∧ (Part.reportMotion p before).cmp = p.cmp ∧
    (Part.reportMotion p before).lineSeat = p.lineSeat ∧ (Part.reportMotion p before).lineEnd = p.lineEnd ∧
    (Part.reportMotion p before).lineDoor = p.lineDoor ∧ (Part.reportMotion p before).swp = p.swp ∧
    (Part.reportMotion p before).ed = p.ed ∧ (Part.reportMotion p before).rep = p.rep ∧
    (Part.reportMotion p before).free = p.free ∧ (Part.reportMotion p before).trk.phase = p.trk.phase ∧
    (Part.reportMotion p before).trk.view = p.trk.view ∧ (Part.reportMotion p before).trk.load = p.trk.load ∧
    (Part.reportMotion p before).trk.told = p.trk.told := by
  unfold Part.reportMotion; split <;> simp

/-- What `Part.takeCapture` leaves as it was. -/
@[simp] theorem Part.takeCapture_keeps (p : Part) :
    (Part.takeCapture p).mem = p.mem ∧ (Part.takeCapture p).regs = p.regs ∧ (Part.takeCapture p).pins = p.pins ∧
    (Part.takeCapture p).spi = p.spi ∧ (Part.takeCapture p).res = p.res ∧
    (Part.takeCapture p).cmp = p.cmp ∧ (Part.takeCapture p).lineSeat = p.lineSeat ∧
    (Part.takeCapture p).lineEnd = p.lineEnd ∧ (Part.takeCapture p).lineDoor = p.lineDoor ∧
    (Part.takeCapture p).swp = p.swp ∧ (Part.takeCapture p).ed = p.ed ∧ (Part.takeCapture p).rep = p.rep ∧
    (Part.takeCapture p).ntc.active = p.ntc.active ∧ (Part.takeCapture p).trk.phase = p.trk.phase ∧
    (Part.takeCapture p).trk.view = p.trk.view ∧ (Part.takeCapture p).trk.load = p.trk.load ∧
    (Part.takeCapture p).ntc.load = p.ntc.load ∧ (Part.takeCapture p).trk.told = p.trk.told := by
  unfold Part.takeCapture; split <;> simp

/-- What `Part.takeEdge` leaves as it was. -/
@[simp] theorem Part.takeEdge_keeps (p : Part) (rising : Bool) :
    (Part.takeEdge p rising).mem = p.mem ∧ (Part.takeEdge p rising).regs = p.regs ∧
    (Part.takeEdge p rising).spi = p.spi ∧ (Part.takeEdge p rising).res = p.res ∧
    (Part.takeEdge p rising).cmp = p.cmp ∧ (Part.takeEdge p rising).lineSeat = p.lineSeat ∧
    (Part.takeEdge p rising).lineEnd = p.lineEnd ∧ (Part.takeEdge p rising).lineDoor = p.lineDoor ∧
    (Part.takeEdge p rising).swp = p.swp ∧ (Part.takeEdge p rising).ed = p.ed ∧ (Part.takeEdge p rising).rep = p.rep ∧
    (Part.takeEdge p rising).ntc.active = p.ntc.active ∧ (Part.takeEdge p rising).trk.phase = p.trk.phase ∧
    (Part.takeEdge p rising).trk.view = p.trk.view ∧ (Part.takeEdge p rising).trk.load = p.trk.load ∧
    (Part.takeEdge p rising).ntc.load = p.ntc.load ∧ (Part.takeEdge p rising).trk.told = p.trk.told := by
  refine ⟨?_, ?_, ?_, ?_, ?_, ?_, ?_, ?_, ?_, ?_, ?_, ?_, ?_, ?_, ?_, ?_, ?_⟩ <;>
    (unfold Part.takeEdge; dsimp only; (repeat' split) <;> simp)

/-- What `Part.captureEdge` leaves as it was. -/
@[simp] theorem Part.captureEdge_keeps (p : Part) :
    (Part.captureEdge p).mem = p.mem ∧ (Part.captureEdge p).regs = p.regs ∧
    (Part.captureEdge p).spi = p.spi ∧ (Part.captureEdge p).res = p.res ∧
    (Part.captureEdge p).cmp = p.cmp ∧ (Part.captureEdge p).lineSeat = p.lineSeat ∧
    (Part.captureEdge p).lineEnd = p.lineEnd ∧ (Part.captureEdge p).lineDoor = p.lineDoor ∧
    (Part.captureEdge p).swp = p.swp ∧ (Part.captureEdge p).ed = p.ed ∧ (Part.captureEdge p).rep = p.rep ∧
    (Part.captureEdge p).ntc.active = p.ntc.active ∧ (Part.captureEdge p).trk.phase = p.trk.phase ∧
    (Part.captureEdge p).trk.view = p.trk.view ∧ (Part.captureEdge p).trk.load = p.trk.load ∧
    (Part.captureEdge p).ntc.load = p.ntc.load ∧ (Part.captureEdge p).trk.told = p.trk.told := by
  refine ⟨?_, ?_, ?_, ?_, ?_, ?_, ?_, ?_, ?_, ?_, ?_, ?_, ?_, ?_, ?_, ?_, ?_⟩ <;>
    (unfold Part.captureEdge; (repeat' split) <;> simp)

/-- What `Part.takeSilence` leaves as it was. -/
@[simp] theorem Part.takeSilence_keeps (p : Part) :
    (Part.takeSilence p).mem = p.mem ∧ (Part.takeSilence p).regs = p.regs ∧ (Part.takeSilence p).pins = p.pins ∧
    (Part.takeSilence p).spi = p.spi ∧ (Part.takeSilence p).res = p.res ∧
    (Part.takeSilence p).ntc = p.ntc ∧ (Part.takeSilence p).cmp = p.cmp ∧ (Part.takeSilence p).lineSeat = p.lineSeat ∧
    (Part.takeSilence p).lineEnd = p.lineEnd ∧ (Part.takeSilence p).lineDoor = p.lineDoor ∧
    (Part.takeSilence p).swp = p.swp ∧ (Part.takeSilence p).ed = p.ed ∧ (Part.takeSilence p).rep = p.rep ∧
    (Part.takeSilence p).free = p.free ∧ (Part.takeSilence p).trk.phase = p.trk.phase ∧
    (Part.takeSilence p).trk.view = p.trk.view ∧ (Part.takeSilence p).trk.load = p.trk.load ∧
    (Part.takeSilence p).trk.told = p.trk.told := by
  unfold Part.takeSilence; split <;> simp

/-- What `Part.takeDoorSample` leaves as it was. -/
@[simp] theorem Part.takeDoorSample_keeps (p : Part) (level : Bool) :
    (Part.takeDoorSample p level).mem = p.mem ∧ (Part.takeDoorSample p level).regs = p.regs ∧
    (Part.takeDoorSample p level).spi = p.spi ∧ (Part.takeDoorSample p level).res = p.res ∧
    (Part.takeDoorSample p level).ntc = p.ntc ∧ (Part.takeDoorSample p level).cmp = p.cmp ∧
    (Part.takeDoorSample p level).lineSeat = p.lineSeat ∧ (Part.takeDoorSample p level).lineEnd = p.lineEnd ∧
    (Part.takeDoorSample p level).lineDoor = p.lineDoor ∧ (Part.takeDoorSample p level).swp = p.swp ∧
    (Part.takeDoorSample p level).ed = p.ed ∧ (Part.takeDoorSample p level).rep = p.rep ∧
    (Part.takeDoorSample p level).free = p.free ∧ (Part.takeDoorSample p level).trk.phase = p.trk.phase ∧
    (Part.takeDoorSample p level).trk.view = p.trk.view ∧ (Part.takeDoorSample p level).trk.load = p.trk.load ∧
    (Part.takeDoorSample p level).trk.told = p.trk.told := by
  refine ⟨?_, ?_, ?_, ?_, ?_, ?_, ?_, ?_, ?_, ?_, ?_, ?_, ?_, ?_, ?_, ?_, ?_⟩ <;>
    (unfold Part.takeDoorSample; dsimp only; (repeat' split) <;> simp)

/-- What `Part.sendClearNotices` leaves as it was. -/
@[simp] theorem Part.sendClearNotices_keeps (p : Part) (dropped : List Mark) :
    (Part.sendClearNotices p dropped).mem = p.mem ∧ (Part.sendClearNotices p dropped).regs = p.regs ∧
    (Part.sendClearNotices p dropped).pins = p.pins ∧
    (Part.sendClearNotices p dropped).spi = p.spi ∧ (Part.sendClearNotices p dropped).odo = p.odo ∧
    (Part.sendClearNotices p dropped).res = p.res ∧ (Part.sendClearNotices p dropped).cmp = p.cmp ∧
    (Part.sendClearNotices p dropped).lineSeat = p.lineSeat ∧ (Part.sendClearNotices p dropped).lineEnd = p.lineEnd ∧
    (Part.sendClearNotices p dropped).lineDoor = p.lineDoor ∧ (Part.sendClearNotices p dropped).swp = p.swp ∧
    (Part.sendClearNotices p dropped).ed = p.ed ∧ (Part.sendClearNotices p dropped).rep = p.rep ∧
    (Part.sendClearNotices p dropped).free = p.free ∧ (Part.sendClearNotices p dropped).ntc.active = p.ntc.active ∧
    (Part.sendClearNotices p dropped).trk.phase = p.trk.phase ∧
    (Part.sendClearNotices p dropped).trk.view = p.trk.view ∧
    (Part.sendClearNotices p dropped).trk.load = p.trk.load ∧
    (Part.sendClearNotices p dropped).ntc.load = p.ntc.load ∧
    (Part.sendClearNotices p dropped).trk.told = p.trk.told := by
  simp [Part.sendClearNotices]

/-- What `Part.setLeg` leaves as it was. -/
@[simp] theorem Part.setLeg_keeps (p : Part) (mm : Nat) :
    (Part.setLeg p mm).mem = p.mem ∧ (Part.setLeg p mm).regs = p.regs ∧ (Part.setLeg p mm).pins = p.pins ∧
    (Part.setLeg p mm).spi = p.spi ∧ (Part.setLeg p mm).res = p.res ∧
    (Part.setLeg p mm).cmp = p.cmp ∧ (Part.setLeg p mm).lineSeat = p.lineSeat ∧
    (Part.setLeg p mm).lineEnd = p.lineEnd ∧ (Part.setLeg p mm).lineDoor = p.lineDoor ∧
    (Part.setLeg p mm).swp = p.swp ∧ (Part.setLeg p mm).ed = p.ed ∧ (Part.setLeg p mm).rep = p.rep ∧
    (Part.setLeg p mm).free = p.free ∧ (Part.setLeg p mm).ntc.active = p.ntc.active ∧
    (Part.setLeg p mm).trk.phase = p.trk.phase ∧ (Part.setLeg p mm).trk.view = p.trk.view ∧
    (Part.setLeg p mm).trk.load = p.trk.load ∧ (Part.setLeg p mm).ntc.load = p.ntc.load ∧
    (Part.setLeg p mm).trk.told = p.trk.told := by
  simp [Part.setLeg]

/-- What `Part.reduceLeg` leaves as it was. -/
@[simp] theorem Part.reduceLeg_keeps (p : Part) (mm : Nat) :
    (Part.reduceLeg p mm).mem = p.mem ∧ (Part.reduceLeg p mm).regs = p.regs ∧ (Part.reduceLeg p mm).pins = p.pins ∧
    (Part.reduceLeg p mm).spi = p.spi ∧ (Part.reduceLeg p mm).res = p.res ∧
    (Part.reduceLeg p mm).cmp = p.cmp ∧ (Part.reduceLeg p mm).lineSeat = p.lineSeat ∧
    (Part.reduceLeg p mm).lineEnd = p.lineEnd ∧ (Part.reduceLeg p mm).lineDoor = p.lineDoor ∧
    (Part.reduceLeg p mm).swp = p.swp ∧ (Part.reduceLeg p mm).ed = p.ed ∧ (Part.reduceLeg p mm).rep = p.rep ∧
    (Part.reduceLeg p mm).free = p.free ∧ (Part.reduceLeg p mm).ntc.active = p.ntc.active ∧
    (Part.reduceLeg p mm).trk.phase = p.trk.phase ∧ (Part.reduceLeg p mm).trk.view = p.trk.view ∧
    (Part.reduceLeg p mm).trk.load = p.trk.load ∧ (Part.reduceLeg p mm).ntc.load = p.ntc.load ∧
    (Part.reduceLeg p mm).trk.told = p.trk.told := by
  simp [Part.reduceLeg]

/-- What `Part.clearOwner` leaves as it was. -/
@[simp] theorem Part.clearOwner_keeps (p : Part) (o : Owner) :
    (Part.clearOwner p o).mem = p.mem ∧ (Part.clearOwner p o).regs = p.regs ∧ (Part.clearOwner p o).pins = p.pins ∧
    (Part.clearOwner p o).spi = p.spi ∧ (Part.clearOwner p o).trk = p.trk ∧
    (Part.clearOwner p o).res = p.res ∧ (Part.clearOwner p o).ntc = p.ntc ∧ (Part.clearOwner p o).cmp = p.cmp ∧
    (Part.clearOwner p o).lineSeat = p.lineSeat ∧ (Part.clearOwner p o).lineEnd = p.lineEnd ∧
    (Part.clearOwner p o).lineDoor = p.lineDoor ∧ (Part.clearOwner p o).swp = p.swp ∧
    (Part.clearOwner p o).ed = p.ed ∧ (Part.clearOwner p o).rep = p.rep ∧ (Part.clearOwner p o).free = p.free ∧
    (Part.clearOwner p o).odo.legDistance = p.odo.legDistance := by
  simp [Part.clearOwner]

/-- What `Part.fireMark` leaves as it was. -/
@[simp] theorem Part.fireMark_keeps (p : Part) (tag : MarkTag) :
    (Part.fireMark p tag).mem = p.mem ∧ (Part.fireMark p tag).regs = p.regs ∧ (Part.fireMark p tag).pins = p.pins ∧
    (Part.fireMark p tag).spi = p.spi ∧ (Part.fireMark p tag).odo = p.odo ∧
    (Part.fireMark p tag).res = p.res ∧ (Part.fireMark p tag).cmp = p.cmp ∧
    (Part.fireMark p tag).lineSeat = p.lineSeat ∧ (Part.fireMark p tag).lineEnd = p.lineEnd ∧
    (Part.fireMark p tag).lineDoor = p.lineDoor ∧ (Part.fireMark p tag).swp = p.swp ∧
    (Part.fireMark p tag).ed = p.ed ∧ (Part.fireMark p tag).rep = p.rep ∧ (Part.fireMark p tag).free = p.free ∧
    (Part.fireMark p tag).ntc.active = p.ntc.active ∧ (Part.fireMark p tag).trk.phase = p.trk.phase ∧
    (Part.fireMark p tag).trk.view = p.trk.view ∧ (Part.fireMark p tag).trk.load = p.trk.load ∧
    (Part.fireMark p tag).ntc.load = p.ntc.load ∧ (Part.fireMark p tag).trk.told = p.trk.told := by
  unfold Part.fireMark; split <;> simp

/-- What `Part.armMark` leaves as it was. -/
@[simp] theorem Part.armMark_keeps (p : Part) (tag : MarkTag) (mm : Nat) :
    (Part.armMark p tag mm).mem = p.mem ∧ (Part.armMark p tag mm).regs = p.regs ∧
    (Part.armMark p tag mm).pins = p.pins ∧ (Part.armMark p tag mm).spi = p.spi ∧
    (Part.armMark p tag mm).res = p.res ∧ (Part.armMark p tag mm).cmp = p.cmp ∧
    (Part.armMark p tag mm).lineSeat = p.lineSeat ∧ (Part.armMark p tag mm).lineEnd = p.lineEnd ∧
    (Part.armMark p tag mm).lineDoor = p.lineDoor ∧ (Part.armMark p tag mm).swp = p.swp ∧
    (Part.armMark p tag mm).ed = p.ed ∧ (Part.armMark p tag mm).rep = p.rep ∧ (Part.armMark p tag mm).free = p.free ∧
    (Part.armMark p tag mm).odo.legDistance = p.odo.legDistance ∧ (Part.armMark p tag mm).ntc.active = p.ntc.active ∧
    (Part.armMark p tag mm).trk.phase = p.trk.phase ∧ (Part.armMark p tag mm).trk.view = p.trk.view ∧
    (Part.armMark p tag mm).trk.load = p.trk.load ∧ (Part.armMark p tag mm).ntc.load = p.ntc.load ∧
    (Part.armMark p tag mm).trk.told = p.trk.told := by
  refine ⟨?_, ?_, ?_, ?_, ?_, ?_, ?_, ?_, ?_, ?_, ?_, ?_, ?_, ?_, ?_, ?_, ?_, ?_, ?_, ?_⟩ <;>
    (unfold Part.armMark; (repeat' split) <;> simp)

/-- What `Part.takeClearNotice` leaves as it was. -/
@[simp] theorem Part.takeClearNotice_keeps (p : Part) (o : Owner) :
    (Part.takeClearNotice p o).mem = p.mem ∧ (Part.takeClearNotice p o).regs = p.regs ∧
    (Part.takeClearNotice p o).pins = p.pins ∧ (Part.takeClearNotice p o).spi = p.spi ∧
    (Part.takeClearNotice p o).odo = p.odo ∧ (Part.takeClearNotice p o).res = p.res ∧
    (Part.takeClearNotice p o).cmp = p.cmp ∧ (Part.takeClearNotice p o).lineSeat = p.lineSeat ∧
    (Part.takeClearNotice p o).lineEnd = p.lineEnd ∧ (Part.takeClearNotice p o).lineDoor = p.lineDoor ∧
    (Part.takeClearNotice p o).swp = p.swp ∧ (Part.takeClearNotice p o).ed = p.ed ∧
    (Part.takeClearNotice p o).rep = p.rep ∧ (Part.takeClearNotice p o).free = p.free ∧
    (Part.takeClearNotice p o).ntc.active = p.ntc.active ∧ (Part.takeClearNotice p o).trk.phase = p.trk.phase ∧
    (Part.takeClearNotice p o).trk.view = p.trk.view ∧ (Part.takeClearNotice p o).trk.load = p.trk.load ∧
    (Part.takeClearNotice p o).ntc.load = p.ntc.load ∧ (Part.takeClearNotice p o).trk.told = p.trk.told := by
  refine ⟨?_, ?_, ?_, ?_, ?_, ?_, ?_, ?_, ?_, ?_, ?_, ?_, ?_, ?_, ?_, ?_, ?_, ?_, ?_, ?_⟩ <;>
    (unfold Part.takeClearNotice; (repeat' split) <;> simp)

/-- What `Part.odometerProfile` leaves as it was. -/
@[simp] theorem Part.odometerProfile_keeps (p : Part) :
    (Part.odometerProfile p).mem = p.mem ∧ (Part.odometerProfile p).regs = p.regs ∧
    (Part.odometerProfile p).pins = p.pins ∧ (Part.odometerProfile p).spi = p.spi ∧
    (Part.odometerProfile p).trk = p.trk ∧ (Part.odometerProfile p).res = p.res ∧
    (Part.odometerProfile p).ntc = p.ntc ∧ (Part.odometerProfile p).cmp = p.cmp ∧
    (Part.odometerProfile p).lineSeat = p.lineSeat ∧ (Part.odometerProfile p).lineEnd = p.lineEnd ∧
    (Part.odometerProfile p).lineDoor = p.lineDoor ∧ (Part.odometerProfile p).swp = p.swp ∧
    (Part.odometerProfile p).ed = p.ed ∧ (Part.odometerProfile p).rep = p.rep ∧
    (Part.odometerProfile p).free = p.free := by
  unfold Part.odometerProfile; split <;> simp

/-- What `Part.publish` leaves as it was. -/
@[simp] theorem Part.publish_keeps (p : Part) (cause : Cause) (code : Option Nat) :
    (Part.publish p cause code).mem = p.mem ∧ (Part.publish p cause code).regs = p.regs ∧
    (Part.publish p cause code).pins = p.pins ∧ (Part.publish p cause code).spi = p.spi ∧
    (Part.publish p cause code).odo = p.odo ∧ (Part.publish p cause code).trk = p.trk ∧
    (Part.publish p cause code).lineSeat = p.lineSeat ∧ (Part.publish p cause code).lineEnd = p.lineEnd ∧
    (Part.publish p cause code).lineDoor = p.lineDoor ∧ (Part.publish p cause code).swp = p.swp ∧
    (Part.publish p cause code).ed = p.ed ∧ (Part.publish p cause code).rep = p.rep ∧
    (Part.publish p cause code).free = p.free ∧ (Part.publish p cause code).ntc.active = p.ntc.active ∧
    (Part.publish p cause code).cmp.slots = p.cmp.slots ∧
    (Part.publish p cause code).cmp.refreshSeat = p.cmp.refreshSeat ∧
    (Part.publish p cause code).cmp.refreshEnd = p.cmp.refreshEnd ∧
    (Part.publish p cause code).cmp.refreshDoor = p.cmp.refreshDoor ∧
    (Part.publish p cause code).cmp.comp = p.cmp.comp ∧ (Part.publish p cause code).res.load = p.res.load ∧
    (Part.publish p cause code).ntc.load = p.ntc.load ∧ (Part.publish p cause code).res.seats = p.res.seats := by
  simp [Part.publish]

/-- What `Part.enter` leaves as it was. -/
@[simp] theorem Part.enter_keeps (p : Part) (phase : Phase) :
    (Part.enter p phase).mem = p.mem ∧ (Part.enter p phase).regs = p.regs ∧ (Part.enter p phase).pins = p.pins ∧
    (Part.enter p phase).spi = p.spi ∧ (Part.enter p phase).odo = p.odo ∧
    (Part.enter p phase).res = p.res ∧ (Part.enter p phase).ntc = p.ntc ∧ (Part.enter p phase).cmp = p.cmp ∧
    (Part.enter p phase).lineSeat = p.lineSeat ∧ (Part.enter p phase).lineEnd = p.lineEnd ∧
    (Part.enter p phase).lineDoor = p.lineDoor ∧ (Part.enter p phase).swp = p.swp ∧ (Part.enter p phase).ed = p.ed ∧
    (Part.enter p phase).rep = p.rep ∧ (Part.enter p phase).free = p.free ∧
    (Part.enter p phase).trk.view = p.trk.view ∧ (Part.enter p phase).trk.load = p.trk.load ∧
    (Part.enter p phase).trk.told = p.trk.told := by
  simp [Part.enter]

/-- What `Part.dropMarks` leaves as it was. -/
@[simp] theorem Part.dropMarks_keeps (p : Part) :
    (Part.dropMarks p).mem = p.mem ∧ (Part.dropMarks p).regs = p.regs ∧ (Part.dropMarks p).pins = p.pins ∧
    (Part.dropMarks p).spi = p.spi ∧ (Part.dropMarks p).res = p.res ∧
    (Part.dropMarks p).ntc = p.ntc ∧ (Part.dropMarks p).cmp = p.cmp ∧ (Part.dropMarks p).lineSeat = p.lineSeat ∧
    (Part.dropMarks p).lineEnd = p.lineEnd ∧ (Part.dropMarks p).lineDoor = p.lineDoor ∧
    (Part.dropMarks p).swp = p.swp ∧ (Part.dropMarks p).ed = p.ed ∧ (Part.dropMarks p).rep = p.rep ∧
    (Part.dropMarks p).free = p.free ∧ (Part.dropMarks p).odo.legDistance = p.odo.legDistance ∧
    (Part.dropMarks p).trk.phase = p.trk.phase ∧ (Part.dropMarks p).trk.view = p.trk.view ∧
    (Part.dropMarks p).trk.load = p.trk.load ∧ (Part.dropMarks p).trk.told = p.trk.told := by
  simp [Part.dropMarks]

/-- What `Part.armForLeg` leaves as it was. -/
@[simp] theorem Part.armForLeg_keeps (p : Part) (k : Nat) :
    (Part.armForLeg p k).mem = p.mem ∧ (Part.armForLeg p k).regs = p.regs ∧ (Part.armForLeg p k).pins = p.pins ∧
    (Part.armForLeg p k).spi = p.spi ∧ (Part.armForLeg p k).res = p.res ∧
    (Part.armForLeg p k).cmp = p.cmp ∧ (Part.armForLeg p k).lineSeat = p.lineSeat ∧
    (Part.armForLeg p k).lineEnd = p.lineEnd ∧ (Part.armForLeg p k).lineDoor = p.lineDoor ∧
    (Part.armForLeg p k).swp = p.swp ∧ (Part.armForLeg p k).ed = p.ed ∧ (Part.armForLeg p k).rep = p.rep ∧
    (Part.armForLeg p k).free = p.free ∧ (Part.armForLeg p k).odo.legDistance = p.odo.legDistance ∧
    (Part.armForLeg p k).ntc.active = p.ntc.active ∧ (Part.armForLeg p k).trk.phase = p.trk.phase ∧
    (Part.armForLeg p k).trk.view = p.trk.view ∧ (Part.armForLeg p k).trk.load = p.trk.load ∧
    (Part.armForLeg p k).ntc.load = p.ntc.load ∧ (Part.armForLeg p k).trk.told = p.trk.told := by
  simp [Part.armForLeg]

/-- What `Part.depart` leaves as it was. -/
@[simp] theorem Part.depart_keeps (p : Part) (k : Nat) :
    (Part.depart p k).mem = p.mem ∧ (Part.depart p k).regs = p.regs ∧ (Part.depart p k).pins = p.pins ∧
    (Part.depart p k).spi = p.spi ∧ (Part.depart p k).lineSeat = p.lineSeat ∧
    (Part.depart p k).lineEnd = p.lineEnd ∧ (Part.depart p k).lineDoor = p.lineDoor ∧ (Part.depart p k).swp = p.swp ∧
    (Part.depart p k).ed = p.ed ∧ (Part.depart p k).rep = p.rep ∧ (Part.depart p k).free = p.free ∧
    (Part.depart p k).odo.legDistance = p.odo.legDistance ∧ (Part.depart p k).ntc.active = p.ntc.active ∧
    (Part.depart p k).cmp.slots = p.cmp.slots ∧ (Part.depart p k).cmp.refreshSeat = p.cmp.refreshSeat ∧
    (Part.depart p k).cmp.refreshEnd = p.cmp.refreshEnd ∧ (Part.depart p k).cmp.refreshDoor = p.cmp.refreshDoor ∧
    (Part.depart p k).cmp.comp = p.cmp.comp ∧ (Part.depart p k).trk.view = p.trk.view ∧
    (Part.depart p k).trk.load = p.trk.load ∧ (Part.depart p k).res.load = p.res.load ∧
    (Part.depart p k).ntc.load = p.ntc.load ∧ (Part.depart p k).res.seats = p.res.seats ∧
    (Part.depart p k).trk.told = p.trk.told := by
  unfold Part.depart; split <;> simp

/-- What `Part.confirm` leaves as it was. -/
@[simp] theorem Part.confirm_keeps (p : Part) (k : Nat) :
    (Part.confirm p k).mem = p.mem ∧ (Part.confirm p k).regs = p.regs ∧ (Part.confirm p k).pins = p.pins ∧
    (Part.confirm p k).spi = p.spi ∧ (Part.confirm p k).lineSeat = p.lineSeat ∧
    (Part.confirm p k).lineEnd = p.lineEnd ∧ (Part.confirm p k).lineDoor = p.lineDoor ∧
    (Part.confirm p k).swp = p.swp ∧ (Part.confirm p k).ed = p.ed ∧ (Part.confirm p k).rep = p.rep ∧
    (Part.confirm p k).free = p.free ∧ (Part.confirm p k).ntc.active = p.ntc.active ∧
    (Part.confirm p k).cmp.slots = p.cmp.slots ∧ (Part.confirm p k).cmp.refreshSeat = p.cmp.refreshSeat ∧
    (Part.confirm p k).cmp.refreshEnd = p.cmp.refreshEnd ∧ (Part.confirm p k).cmp.refreshDoor = p.cmp.refreshDoor ∧
    (Part.confirm p k).cmp.comp = p.cmp.comp ∧ (Part.confirm p k).trk.view = p.trk.view ∧
    (Part.confirm p k).trk.load = p.trk.load ∧ (Part.confirm p k).res.load = p.res.load ∧
    (Part.confirm p k).ntc.load = p.ntc.load ∧ (Part.confirm p k).res.seats = p.res.seats ∧
    (Part.confirm p k).trk.told = p.trk.told := by
  simp [Part.confirm]

/-- What `Part.enterDoubt` leaves as it was. -/
@[simp] theorem Part.enterDoubt_keeps (p : Part) (k : Nat) :
    (Part.enterDoubt p k).mem = p.mem ∧ (Part.enterDoubt p k).regs = p.regs ∧ (Part.enterDoubt p k).pins = p.pins ∧
    (Part.enterDoubt p k).spi = p.spi ∧ (Part.enterDoubt p k).odo = p.odo ∧
    (Part.enterDoubt p k).lineSeat = p.lineSeat ∧ (Part.enterDoubt p k).lineEnd = p.lineEnd ∧
    (Part.enterDoubt p k).lineDoor = p.lineDoor ∧ (Part.enterDoubt p k).swp = p.swp ∧
    (Part.enterDoubt p k).ed = p.ed ∧ (Part.enterDoubt p k).free = p.free ∧
    (Part.enterDoubt p k).ntc.active = p.ntc.active ∧ (Part.enterDoubt p k).cmp.slots = p.cmp.slots ∧
    (Part.enterDoubt p k).cmp.refreshSeat = p.cmp.refreshSeat ∧
    (Part.enterDoubt p k).cmp.refreshEnd = p.cmp.refreshEnd ∧
    (Part.enterDoubt p k).cmp.refreshDoor = p.cmp.refreshDoor ∧ (Part.enterDoubt p k).cmp.comp = p.cmp.comp ∧
    (Part.enterDoubt p k).trk.view = p.trk.view ∧ (Part.enterDoubt p k).trk.load = p.trk.load ∧
    (Part.enterDoubt p k).res.load = p.res.load ∧ (Part.enterDoubt p k).ntc.load = p.ntc.load ∧
    (Part.enterDoubt p k).res.seats = p.res.seats ∧ (Part.enterDoubt p k).rep.writing = p.rep.writing ∧
    (Part.enterDoubt p k).rep.boundaries = p.rep.boundaries ∧ (Part.enterDoubt p k).trk.told = p.trk.told := by
  simp [Part.enterDoubt]

/-- What `Part.enterHalted` leaves as it was. -/
@[simp] theorem Part.enterHalted_keeps (p : Part) (k : Nat) :
    (Part.enterHalted p k).mem = p.mem ∧ (Part.enterHalted p k).regs = p.regs ∧ (Part.enterHalted p k).pins = p.pins ∧
    (Part.enterHalted p k).spi = p.spi ∧ (Part.enterHalted p k).odo = p.odo ∧
    (Part.enterHalted p k).lineSeat = p.lineSeat ∧ (Part.enterHalted p k).lineEnd = p.lineEnd ∧
    (Part.enterHalted p k).lineDoor = p.lineDoor ∧ (Part.enterHalted p k).swp = p.swp ∧
    (Part.enterHalted p k).ed = p.ed ∧ (Part.enterHalted p k).rep = p.rep ∧ (Part.enterHalted p k).free = p.free ∧
    (Part.enterHalted p k).ntc.active = p.ntc.active ∧ (Part.enterHalted p k).cmp.slots = p.cmp.slots ∧
    (Part.enterHalted p k).cmp.refreshSeat = p.cmp.refreshSeat ∧
    (Part.enterHalted p k).cmp.refreshEnd = p.cmp.refreshEnd ∧
    (Part.enterHalted p k).cmp.refreshDoor = p.cmp.refreshDoor ∧ (Part.enterHalted p k).cmp.comp = p.cmp.comp ∧
    (Part.enterHalted p k).trk.view = p.trk.view ∧ (Part.enterHalted p k).trk.load = p.trk.load ∧
    (Part.enterHalted p k).res.load = p.res.load ∧ (Part.enterHalted p k).ntc.load = p.ntc.load ∧
    (Part.enterHalted p k).res.seats = p.res.seats ∧ (Part.enterHalted p k).trk.told = p.trk.told := by
  simp [Part.enterHalted]

/-- What `Part.passStop` leaves as it was. -/
@[simp] theorem Part.passStop_keeps (p : Part) (k : Nat) :
    (Part.passStop p k).mem = p.mem ∧ (Part.passStop p k).regs = p.regs ∧ (Part.passStop p k).pins = p.pins ∧
    (Part.passStop p k).spi = p.spi ∧ (Part.passStop p k).lineSeat = p.lineSeat ∧
    (Part.passStop p k).lineEnd = p.lineEnd ∧ (Part.passStop p k).lineDoor = p.lineDoor ∧
    (Part.passStop p k).swp = p.swp ∧ (Part.passStop p k).ed = p.ed ∧ (Part.passStop p k).rep = p.rep ∧
    (Part.passStop p k).free = p.free ∧ (Part.passStop p k).ntc.active = p.ntc.active ∧
    (Part.passStop p k).cmp.slots = p.cmp.slots ∧ (Part.passStop p k).cmp.refreshSeat = p.cmp.refreshSeat ∧
    (Part.passStop p k).cmp.refreshEnd = p.cmp.refreshEnd ∧ (Part.passStop p k).cmp.refreshDoor = p.cmp.refreshDoor ∧
    (Part.passStop p k).cmp.comp = p.cmp.comp ∧ (Part.passStop p k).trk.view = p.trk.view ∧
    (Part.passStop p k).trk.load = p.trk.load ∧ (Part.passStop p k).res.load = p.res.load ∧
    (Part.passStop p k).ntc.load = p.ntc.load ∧ (Part.passStop p k).res.seats = p.res.seats ∧
    (Part.passStop p k).trk.told = p.trk.told := by
  simp [Part.passStop]

/-- What `Part.overrun` leaves as it was. -/
@[simp] theorem Part.overrun_keeps (p : Part) (k : Nat) :
    (Part.overrun p k).mem = p.mem ∧ (Part.overrun p k).regs = p.regs ∧ (Part.overrun p k).pins = p.pins ∧
    (Part.overrun p k).spi = p.spi ∧ (Part.overrun p k).lineSeat = p.lineSeat ∧
    (Part.overrun p k).lineEnd = p.lineEnd ∧ (Part.overrun p k).lineDoor = p.lineDoor ∧
    (Part.overrun p k).swp = p.swp ∧ (Part.overrun p k).ed = p.ed ∧ (Part.overrun p k).free = p.free ∧
    (Part.overrun p k).odo.legDistance = p.odo.legDistance ∧ (Part.overrun p k).ntc.active = p.ntc.active ∧
    (Part.overrun p k).cmp.slots = p.cmp.slots ∧ (Part.overrun p k).cmp.refreshSeat = p.cmp.refreshSeat ∧
    (Part.overrun p k).cmp.refreshEnd = p.cmp.refreshEnd ∧ (Part.overrun p k).cmp.refreshDoor = p.cmp.refreshDoor ∧
    (Part.overrun p k).cmp.comp = p.cmp.comp ∧ (Part.overrun p k).trk.view = p.trk.view ∧
    (Part.overrun p k).trk.load = p.trk.load ∧ (Part.overrun p k).res.load = p.res.load ∧
    (Part.overrun p k).ntc.load = p.ntc.load ∧ (Part.overrun p k).res.seats = p.res.seats ∧
    (Part.overrun p k).rep.writing = p.rep.writing ∧ (Part.overrun p k).rep.boundaries = p.rep.boundaries ∧
    (Part.overrun p k).trk.told = p.trk.told := by
  simp [Part.overrun]

/-- What `Part.passOrOverrun` leaves as it was. -/
@[simp] theorem Part.passOrOverrun_keeps (p : Part) (k : Nat) :
    (Part.passOrOverrun p k).mem = p.mem ∧ (Part.passOrOverrun p k).regs = p.regs ∧
    (Part.passOrOverrun p k).pins = p.pins ∧ (Part.passOrOverrun p k).spi = p.spi ∧
    (Part.passOrOverrun p k).lineSeat = p.lineSeat ∧ (Part.passOrOverrun p k).lineEnd = p.lineEnd ∧
    (Part.passOrOverrun p k).lineDoor = p.lineDoor ∧ (Part.passOrOverrun p k).swp = p.swp ∧
    (Part.passOrOverrun p k).ed = p.ed ∧ (Part.passOrOverrun p k).free = p.free ∧
    (Part.passOrOverrun p k).ntc.active = p.ntc.active ∧ (Part.passOrOverrun p k).cmp.slots = p.cmp.slots ∧
    (Part.passOrOverrun p k).cmp.refreshSeat = p.cmp.refreshSeat ∧
    (Part.passOrOverrun p k).cmp.refreshEnd = p.cmp.refreshEnd ∧
    (Part.passOrOverrun p k).cmp.refreshDoor = p.cmp.refreshDoor ∧ (Part.passOrOverrun p k).cmp.comp = p.cmp.comp ∧
    (Part.passOrOverrun p k).trk.view = p.trk.view ∧ (Part.passOrOverrun p k).trk.load = p.trk.load ∧
    (Part.passOrOverrun p k).res.load = p.res.load ∧ (Part.passOrOverrun p k).ntc.load = p.ntc.load ∧
    (Part.passOrOverrun p k).res.seats = p.res.seats ∧ (Part.passOrOverrun p k).rep.writing = p.rep.writing ∧
    (Part.passOrOverrun p k).rep.boundaries = p.rep.boundaries ∧ (Part.passOrOverrun p k).trk.told = p.trk.told := by
  unfold Part.passOrOverrun; split <;> simp

/-- What `Part.takePassDue` leaves as it was. -/
@[simp] theorem Part.takePassDue_keeps (p : Part) (k : Nat) :
    (Part.takePassDue p k).mem = p.mem ∧ (Part.takePassDue p k).regs = p.regs ∧ (Part.takePassDue p k).pins = p.pins ∧
    (Part.takePassDue p k).spi = p.spi ∧ (Part.takePassDue p k).lineSeat = p.lineSeat ∧
    (Part.takePassDue p k).lineEnd = p.lineEnd ∧ (Part.takePassDue p k).lineDoor = p.lineDoor ∧
    (Part.takePassDue p k).swp = p.swp ∧ (Part.takePassDue p k).ed = p.ed ∧ (Part.takePassDue p k).free = p.free ∧
    (Part.takePassDue p k).ntc.active = p.ntc.active ∧ (Part.takePassDue p k).cmp.slots = p.cmp.slots ∧
    (Part.takePassDue p k).cmp.refreshSeat = p.cmp.refreshSeat ∧
    (Part.takePassDue p k).cmp.refreshEnd = p.cmp.refreshEnd ∧
    (Part.takePassDue p k).cmp.refreshDoor = p.cmp.refreshDoor ∧ (Part.takePassDue p k).cmp.comp = p.cmp.comp ∧
    (Part.takePassDue p k).trk.view = p.trk.view ∧ (Part.takePassDue p k).trk.load = p.trk.load ∧
    (Part.takePassDue p k).res.load = p.res.load ∧ (Part.takePassDue p k).ntc.load = p.ntc.load ∧
    (Part.takePassDue p k).res.seats = p.res.seats ∧ (Part.takePassDue p k).rep.writing = p.rep.writing ∧
    (Part.takePassDue p k).rep.boundaries = p.rep.boundaries ∧ (Part.takePassDue p k).trk.told = p.trk.told := by
  simp [Part.takePassDue]

/-- What `Part.resume` leaves as it was. -/
@[simp] theorem Part.resume_keeps (p : Part) (k : Nat) :
    (Part.resume p k).mem = p.mem ∧ (Part.resume p k).regs = p.regs ∧ (Part.resume p k).pins = p.pins ∧
    (Part.resume p k).spi = p.spi ∧ (Part.resume p k).lineSeat = p.lineSeat ∧
    (Part.resume p k).lineEnd = p.lineEnd ∧ (Part.resume p k).lineDoor = p.lineDoor ∧ (Part.resume p k).swp = p.swp ∧
    (Part.resume p k).ed = p.ed ∧ (Part.resume p k).free = p.free ∧ (Part.resume p k).ntc.active = p.ntc.active ∧
    (Part.resume p k).cmp.slots = p.cmp.slots ∧ (Part.resume p k).cmp.refreshSeat = p.cmp.refreshSeat ∧
    (Part.resume p k).cmp.refreshEnd = p.cmp.refreshEnd ∧ (Part.resume p k).cmp.refreshDoor = p.cmp.refreshDoor ∧
    (Part.resume p k).cmp.comp = p.cmp.comp ∧ (Part.resume p k).trk.view = p.trk.view ∧
    (Part.resume p k).trk.load = p.trk.load ∧ (Part.resume p k).res.load = p.res.load ∧
    (Part.resume p k).ntc.load = p.ntc.load ∧ (Part.resume p k).res.seats = p.res.seats ∧
    (Part.resume p k).rep.writing = p.rep.writing ∧ (Part.resume p k).rep.boundaries = p.rep.boundaries ∧
    (Part.resume p k).trk.told = p.trk.told := by
  unfold Part.resume; split <;> simp

/-- What `Part.motionOnLeg` leaves as it was. -/
@[simp] theorem Part.motionOnLeg_keeps (p : Part) (k : Nat) :
    (Part.motionOnLeg p k).mem = p.mem ∧ (Part.motionOnLeg p k).regs = p.regs ∧ (Part.motionOnLeg p k).pins = p.pins ∧
    (Part.motionOnLeg p k).spi = p.spi ∧ (Part.motionOnLeg p k).lineSeat = p.lineSeat ∧
    (Part.motionOnLeg p k).lineEnd = p.lineEnd ∧ (Part.motionOnLeg p k).lineDoor = p.lineDoor ∧
    (Part.motionOnLeg p k).swp = p.swp ∧ (Part.motionOnLeg p k).ed = p.ed ∧ (Part.motionOnLeg p k).free = p.free ∧
    (Part.motionOnLeg p k).ntc.active = p.ntc.active ∧ (Part.motionOnLeg p k).cmp.slots = p.cmp.slots ∧
    (Part.motionOnLeg p k).cmp.refreshSeat = p.cmp.refreshSeat ∧
    (Part.motionOnLeg p k).cmp.refreshEnd = p.cmp.refreshEnd ∧
    (Part.motionOnLeg p k).cmp.refreshDoor = p.cmp.refreshDoor ∧ (Part.motionOnLeg p k).cmp.comp = p.cmp.comp ∧
    (Part.motionOnLeg p k).trk.view = p.trk.view ∧ (Part.motionOnLeg p k).trk.load = p.trk.load ∧
    (Part.motionOnLeg p k).res.load = p.res.load ∧ (Part.motionOnLeg p k).ntc.load = p.ntc.load ∧
    (Part.motionOnLeg p k).res.seats = p.res.seats ∧ (Part.motionOnLeg p k).rep.writing = p.rep.writing ∧
    (Part.motionOnLeg p k).rep.boundaries = p.rep.boundaries ∧ (Part.motionOnLeg p k).trk.told = p.trk.told := by
  refine ⟨?_, ?_, ?_, ?_, ?_, ?_, ?_, ?_, ?_, ?_, ?_, ?_, ?_, ?_, ?_, ?_, ?_, ?_, ?_, ?_, ?_, ?_, ?_, ?_⟩ <;>
    (unfold Part.motionOnLeg; (repeat' split) <;> simp)

/-- What `Part.testDeparture` leaves as it was. -/
@[simp] theorem Part.testDeparture_keeps (p : Part) (k : Nat) :
    (Part.testDeparture p k).mem = p.mem ∧ (Part.testDeparture p k).regs = p.regs ∧
    (Part.testDeparture p k).pins = p.pins ∧ (Part.testDeparture p k).spi = p.spi ∧
    (Part.testDeparture p k).lineSeat = p.lineSeat ∧ (Part.testDeparture p k).lineEnd = p.lineEnd ∧
    (Part.testDeparture p k).lineDoor = p.lineDoor ∧ (Part.testDeparture p k).swp = p.swp ∧
    (Part.testDeparture p k).ed = p.ed ∧ (Part.testDeparture p k).rep = p.rep ∧
    (Part.testDeparture p k).free = p.free ∧ (Part.testDeparture p k).odo.legDistance = p.odo.legDistance ∧
    (Part.testDeparture p k).ntc.active = p.ntc.active ∧ (Part.testDeparture p k).cmp.slots = p.cmp.slots ∧
    (Part.testDeparture p k).cmp.refreshSeat = p.cmp.refreshSeat ∧
    (Part.testDeparture p k).cmp.refreshEnd = p.cmp.refreshEnd ∧
    (Part.testDeparture p k).cmp.refreshDoor = p.cmp.refreshDoor ∧ (Part.testDeparture p k).cmp.comp = p.cmp.comp ∧
    (Part.testDeparture p k).trk.view = p.trk.view ∧ (Part.testDeparture p k).trk.load = p.trk.load ∧
    (Part.testDeparture p k).res.load = p.res.load ∧ (Part.testDeparture p k).ntc.load = p.ntc.load ∧
    (Part.testDeparture p k).res.seats = p.res.seats ∧ (Part.testDeparture p k).trk.told = p.trk.told := by
  unfold Part.testDeparture; split <;> simp

/-- What `Part.judgeMotion` leaves as it was. -/
@[simp] theorem Part.judgeMotion_keeps (p : Part) :
    (Part.judgeMotion p).mem = p.mem ∧ (Part.judgeMotion p).regs = p.regs ∧ (Part.judgeMotion p).pins = p.pins ∧
    (Part.judgeMotion p).spi = p.spi ∧ (Part.judgeMotion p).lineSeat = p.lineSeat ∧
    (Part.judgeMotion p).lineEnd = p.lineEnd ∧ (Part.judgeMotion p).lineDoor = p.lineDoor ∧
    (Part.judgeMotion p).swp = p.swp ∧ (Part.judgeMotion p).ed = p.ed ∧ (Part.judgeMotion p).free = p.free ∧
    (Part.judgeMotion p).ntc.active = p.ntc.active ∧ (Part.judgeMotion p).cmp.slots = p.cmp.slots ∧
    (Part.judgeMotion p).cmp.refreshSeat = p.cmp.refreshSeat ∧
    (Part.judgeMotion p).cmp.refreshEnd = p.cmp.refreshEnd ∧
    (Part.judgeMotion p).cmp.refreshDoor = p.cmp.refreshDoor ∧ (Part.judgeMotion p).cmp.comp = p.cmp.comp ∧
    (Part.judgeMotion p).trk.view = p.trk.view ∧ (Part.judgeMotion p).trk.load = p.trk.load ∧
    (Part.judgeMotion p).res.load = p.res.load ∧ (Part.judgeMotion p).ntc.load = p.ntc.load ∧
    (Part.judgeMotion p).res.seats = p.res.seats ∧ (Part.judgeMotion p).rep.writing = p.rep.writing ∧
    (Part.judgeMotion p).rep.boundaries = p.rep.boundaries ∧ (Part.judgeMotion p).trk.told = p.trk.told := by
  refine ⟨?_, ?_, ?_, ?_, ?_, ?_, ?_, ?_, ?_, ?_, ?_, ?_, ?_, ?_, ?_, ?_, ?_, ?_, ?_, ?_, ?_, ?_, ?_, ?_⟩ <;>
    (unfold Part.judgeMotion; (repeat' split) <;> simp)

/-- What `Part.doorOnLeg` leaves as it was. -/
@[simp] theorem Part.doorOnLeg_keeps (p : Part) (k : Nat) :
    (Part.doorOnLeg p k).mem = p.mem ∧ (Part.doorOnLeg p k).regs = p.regs ∧ (Part.doorOnLeg p k).pins = p.pins ∧
    (Part.doorOnLeg p k).spi = p.spi ∧ (Part.doorOnLeg p k).odo = p.odo ∧
    (Part.doorOnLeg p k).lineSeat = p.lineSeat ∧ (Part.doorOnLeg p k).lineEnd = p.lineEnd ∧
    (Part.doorOnLeg p k).lineDoor = p.lineDoor ∧ (Part.doorOnLeg p k).swp = p.swp ∧ (Part.doorOnLeg p k).ed = p.ed ∧
    (Part.doorOnLeg p k).free = p.free ∧ (Part.doorOnLeg p k).ntc.active = p.ntc.active ∧
    (Part.doorOnLeg p k).cmp.slots = p.cmp.slots ∧ (Part.doorOnLeg p k).cmp.refreshSeat = p.cmp.refreshSeat ∧
    (Part.doorOnLeg p k).cmp.refreshEnd = p.cmp.refreshEnd ∧
    (Part.doorOnLeg p k).cmp.refreshDoor = p.cmp.refreshDoor ∧ (Part.doorOnLeg p k).cmp.comp = p.cmp.comp ∧
    (Part.doorOnLeg p k).trk.view = p.trk.view ∧ (Part.doorOnLeg p k).trk.load = p.trk.load ∧
    (Part.doorOnLeg p k).res.load = p.res.load ∧ (Part.doorOnLeg p k).ntc.load = p.ntc.load ∧
    (Part.doorOnLeg p k).res.seats = p.res.seats ∧ (Part.doorOnLeg p k).rep.writing = p.rep.writing ∧
    (Part.doorOnLeg p k).rep.boundaries = p.rep.boundaries ∧ (Part.doorOnLeg p k).trk.told = p.trk.told := by
  unfold Part.doorOnLeg; split <;> simp

/-- What `Part.judgeDoor` leaves as it was. -/
@[simp] theorem Part.judgeDoor_keeps (p : Part) :
    (Part.judgeDoor p).mem = p.mem ∧ (Part.judgeDoor p).regs = p.regs ∧ (Part.judgeDoor p).pins = p.pins ∧
    (Part.judgeDoor p).spi = p.spi ∧ (Part.judgeDoor p).lineSeat = p.lineSeat ∧
    (Part.judgeDoor p).lineEnd = p.lineEnd ∧ (Part.judgeDoor p).lineDoor = p.lineDoor ∧
    (Part.judgeDoor p).swp = p.swp ∧ (Part.judgeDoor p).ed = p.ed ∧ (Part.judgeDoor p).free = p.free ∧
    (Part.judgeDoor p).ntc.active = p.ntc.active ∧ (Part.judgeDoor p).cmp.slots = p.cmp.slots ∧
    (Part.judgeDoor p).cmp.refreshSeat = p.cmp.refreshSeat ∧ (Part.judgeDoor p).cmp.refreshEnd = p.cmp.refreshEnd ∧
    (Part.judgeDoor p).cmp.refreshDoor = p.cmp.refreshDoor ∧ (Part.judgeDoor p).cmp.comp = p.cmp.comp ∧
    (Part.judgeDoor p).trk.view = p.trk.view ∧ (Part.judgeDoor p).trk.load = p.trk.load ∧
    (Part.judgeDoor p).res.load = p.res.load ∧ (Part.judgeDoor p).ntc.load = p.ntc.load ∧
    (Part.judgeDoor p).res.seats = p.res.seats ∧ (Part.judgeDoor p).rep.writing = p.rep.writing ∧
    (Part.judgeDoor p).rep.boundaries = p.rep.boundaries ∧ (Part.judgeDoor p).trk.told = p.trk.told := by
  refine ⟨?_, ?_, ?_, ?_, ?_, ?_, ?_, ?_, ?_, ?_, ?_, ?_, ?_, ?_, ?_, ?_, ?_, ?_, ?_, ?_, ?_, ?_, ?_, ?_⟩ <;>
    (unfold Part.judgeDoor; (repeat' split) <;> simp)

/-- What `Part.takeMotionChange` leaves as it was. -/
@[simp] theorem Part.takeMotionChange_keeps (p : Part) :
    (Part.takeMotionChange p).mem = p.mem ∧ (Part.takeMotionChange p).regs = p.regs ∧
    (Part.takeMotionChange p).pins = p.pins ∧ (Part.takeMotionChange p).spi = p.spi ∧
    (Part.takeMotionChange p).lineSeat = p.lineSeat ∧ (Part.takeMotionChange p).lineEnd = p.lineEnd ∧
    (Part.takeMotionChange p).lineDoor = p.lineDoor ∧ (Part.takeMotionChange p).swp = p.swp ∧
    (Part.takeMotionChange p).ed = p.ed ∧ (Part.takeMotionChange p).free = p.free ∧
    (Part.takeMotionChange p).ntc.active = p.ntc.active ∧ (Part.takeMotionChange p).cmp.slots = p.cmp.slots ∧
    (Part.takeMotionChange p).cmp.refreshSeat = p.cmp.refreshSeat ∧
    (Part.takeMotionChange p).cmp.refreshEnd = p.cmp.refreshEnd ∧
    (Part.takeMotionChange p).cmp.refreshDoor = p.cmp.refreshDoor ∧ (Part.takeMotionChange p).cmp.comp = p.cmp.comp ∧
    (Part.takeMotionChange p).trk.view = p.trk.view ∧ (Part.takeMotionChange p).trk.load = p.trk.load ∧
    (Part.takeMotionChange p).res.load = p.res.load ∧ (Part.takeMotionChange p).ntc.load = p.ntc.load ∧
    (Part.takeMotionChange p).res.seats = p.res.seats ∧ (Part.takeMotionChange p).rep.writing = p.rep.writing ∧
    (Part.takeMotionChange p).rep.boundaries = p.rep.boundaries ∧
    (Part.takeMotionChange p).trk.told = p.trk.told := by
  unfold Part.takeMotionChange; split <;> simp

/-- What `Part.takeDoorChange` leaves as it was. -/
@[simp] theorem Part.takeDoorChange_keeps (p : Part) :
    (Part.takeDoorChange p).mem = p.mem ∧ (Part.takeDoorChange p).regs = p.regs ∧
    (Part.takeDoorChange p).pins = p.pins ∧ (Part.takeDoorChange p).spi = p.spi ∧
    (Part.takeDoorChange p).lineSeat = p.lineSeat ∧ (Part.takeDoorChange p).lineEnd = p.lineEnd ∧
    (Part.takeDoorChange p).lineDoor = p.lineDoor ∧ (Part.takeDoorChange p).swp = p.swp ∧
    (Part.takeDoorChange p).ed = p.ed ∧ (Part.takeDoorChange p).free = p.free ∧
    (Part.takeDoorChange p).ntc.active = p.ntc.active ∧ (Part.takeDoorChange p).cmp.slots = p.cmp.slots ∧
    (Part.takeDoorChange p).cmp.refreshSeat = p.cmp.refreshSeat ∧
    (Part.takeDoorChange p).cmp.refreshEnd = p.cmp.refreshEnd ∧
    (Part.takeDoorChange p).cmp.refreshDoor = p.cmp.refreshDoor ∧ (Part.takeDoorChange p).cmp.comp = p.cmp.comp ∧
    (Part.takeDoorChange p).trk.view = p.trk.view ∧ (Part.takeDoorChange p).trk.load = p.trk.load ∧
    (Part.takeDoorChange p).res.load = p.res.load ∧ (Part.takeDoorChange p).ntc.load = p.ntc.load ∧
    (Part.takeDoorChange p).res.seats = p.res.seats ∧ (Part.takeDoorChange p).rep.writing = p.rep.writing ∧
    (Part.takeDoorChange p).rep.boundaries = p.rep.boundaries ∧ (Part.takeDoorChange p).trk.told = p.trk.told := by
  unfold Part.takeDoorChange; split <;> simp

/-- What `Part.sendProgress` leaves as it was. -/
@[simp] theorem Part.sendProgress_keeps (p : Part) :
    p.sendProgress.mem = p.mem ∧ p.sendProgress.regs = p.regs ∧ p.sendProgress.pins = p.pins ∧
    p.sendProgress.spi = p.spi ∧ p.sendProgress.odo = p.odo ∧ p.sendProgress.trk = p.trk ∧
    p.sendProgress.res = p.res ∧ p.sendProgress.ntc = p.ntc ∧ p.sendProgress.lineSeat = p.lineSeat ∧
    p.sendProgress.lineEnd = p.lineEnd ∧ p.sendProgress.lineDoor = p.lineDoor ∧ p.sendProgress.swp = p.swp ∧
    p.sendProgress.ed = p.ed ∧ p.sendProgress.rep = p.rep ∧ p.sendProgress.free = p.free ∧
    p.sendProgress.cmp.slots = p.cmp.slots ∧ p.sendProgress.cmp.refreshSeat = p.cmp.refreshSeat ∧
    p.sendProgress.cmp.refreshEnd = p.cmp.refreshEnd ∧ p.sendProgress.cmp.refreshDoor = p.cmp.refreshDoor ∧
    p.sendProgress.cmp.comp = p.cmp.comp ∧ p.sendProgress.cmp.panels = p.cmp.panels := by
  simp [Part.sendProgress]

/-- What `Part.judgeDistance` leaves as it was. -/
@[simp] theorem Part.judgeDistance_keeps (p : Part) :
    (Part.judgeDistance p).mem = p.mem ∧ (Part.judgeDistance p).regs = p.regs ∧ (Part.judgeDistance p).pins = p.pins ∧
    (Part.judgeDistance p).spi = p.spi ∧ (Part.judgeDistance p).lineSeat = p.lineSeat ∧
    (Part.judgeDistance p).lineEnd = p.lineEnd ∧ (Part.judgeDistance p).lineDoor = p.lineDoor ∧
    (Part.judgeDistance p).swp = p.swp ∧ (Part.judgeDistance p).ed = p.ed ∧ (Part.judgeDistance p).rep = p.rep ∧
    (Part.judgeDistance p).free = p.free ∧ (Part.judgeDistance p).ntc.active = p.ntc.active ∧
    (Part.judgeDistance p).cmp.slots = p.cmp.slots ∧ (Part.judgeDistance p).cmp.refreshSeat = p.cmp.refreshSeat ∧
    (Part.judgeDistance p).cmp.refreshEnd = p.cmp.refreshEnd ∧
    (Part.judgeDistance p).cmp.refreshDoor = p.cmp.refreshDoor ∧ (Part.judgeDistance p).cmp.comp = p.cmp.comp ∧
    (Part.judgeDistance p).trk.view = p.trk.view ∧ (Part.judgeDistance p).trk.load = p.trk.load ∧
    (Part.judgeDistance p).res.load = p.res.load ∧ (Part.judgeDistance p).ntc.load = p.ntc.load ∧
    (Part.judgeDistance p).res.seats = p.res.seats ∧ (Part.judgeDistance p).trk.told = p.trk.told := by
  refine ⟨?_, ?_, ?_, ?_, ?_, ?_, ?_, ?_, ?_, ?_, ?_, ?_, ?_, ?_, ?_, ?_, ?_, ?_, ?_, ?_, ?_, ?_, ?_⟩ <;>
    (unfold Part.judgeDistance; dsimp only; (repeat' split) <;> simp)

/-- What `Part.takeDistanceAdvanced` leaves as it was. -/
@[simp] theorem Part.takeDistanceAdvanced_keeps (p : Part) :
    (Part.takeDistanceAdvanced p).mem = p.mem ∧ (Part.takeDistanceAdvanced p).regs = p.regs ∧
    (Part.takeDistanceAdvanced p).pins = p.pins ∧ (Part.takeDistanceAdvanced p).spi = p.spi ∧
    (Part.takeDistanceAdvanced p).lineSeat = p.lineSeat ∧ (Part.takeDistanceAdvanced p).lineEnd = p.lineEnd ∧
    (Part.takeDistanceAdvanced p).lineDoor = p.lineDoor ∧ (Part.takeDistanceAdvanced p).swp = p.swp ∧
    (Part.takeDistanceAdvanced p).ed = p.ed ∧ (Part.takeDistanceAdvanced p).rep = p.rep ∧
    (Part.takeDistanceAdvanced p).free = p.free ∧ (Part.takeDistanceAdvanced p).ntc.active = p.ntc.active ∧
    (Part.takeDistanceAdvanced p).cmp.slots = p.cmp.slots ∧
    (Part.takeDistanceAdvanced p).cmp.refreshSeat = p.cmp.refreshSeat ∧
    (Part.takeDistanceAdvanced p).cmp.refreshEnd = p.cmp.refreshEnd ∧
    (Part.takeDistanceAdvanced p).cmp.refreshDoor = p.cmp.refreshDoor ∧
    (Part.takeDistanceAdvanced p).cmp.comp = p.cmp.comp ∧ (Part.takeDistanceAdvanced p).trk.view = p.trk.view ∧
    (Part.takeDistanceAdvanced p).trk.load = p.trk.load ∧ (Part.takeDistanceAdvanced p).res.load = p.res.load ∧
    (Part.takeDistanceAdvanced p).ntc.load = p.ntc.load ∧ (Part.takeDistanceAdvanced p).res.seats = p.res.seats ∧
    (Part.takeDistanceAdvanced p).trk.told = p.trk.told := by
  unfold Part.takeDistanceAdvanced; split <;> simp

/-- What `Part.takeApproach` leaves as it was. -/
@[simp] theorem Part.takeApproach_keeps (p : Part) :
    (Part.takeApproach p).mem = p.mem ∧ (Part.takeApproach p).regs = p.regs ∧ (Part.takeApproach p).pins = p.pins ∧
    (Part.takeApproach p).spi = p.spi ∧ (Part.takeApproach p).odo = p.odo ∧
    (Part.takeApproach p).lineSeat = p.lineSeat ∧ (Part.takeApproach p).lineEnd = p.lineEnd ∧
    (Part.takeApproach p).lineDoor = p.lineDoor ∧ (Part.takeApproach p).swp = p.swp ∧
    (Part.takeApproach p).ed = p.ed ∧ (Part.takeApproach p).rep = p.rep ∧ (Part.takeApproach p).free = p.free ∧
    (Part.takeApproach p).ntc.active = p.ntc.active ∧ (Part.takeApproach p).cmp.slots = p.cmp.slots ∧
    (Part.takeApproach p).cmp.refreshSeat = p.cmp.refreshSeat ∧
    (Part.takeApproach p).cmp.refreshEnd = p.cmp.refreshEnd ∧
    (Part.takeApproach p).cmp.refreshDoor = p.cmp.refreshDoor ∧ (Part.takeApproach p).cmp.comp = p.cmp.comp ∧
    (Part.takeApproach p).trk.view = p.trk.view ∧ (Part.takeApproach p).trk.load = p.trk.load ∧
    (Part.takeApproach p).res.load = p.res.load ∧ (Part.takeApproach p).ntc.load = p.ntc.load ∧
    (Part.takeApproach p).res.seats = p.res.seats ∧ (Part.takeApproach p).trk.told = p.trk.told := by
  unfold Part.takeApproach; split <;> simp

/-- What `Part.setPassDue` leaves as it was. -/
@[simp] theorem Part.setPassDue_keeps (p : Part) :
    (Part.setPassDue p).mem = p.mem ∧ (Part.setPassDue p).regs = p.regs ∧ (Part.setPassDue p).pins = p.pins ∧
    (Part.setPassDue p).spi = p.spi ∧ (Part.setPassDue p).odo = p.odo ∧
    (Part.setPassDue p).res = p.res ∧ (Part.setPassDue p).ntc = p.ntc ∧ (Part.setPassDue p).cmp = p.cmp ∧
    (Part.setPassDue p).lineSeat = p.lineSeat ∧ (Part.setPassDue p).lineEnd = p.lineEnd ∧
    (Part.setPassDue p).lineDoor = p.lineDoor ∧ (Part.setPassDue p).swp = p.swp ∧ (Part.setPassDue p).ed = p.ed ∧
    (Part.setPassDue p).rep = p.rep ∧ (Part.setPassDue p).free = p.free ∧
    (Part.setPassDue p).trk.phase = p.trk.phase ∧ (Part.setPassDue p).trk.view = p.trk.view ∧
    (Part.setPassDue p).trk.load = p.trk.load ∧ (Part.setPassDue p).trk.told = p.trk.told := by
  simp [Part.setPassDue]

/-- What `Part.takePass` leaves as it was. -/
@[simp] theorem Part.takePass_keeps (p : Part) :
    (Part.takePass p).mem = p.mem ∧ (Part.takePass p).regs = p.regs ∧ (Part.takePass p).pins = p.pins ∧
    (Part.takePass p).spi = p.spi ∧ (Part.takePass p).lineSeat = p.lineSeat ∧
    (Part.takePass p).lineEnd = p.lineEnd ∧ (Part.takePass p).lineDoor = p.lineDoor ∧ (Part.takePass p).swp = p.swp ∧
    (Part.takePass p).ed = p.ed ∧ (Part.takePass p).free = p.free ∧ (Part.takePass p).ntc.active = p.ntc.active ∧
    (Part.takePass p).cmp.slots = p.cmp.slots ∧ (Part.takePass p).cmp.refreshSeat = p.cmp.refreshSeat ∧
    (Part.takePass p).cmp.refreshEnd = p.cmp.refreshEnd ∧ (Part.takePass p).cmp.refreshDoor = p.cmp.refreshDoor ∧
    (Part.takePass p).cmp.comp = p.cmp.comp ∧ (Part.takePass p).trk.view = p.trk.view ∧
    (Part.takePass p).trk.load = p.trk.load ∧ (Part.takePass p).res.load = p.res.load ∧
    (Part.takePass p).ntc.load = p.ntc.load ∧ (Part.takePass p).res.seats = p.res.seats ∧
    (Part.takePass p).rep.writing = p.rep.writing ∧ (Part.takePass p).rep.boundaries = p.rep.boundaries ∧
    (Part.takePass p).trk.told = p.trk.told := by
  refine ⟨?_, ?_, ?_, ?_, ?_, ?_, ?_, ?_, ?_, ?_, ?_, ?_, ?_, ?_, ?_, ?_, ?_, ?_, ?_, ?_, ?_, ?_, ?_, ?_⟩ <;>
    (unfold Part.takePass; (repeat' split) <;> simp)

/-- What `Part.judgeMark` leaves as it was. -/
@[simp] theorem Part.judgeMark_keeps (p : Part) (tag : MarkTag) :
    (Part.judgeMark p tag).mem = p.mem ∧ (Part.judgeMark p tag).regs = p.regs ∧ (Part.judgeMark p tag).pins = p.pins ∧
    (Part.judgeMark p tag).spi = p.spi ∧ (Part.judgeMark p tag).lineSeat = p.lineSeat ∧
    (Part.judgeMark p tag).lineEnd = p.lineEnd ∧ (Part.judgeMark p tag).lineDoor = p.lineDoor ∧
    (Part.judgeMark p tag).swp = p.swp ∧ (Part.judgeMark p tag).ed = p.ed ∧ (Part.judgeMark p tag).free = p.free ∧
    (Part.judgeMark p tag).ntc.active = p.ntc.active ∧ (Part.judgeMark p tag).cmp.slots = p.cmp.slots ∧
    (Part.judgeMark p tag).cmp.refreshSeat = p.cmp.refreshSeat ∧
    (Part.judgeMark p tag).cmp.refreshEnd = p.cmp.refreshEnd ∧
    (Part.judgeMark p tag).cmp.refreshDoor = p.cmp.refreshDoor ∧ (Part.judgeMark p tag).cmp.comp = p.cmp.comp ∧
    (Part.judgeMark p tag).trk.view = p.trk.view ∧ (Part.judgeMark p tag).trk.load = p.trk.load ∧
    (Part.judgeMark p tag).res.load = p.res.load ∧ (Part.judgeMark p tag).ntc.load = p.ntc.load ∧
    (Part.judgeMark p tag).res.seats = p.res.seats ∧ (Part.judgeMark p tag).rep.writing = p.rep.writing ∧
    (Part.judgeMark p tag).rep.boundaries = p.rep.boundaries ∧ (Part.judgeMark p tag).trk.told = p.trk.told := by
  refine ⟨?_, ?_, ?_, ?_, ?_, ?_, ?_, ?_, ?_, ?_, ?_, ?_, ?_, ?_, ?_, ?_, ?_, ?_, ?_, ?_, ?_, ?_, ?_, ?_⟩ <;>
    (unfold Part.judgeMark; (repeat' split) <;> simp)

/-- What `Part.takeTrackerMark` leaves as it was. -/
@[simp] theorem Part.takeTrackerMark_keeps (p : Part) :
    (Part.takeTrackerMark p).mem = p.mem ∧ (Part.takeTrackerMark p).regs = p.regs ∧
    (Part.takeTrackerMark p).pins = p.pins ∧ (Part.takeTrackerMark p).spi = p.spi ∧
    (Part.takeTrackerMark p).lineSeat = p.lineSeat ∧ (Part.takeTrackerMark p).lineEnd = p.lineEnd ∧
    (Part.takeTrackerMark p).lineDoor = p.lineDoor ∧ (Part.takeTrackerMark p).swp = p.swp ∧
    (Part.takeTrackerMark p).ed = p.ed ∧ (Part.takeTrackerMark p).free = p.free ∧
    (Part.takeTrackerMark p).ntc.active = p.ntc.active ∧ (Part.takeTrackerMark p).cmp.slots = p.cmp.slots ∧
    (Part.takeTrackerMark p).cmp.refreshSeat = p.cmp.refreshSeat ∧
    (Part.takeTrackerMark p).cmp.refreshEnd = p.cmp.refreshEnd ∧
    (Part.takeTrackerMark p).cmp.refreshDoor = p.cmp.refreshDoor ∧ (Part.takeTrackerMark p).cmp.comp = p.cmp.comp ∧
    (Part.takeTrackerMark p).trk.view = p.trk.view ∧ (Part.takeTrackerMark p).trk.load = p.trk.load ∧
    (Part.takeTrackerMark p).res.load = p.res.load ∧ (Part.takeTrackerMark p).ntc.load = p.ntc.load ∧
    (Part.takeTrackerMark p).res.seats = p.res.seats ∧ (Part.takeTrackerMark p).rep.writing = p.rep.writing ∧
    (Part.takeTrackerMark p).rep.boundaries = p.rep.boundaries ∧ (Part.takeTrackerMark p).trk.told = p.trk.told := by
  unfold Part.takeTrackerMark; split <;> simp

/-- What `Part.remapLost` leaves as it was. -/
@[simp] theorem Part.remapLost_keeps (p : Part) :
    (Part.remapLost p).mem = p.mem ∧ (Part.remapLost p).regs = p.regs ∧ (Part.remapLost p).pins = p.pins ∧
    (Part.remapLost p).spi = p.spi ∧ (Part.remapLost p).lineSeat = p.lineSeat ∧
    (Part.remapLost p).lineEnd = p.lineEnd ∧ (Part.remapLost p).lineDoor = p.lineDoor ∧
    (Part.remapLost p).swp = p.swp ∧ (Part.remapLost p).ed = p.ed ∧ (Part.remapLost p).free = p.free ∧
    (Part.remapLost p).odo.legDistance = p.odo.legDistance ∧ (Part.remapLost p).ntc.active = p.ntc.active ∧
    (Part.remapLost p).cmp.slots = p.cmp.slots ∧ (Part.remapLost p).cmp.refreshSeat = p.cmp.refreshSeat ∧
    (Part.remapLost p).cmp.refreshEnd = p.cmp.refreshEnd ∧ (Part.remapLost p).cmp.refreshDoor = p.cmp.refreshDoor ∧
    (Part.remapLost p).cmp.comp = p.cmp.comp ∧ (Part.remapLost p).trk.view = p.trk.view ∧
    (Part.remapLost p).trk.load = p.trk.load ∧ (Part.remapLost p).res.load = p.res.load ∧
    (Part.remapLost p).ntc.load = p.ntc.load ∧ (Part.remapLost p).res.seats = p.res.seats ∧
    (Part.remapLost p).rep.writing = p.rep.writing ∧ (Part.remapLost p).rep.boundaries = p.rep.boundaries ∧
    (Part.remapLost p).trk.told = p.trk.told := by
  simp [Part.remapLost]

/-- What `Part.remapFound` leaves as it was. -/
@[simp] theorem Part.remapFound_keeps (p : Part) (j : Nat) :
    (Part.remapFound p j).mem = p.mem ∧ (Part.remapFound p j).regs = p.regs ∧ (Part.remapFound p j).pins = p.pins ∧
    (Part.remapFound p j).spi = p.spi ∧ (Part.remapFound p j).lineSeat = p.lineSeat ∧
    (Part.remapFound p j).lineEnd = p.lineEnd ∧ (Part.remapFound p j).lineDoor = p.lineDoor ∧
    (Part.remapFound p j).swp = p.swp ∧ (Part.remapFound p j).ed = p.ed ∧ (Part.remapFound p j).rep = p.rep ∧
    (Part.remapFound p j).free = p.free ∧ (Part.remapFound p j).odo.legDistance = p.odo.legDistance ∧
    (Part.remapFound p j).ntc.active = p.ntc.active ∧ (Part.remapFound p j).cmp.slots = p.cmp.slots ∧
    (Part.remapFound p j).cmp.refreshSeat = p.cmp.refreshSeat ∧
    (Part.remapFound p j).cmp.refreshEnd = p.cmp.refreshEnd ∧
    (Part.remapFound p j).cmp.refreshDoor = p.cmp.refreshDoor ∧ (Part.remapFound p j).cmp.comp = p.cmp.comp ∧
    (Part.remapFound p j).trk.view = p.trk.view ∧ (Part.remapFound p j).trk.load = p.trk.load ∧
    (Part.remapFound p j).res.load = p.res.load ∧ (Part.remapFound p j).ntc.load = p.ntc.load ∧
    (Part.remapFound p j).res.seats = p.res.seats ∧ (Part.remapFound p j).trk.told = p.trk.told := by
  refine ⟨?_, ?_, ?_, ?_, ?_, ?_, ?_, ?_, ?_, ?_, ?_, ?_, ?_, ?_, ?_, ?_, ?_, ?_, ?_, ?_, ?_, ?_, ?_, ?_⟩ <;>
    (unfold Part.remapFound; (repeat' split) <;> simp)

/-- What `Part.remap` leaves as it was. -/
@[simp] theorem Part.remap_keeps (p : Part) (old : List ServedStop) :
    (Part.remap p old).mem = p.mem ∧ (Part.remap p old).regs = p.regs ∧ (Part.remap p old).pins = p.pins ∧
    (Part.remap p old).spi = p.spi ∧ (Part.remap p old).lineSeat = p.lineSeat ∧
    (Part.remap p old).lineEnd = p.lineEnd ∧ (Part.remap p old).lineDoor = p.lineDoor ∧
    (Part.remap p old).swp = p.swp ∧ (Part.remap p old).ed = p.ed ∧ (Part.remap p old).free = p.free ∧
    (Part.remap p old).odo.legDistance = p.odo.legDistance ∧ (Part.remap p old).ntc.active = p.ntc.active ∧
    (Part.remap p old).cmp.slots = p.cmp.slots ∧ (Part.remap p old).cmp.refreshSeat = p.cmp.refreshSeat ∧
    (Part.remap p old).cmp.refreshEnd = p.cmp.refreshEnd ∧ (Part.remap p old).cmp.refreshDoor = p.cmp.refreshDoor ∧
    (Part.remap p old).cmp.comp = p.cmp.comp ∧ (Part.remap p old).trk.view = p.trk.view ∧
    (Part.remap p old).trk.load = p.trk.load ∧ (Part.remap p old).res.load = p.res.load ∧
    (Part.remap p old).ntc.load = p.ntc.load ∧ (Part.remap p old).res.seats = p.res.seats ∧
    (Part.remap p old).rep.writing = p.rep.writing ∧ (Part.remap p old).rep.boundaries = p.rep.boundaries ∧
    (Part.remap p old).trk.told = p.trk.told := by
  refine ⟨?_, ?_, ?_, ?_, ?_, ?_, ?_, ?_, ?_, ?_, ?_, ?_, ?_, ?_, ?_, ?_, ?_, ?_, ?_, ?_, ?_, ?_, ?_, ?_, ?_⟩ <;>
    (unfold Part.remap; (repeat' split) <;> simp)

/-- What `Part.rebuildAndRemap` leaves as it was. -/
@[simp] theorem Part.rebuildAndRemap_keeps (p : Part) :
    (Part.rebuildAndRemap p).mem = p.mem ∧ (Part.rebuildAndRemap p).regs = p.regs ∧
    (Part.rebuildAndRemap p).pins = p.pins ∧ (Part.rebuildAndRemap p).spi = p.spi ∧
    (Part.rebuildAndRemap p).lineSeat = p.lineSeat ∧ (Part.rebuildAndRemap p).lineEnd = p.lineEnd ∧
    (Part.rebuildAndRemap p).lineDoor = p.lineDoor ∧ (Part.rebuildAndRemap p).swp = p.swp ∧
    (Part.rebuildAndRemap p).ed = p.ed ∧ (Part.rebuildAndRemap p).free = p.free ∧
    (Part.rebuildAndRemap p).odo.legDistance = p.odo.legDistance ∧
    (Part.rebuildAndRemap p).ntc.active = p.ntc.active ∧ (Part.rebuildAndRemap p).cmp.slots = p.cmp.slots ∧
    (Part.rebuildAndRemap p).cmp.refreshSeat = p.cmp.refreshSeat ∧
    (Part.rebuildAndRemap p).cmp.refreshEnd = p.cmp.refreshEnd ∧
    (Part.rebuildAndRemap p).cmp.refreshDoor = p.cmp.refreshDoor ∧ (Part.rebuildAndRemap p).cmp.comp = p.cmp.comp ∧
    (Part.rebuildAndRemap p).trk.load = p.trk.load ∧ (Part.rebuildAndRemap p).res.load = p.res.load ∧
    (Part.rebuildAndRemap p).ntc.load = p.ntc.load ∧ (Part.rebuildAndRemap p).res.seats = p.res.seats ∧
    (Part.rebuildAndRemap p).rep.writing = p.rep.writing ∧
    (Part.rebuildAndRemap p).rep.boundaries = p.rep.boundaries ∧ (Part.rebuildAndRemap p).trk.told = p.trk.told := by
  simp [Part.rebuildAndRemap]

/-- What `Part.applyTrackerProfile` leaves as it was. -/
@[simp] theorem Part.applyTrackerProfile_keeps (p : Part) (f : Profile) :
    (Part.applyTrackerProfile p f).mem = p.mem ∧ (Part.applyTrackerProfile p f).regs = p.regs ∧
    (Part.applyTrackerProfile p f).pins = p.pins ∧ (Part.applyTrackerProfile p f).spi = p.spi ∧
    (Part.applyTrackerProfile p f).lineSeat = p.lineSeat ∧ (Part.applyTrackerProfile p f).lineEnd = p.lineEnd ∧
    (Part.applyTrackerProfile p f).lineDoor = p.lineDoor ∧ (Part.applyTrackerProfile p f).swp = p.swp ∧
    (Part.applyTrackerProfile p f).ed = p.ed ∧ (Part.applyTrackerProfile p f).free = p.free ∧
    (Part.applyTrackerProfile p f).odo.legDistance = p.odo.legDistance ∧
    (Part.applyTrackerProfile p f).ntc.active = p.ntc.active ∧
    (Part.applyTrackerProfile p f).cmp.slots = p.cmp.slots ∧
    (Part.applyTrackerProfile p f).cmp.refreshSeat = p.cmp.refreshSeat ∧
    (Part.applyTrackerProfile p f).cmp.refreshEnd = p.cmp.refreshEnd ∧
    (Part.applyTrackerProfile p f).cmp.refreshDoor = p.cmp.refreshDoor ∧
    (Part.applyTrackerProfile p f).cmp.comp = p.cmp.comp ∧ (Part.applyTrackerProfile p f).trk.load = p.trk.load ∧
    (Part.applyTrackerProfile p f).res.load = p.res.load ∧ (Part.applyTrackerProfile p f).ntc.load = p.ntc.load ∧
    (Part.applyTrackerProfile p f).res.seats = p.res.seats ∧
    (Part.applyTrackerProfile p f).rep.writing = p.rep.writing ∧
    (Part.applyTrackerProfile p f).rep.boundaries = p.rep.boundaries ∧
    (Part.applyTrackerProfile p f).trk.told = p.trk.told := by
  refine ⟨?_, ?_, ?_, ?_, ?_, ?_, ?_, ?_, ?_, ?_, ?_, ?_, ?_, ?_, ?_, ?_, ?_, ?_, ?_, ?_, ?_, ?_, ?_, ?_⟩ <;>
    (unfold Part.applyTrackerProfile; dsimp only; (repeat' split) <;> simp)

/-- What `Part.trackerProfile` leaves as it was. -/
@[simp] theorem Part.trackerProfile_keeps (p : Part) :
    (Part.trackerProfile p).mem = p.mem ∧ (Part.trackerProfile p).regs = p.regs ∧
    (Part.trackerProfile p).pins = p.pins ∧ (Part.trackerProfile p).spi = p.spi ∧
    (Part.trackerProfile p).lineSeat = p.lineSeat ∧ (Part.trackerProfile p).lineEnd = p.lineEnd ∧
    (Part.trackerProfile p).lineDoor = p.lineDoor ∧ (Part.trackerProfile p).swp = p.swp ∧
    (Part.trackerProfile p).ed = p.ed ∧ (Part.trackerProfile p).free = p.free ∧
    (Part.trackerProfile p).odo.legDistance = p.odo.legDistance ∧ (Part.trackerProfile p).ntc.active = p.ntc.active ∧
    (Part.trackerProfile p).cmp.slots = p.cmp.slots ∧ (Part.trackerProfile p).cmp.refreshSeat = p.cmp.refreshSeat ∧
    (Part.trackerProfile p).cmp.refreshEnd = p.cmp.refreshEnd ∧
    (Part.trackerProfile p).cmp.refreshDoor = p.cmp.refreshDoor ∧ (Part.trackerProfile p).cmp.comp = p.cmp.comp ∧
    (Part.trackerProfile p).trk.load = p.trk.load ∧ (Part.trackerProfile p).res.load = p.res.load ∧
    (Part.trackerProfile p).ntc.load = p.ntc.load ∧ (Part.trackerProfile p).res.seats = p.res.seats ∧
    (Part.trackerProfile p).rep.writing = p.rep.writing ∧ (Part.trackerProfile p).rep.boundaries = p.rep.boundaries ∧
    (Part.trackerProfile p).trk.told = p.trk.told := by
  unfold Part.trackerProfile; split <;> simp

/-- What `Part.headWrite` leaves as it was. -/
@[simp] theorem Part.headWrite_keeps (p : Part) (bus : Bus) (fields : List FieldWrite) :
    (Part.headWrite p bus fields).regs = p.regs ∧ (Part.headWrite p bus fields).pins = p.pins ∧
    (Part.headWrite p bus fields).spi = p.spi ∧ (Part.headWrite p bus fields).odo = p.odo ∧
    (Part.headWrite p bus fields).trk = p.trk ∧ (Part.headWrite p bus fields).res = p.res ∧
    (Part.headWrite p bus fields).ntc = p.ntc ∧ (Part.headWrite p bus fields).cmp = p.cmp ∧
    (Part.headWrite p bus fields).lineSeat = p.lineSeat ∧ (Part.headWrite p bus fields).lineEnd = p.lineEnd ∧
    (Part.headWrite p bus fields).lineDoor = p.lineDoor ∧ (Part.headWrite p bus fields).swp = p.swp ∧
    (Part.headWrite p bus fields).free = p.free ∧ (Part.headWrite p bus fields).ed.take = p.ed.take ∧
    (Part.headWrite p bus fields).ed.boundary = p.ed.boundary ∧ (Part.headWrite p bus fields).ed.run = p.ed.run ∧
    (Part.headWrite p bus fields).ed.owed = p.ed.owed ∧ (Part.headWrite p bus fields).ed.profile = p.ed.profile ∧
    (Part.headWrite p bus fields).ed.stops = p.ed.stops ∧
    (Part.headWrite p bus fields).ed.reservations = p.ed.reservations ∧
    (Part.headWrite p bus fields).ed.notices = p.ed.notices ∧
    (Part.headWrite p bus fields).ed.content = p.ed.content ∧
    (Part.headWrite p bus fields).rep.writing = p.rep.writing ∧
    (Part.headWrite p bus fields).rep.boundaries = p.rep.boundaries := by
  refine ⟨?_, ?_, ?_, ?_, ?_, ?_, ?_, ?_, ?_, ?_, ?_, ?_, ?_, ?_, ?_, ?_, ?_, ?_, ?_, ?_, ?_, ?_, ?_, ?_⟩ <;>
    (unfold Part.headWrite; dsimp only; (repeat' split) <;> simp)

/-- What `Part.fullWrite` leaves as it was. -/
@[simp] theorem Part.fullWrite_keeps (p : Part) (bus : Bus) (back : List Kind) :
    (Part.fullWrite p bus back).regs = p.regs ∧ (Part.fullWrite p bus back).pins = p.pins ∧
    (Part.fullWrite p bus back).spi = p.spi ∧ (Part.fullWrite p bus back).odo = p.odo ∧
    (Part.fullWrite p bus back).trk = p.trk ∧ (Part.fullWrite p bus back).res = p.res ∧
    (Part.fullWrite p bus back).ntc = p.ntc ∧ (Part.fullWrite p bus back).cmp = p.cmp ∧
    (Part.fullWrite p bus back).lineSeat = p.lineSeat ∧ (Part.fullWrite p bus back).lineEnd = p.lineEnd ∧
    (Part.fullWrite p bus back).lineDoor = p.lineDoor ∧ (Part.fullWrite p bus back).swp = p.swp ∧
    (Part.fullWrite p bus back).free = p.free ∧ (Part.fullWrite p bus back).ed.take = p.ed.take ∧
    (Part.fullWrite p bus back).ed.boundary = p.ed.boundary ∧ (Part.fullWrite p bus back).ed.run = p.ed.run ∧
    (Part.fullWrite p bus back).ed.owed = p.ed.owed ∧ (Part.fullWrite p bus back).ed.profile = p.ed.profile ∧
    (Part.fullWrite p bus back).ed.stops = p.ed.stops ∧
    (Part.fullWrite p bus back).ed.reservations = p.ed.reservations ∧
    (Part.fullWrite p bus back).ed.notices = p.ed.notices ∧ (Part.fullWrite p bus back).ed.content = p.ed.content ∧
    (Part.fullWrite p bus back).rep.writing = p.rep.writing ∧
    (Part.fullWrite p bus back).rep.boundaries = p.rep.boundaries := by
  simp [Part.fullWrite]

/-- What `Part.takeWrite` leaves as it was. -/
@[simp] theorem Part.takeWrite_keeps (p : Part) (bus : Bus) :
    (Part.takeWrite p bus).regs = p.regs ∧ (Part.takeWrite p bus).pins = p.pins ∧
    (Part.takeWrite p bus).spi = p.spi ∧ (Part.takeWrite p bus).odo = p.odo ∧
    (Part.takeWrite p bus).trk = p.trk ∧ (Part.takeWrite p bus).res = p.res ∧ (Part.takeWrite p bus).ntc = p.ntc ∧
    (Part.takeWrite p bus).cmp = p.cmp ∧ (Part.takeWrite p bus).lineSeat = p.lineSeat ∧
    (Part.takeWrite p bus).lineEnd = p.lineEnd ∧ (Part.takeWrite p bus).lineDoor = p.lineDoor ∧
    (Part.takeWrite p bus).swp = p.swp ∧ (Part.takeWrite p bus).free = p.free ∧
    (Part.takeWrite p bus).ed.take = p.ed.take ∧ (Part.takeWrite p bus).ed.boundary = p.ed.boundary ∧
    (Part.takeWrite p bus).ed.run = p.ed.run ∧ (Part.takeWrite p bus).ed.owed = p.ed.owed ∧
    (Part.takeWrite p bus).ed.profile = p.ed.profile ∧ (Part.takeWrite p bus).ed.stops = p.ed.stops ∧
    (Part.takeWrite p bus).ed.reservations = p.ed.reservations ∧ (Part.takeWrite p bus).ed.notices = p.ed.notices ∧
    (Part.takeWrite p bus).ed.content = p.ed.content ∧ (Part.takeWrite p bus).rep.writing = p.rep.writing ∧
    (Part.takeWrite p bus).rep.boundaries = p.rep.boundaries := by
  simp [Part.takeWrite]

/-- What `Part.owe` leaves as it was. -/
@[simp] theorem Part.owe_keeps (p : Part) (w : OwedWrite) :
    (Part.owe p w).mem = p.mem ∧ (Part.owe p w).regs = p.regs ∧ (Part.owe p w).pins = p.pins ∧
    (Part.owe p w).spi = p.spi ∧ (Part.owe p w).odo = p.odo ∧ (Part.owe p w).trk = p.trk ∧
    (Part.owe p w).res = p.res ∧ (Part.owe p w).ntc = p.ntc ∧ (Part.owe p w).cmp = p.cmp ∧
    (Part.owe p w).lineSeat = p.lineSeat ∧ (Part.owe p w).lineEnd = p.lineEnd ∧ (Part.owe p w).lineDoor = p.lineDoor ∧
    (Part.owe p w).swp = p.swp ∧ (Part.owe p w).rep = p.rep ∧ (Part.owe p w).free = p.free ∧
    (Part.owe p w).ed.take = p.ed.take ∧ (Part.owe p w).ed.seq = p.ed.seq ∧
    (Part.owe p w).ed.boundary = p.ed.boundary ∧ (Part.owe p w).ed.run = p.ed.run ∧
    (Part.owe p w).ed.profile = p.ed.profile ∧ (Part.owe p w).ed.stops = p.ed.stops ∧
    (Part.owe p w).ed.reservations = p.ed.reservations ∧ (Part.owe p w).ed.notices = p.ed.notices ∧
    (Part.owe p w).ed.content = p.ed.content := by
  simp [Part.owe]

/-- What `Part.positionWrite` leaves as it was. -/
@[simp] theorem Part.positionWrite_keeps (p : Part) (bus : Bus) (r : PositionResult) :
    (Part.positionWrite p bus r).regs = p.regs ∧ (Part.positionWrite p bus r).pins = p.pins ∧
    (Part.positionWrite p bus r).spi = p.spi ∧ (Part.positionWrite p bus r).odo = p.odo ∧
    (Part.positionWrite p bus r).trk = p.trk ∧ (Part.positionWrite p bus r).res = p.res ∧
    (Part.positionWrite p bus r).ntc = p.ntc ∧ (Part.positionWrite p bus r).cmp = p.cmp ∧
    (Part.positionWrite p bus r).lineSeat = p.lineSeat ∧ (Part.positionWrite p bus r).lineEnd = p.lineEnd ∧
    (Part.positionWrite p bus r).lineDoor = p.lineDoor ∧ (Part.positionWrite p bus r).swp = p.swp ∧
    (Part.positionWrite p bus r).free = p.free ∧ (Part.positionWrite p bus r).ed.take = p.ed.take ∧
    (Part.positionWrite p bus r).ed.boundary = p.ed.boundary ∧ (Part.positionWrite p bus r).ed.run = p.ed.run ∧
    (Part.positionWrite p bus r).ed.profile = p.ed.profile ∧ (Part.positionWrite p bus r).ed.stops = p.ed.stops ∧
    (Part.positionWrite p bus r).ed.reservations = p.ed.reservations ∧
    (Part.positionWrite p bus r).ed.notices = p.ed.notices ∧ (Part.positionWrite p bus r).ed.content = p.ed.content ∧
    (Part.positionWrite p bus r).rep.writing = p.rep.writing ∧
    (Part.positionWrite p bus r).rep.boundaries = p.rep.boundaries := by
  unfold Part.positionWrite; split <;> simp

/-- What `Part.placeAtStop` leaves as it was. -/
@[simp] theorem Part.placeAtStop_keeps (p : Part) (j : Nat) :
    (Part.placeAtStop p j).mem = p.mem ∧ (Part.placeAtStop p j).regs = p.regs ∧ (Part.placeAtStop p j).pins = p.pins ∧
    (Part.placeAtStop p j).spi = p.spi ∧ (Part.placeAtStop p j).lineSeat = p.lineSeat ∧
    (Part.placeAtStop p j).lineEnd = p.lineEnd ∧ (Part.placeAtStop p j).lineDoor = p.lineDoor ∧
    (Part.placeAtStop p j).swp = p.swp ∧ (Part.placeAtStop p j).ed = p.ed ∧ (Part.placeAtStop p j).free = p.free ∧
    (Part.placeAtStop p j).ntc.active = p.ntc.active ∧ (Part.placeAtStop p j).cmp.slots = p.cmp.slots ∧
    (Part.placeAtStop p j).cmp.refreshSeat = p.cmp.refreshSeat ∧
    (Part.placeAtStop p j).cmp.refreshEnd = p.cmp.refreshEnd ∧
    (Part.placeAtStop p j).cmp.refreshDoor = p.cmp.refreshDoor ∧ (Part.placeAtStop p j).cmp.comp = p.cmp.comp ∧
    (Part.placeAtStop p j).trk.view = p.trk.view ∧ (Part.placeAtStop p j).trk.load = p.trk.load ∧
    (Part.placeAtStop p j).res.load = p.res.load ∧ (Part.placeAtStop p j).ntc.load = p.ntc.load ∧
    (Part.placeAtStop p j).res.seats = p.res.seats ∧ (Part.placeAtStop p j).rep.writing = p.rep.writing ∧
    (Part.placeAtStop p j).rep.boundaries = p.rep.boundaries ∧ (Part.placeAtStop p j).trk.told = p.trk.told := by
  simp [Part.placeAtStop]

/-- What `Part.placeInLeg` leaves as it was. -/
@[simp] theorem Part.placeInLeg_keeps (p : Part) (j : Nat) (metres : Nat) :
    (Part.placeInLeg p j metres).mem = p.mem ∧ (Part.placeInLeg p j metres).regs = p.regs ∧
    (Part.placeInLeg p j metres).pins = p.pins ∧ (Part.placeInLeg p j metres).spi = p.spi ∧
    (Part.placeInLeg p j metres).lineSeat = p.lineSeat ∧ (Part.placeInLeg p j metres).lineEnd = p.lineEnd ∧
    (Part.placeInLeg p j metres).lineDoor = p.lineDoor ∧ (Part.placeInLeg p j metres).swp = p.swp ∧
    (Part.placeInLeg p j metres).ed = p.ed ∧ (Part.placeInLeg p j metres).free = p.free ∧
    (Part.placeInLeg p j metres).ntc.active = p.ntc.active ∧ (Part.placeInLeg p j metres).cmp.slots = p.cmp.slots ∧
    (Part.placeInLeg p j metres).cmp.refreshSeat = p.cmp.refreshSeat ∧
    (Part.placeInLeg p j metres).cmp.refreshEnd = p.cmp.refreshEnd ∧
    (Part.placeInLeg p j metres).cmp.refreshDoor = p.cmp.refreshDoor ∧
    (Part.placeInLeg p j metres).cmp.comp = p.cmp.comp ∧ (Part.placeInLeg p j metres).trk.view = p.trk.view ∧
    (Part.placeInLeg p j metres).trk.load = p.trk.load ∧ (Part.placeInLeg p j metres).res.load = p.res.load ∧
    (Part.placeInLeg p j metres).ntc.load = p.ntc.load ∧ (Part.placeInLeg p j metres).res.seats = p.res.seats ∧
    (Part.placeInLeg p j metres).rep.writing = p.rep.writing ∧
    (Part.placeInLeg p j metres).rep.boundaries = p.rep.boundaries ∧
    (Part.placeInLeg p j metres).trk.told = p.trk.told := by
  simp [Part.placeInLeg]

/-- What `Part.unplaceCoach` leaves as it was. -/
@[simp] theorem Part.unplaceCoach_keeps (p : Part) :
    (Part.unplaceCoach p).mem = p.mem ∧ (Part.unplaceCoach p).regs = p.regs ∧ (Part.unplaceCoach p).pins = p.pins ∧
    (Part.unplaceCoach p).spi = p.spi ∧ (Part.unplaceCoach p).lineSeat = p.lineSeat ∧
    (Part.unplaceCoach p).lineEnd = p.lineEnd ∧ (Part.unplaceCoach p).lineDoor = p.lineDoor ∧
    (Part.unplaceCoach p).swp = p.swp ∧ (Part.unplaceCoach p).ed = p.ed ∧ (Part.unplaceCoach p).rep = p.rep ∧
    (Part.unplaceCoach p).free = p.free ∧ (Part.unplaceCoach p).odo.legDistance = p.odo.legDistance ∧
    (Part.unplaceCoach p).ntc.active = p.ntc.active ∧ (Part.unplaceCoach p).cmp.slots = p.cmp.slots ∧
    (Part.unplaceCoach p).cmp.refreshSeat = p.cmp.refreshSeat ∧
    (Part.unplaceCoach p).cmp.refreshEnd = p.cmp.refreshEnd ∧
    (Part.unplaceCoach p).cmp.refreshDoor = p.cmp.refreshDoor ∧ (Part.unplaceCoach p).cmp.comp = p.cmp.comp ∧
    (Part.unplaceCoach p).trk.view = p.trk.view ∧ (Part.unplaceCoach p).trk.load = p.trk.load ∧
    (Part.unplaceCoach p).res.load = p.res.load ∧ (Part.unplaceCoach p).ntc.load = p.ntc.load ∧
    (Part.unplaceCoach p).res.seats = p.res.seats ∧ (Part.unplaceCoach p).trk.told = p.trk.told := by
  simp [Part.unplaceCoach]

/-- What `Part.completeStopLoad` leaves as it was. -/
@[simp] theorem Part.completeStopLoad_keeps (p : Part) (bus : Bus) :
    (Part.completeStopLoad p bus).regs = p.regs ∧ (Part.completeStopLoad p bus).pins = p.pins ∧
    (Part.completeStopLoad p bus).spi = p.spi ∧
    (Part.completeStopLoad p bus).lineSeat = p.lineSeat ∧ (Part.completeStopLoad p bus).lineEnd = p.lineEnd ∧
    (Part.completeStopLoad p bus).lineDoor = p.lineDoor ∧ (Part.completeStopLoad p bus).swp = p.swp ∧
    (Part.completeStopLoad p bus).free = p.free ∧ (Part.completeStopLoad p bus).odo.legDistance = p.odo.legDistance ∧
    (Part.completeStopLoad p bus).ntc.active = p.ntc.active ∧ (Part.completeStopLoad p bus).ed.take = p.ed.take ∧
    (Part.completeStopLoad p bus).ed.seq = p.ed.seq ∧ (Part.completeStopLoad p bus).ed.boundary = p.ed.boundary ∧
    (Part.completeStopLoad p bus).ed.run = p.ed.run ∧ (Part.completeStopLoad p bus).ed.owed = p.ed.owed ∧
    (Part.completeStopLoad p bus).cmp.slots = p.cmp.slots ∧
    (Part.completeStopLoad p bus).cmp.refreshSeat = p.cmp.refreshSeat ∧
    (Part.completeStopLoad p bus).cmp.refreshEnd = p.cmp.refreshEnd ∧
    (Part.completeStopLoad p bus).cmp.refreshDoor = p.cmp.refreshDoor ∧
    (Part.completeStopLoad p bus).cmp.comp = p.cmp.comp ∧ (Part.completeStopLoad p bus).res.load = p.res.load ∧
    (Part.completeStopLoad p bus).ntc.load = p.ntc.load ∧ (Part.completeStopLoad p bus).res.seats = p.res.seats ∧
    (Part.completeStopLoad p bus).rep.writing = p.rep.writing ∧
    (Part.completeStopLoad p bus).rep.boundaries = p.rep.boundaries ∧
    (Part.completeStopLoad p bus).trk.told = p.trk.told := by
  refine ⟨?_, ?_, ?_, ?_, ?_, ?_, ?_, ?_, ?_, ?_, ?_, ?_, ?_, ?_, ?_, ?_, ?_, ?_, ?_, ?_, ?_, ?_, ?_, ?_, ?_, ?_⟩ <;>
    (unfold Part.completeStopLoad; dsimp only; (repeat' split) <;> simp)

end Sys2Proof.Machine
end

