-- ==== Sys2Proof/Laws/FrameTables.lean ====
section
/-! SUPPORT. Frames: what the operations of the reservation engine and the notice scheduler leave as it was. -/

namespace Sys2Proof.Machine

/-- What `Part.readReference` leaves as it was. -/
@[simp] theorem Part.readReference_keeps (p : Part) :
    (Part.readReference p).mem = p.mem ∧ (Part.readReference p).regs = p.regs ∧ (Part.readReference p).pins = p.pins ∧
    (Part.readReference p).spi = p.spi ∧ (Part.readReference p).odo = p.odo ∧
    (Part.readReference p).trk = p.trk ∧ (Part.readReference p).ntc = p.ntc ∧ (Part.readReference p).cmp = p.cmp ∧
    (Part.readReference p).lineSeat = p.lineSeat ∧ (Part.readReference p).lineEnd = p.lineEnd ∧
    (Part.readReference p).lineDoor = p.lineDoor ∧ (Part.readReference p).swp = p.swp ∧
    (Part.readReference p).ed = p.ed ∧ (Part.readReference p).rep = p.rep ∧ (Part.readReference p).free = p.free := by
  simp [Part.readReference]

/-- What `Part.showSeats` leaves as it was. -/
@[simp] theorem Part.showSeats_keeps (p : Part) (seats : List Seat) :
    (Part.showSeats p seats).mem = p.mem ∧ (Part.showSeats p seats).regs = p.regs ∧
    (Part.showSeats p seats).pins = p.pins ∧ (Part.showSeats p seats).spi = p.spi ∧
    (Part.showSeats p seats).odo = p.odo ∧ (Part.showSeats p seats).trk = p.trk ∧
    (Part.showSeats p seats).ntc = p.ntc ∧ (Part.showSeats p seats).lineSeat = p.lineSeat ∧
    (Part.showSeats p seats).lineEnd = p.lineEnd ∧ (Part.showSeats p seats).lineDoor = p.lineDoor ∧
    (Part.showSeats p seats).swp = p.swp ∧ (Part.showSeats p seats).ed = p.ed ∧ (Part.showSeats p seats).rep = p.rep ∧
    (Part.showSeats p seats).free = p.free ∧ (Part.showSeats p seats).cmp.slots = p.cmp.slots ∧
    (Part.showSeats p seats).cmp.refreshSeat = p.cmp.refreshSeat ∧
    (Part.showSeats p seats).cmp.refreshEnd = p.cmp.refreshEnd ∧
    (Part.showSeats p seats).cmp.refreshDoor = p.cmp.refreshDoor ∧ (Part.showSeats p seats).cmp.comp = p.cmp.comp ∧
    (Part.showSeats p seats).res.load = p.res.load := by
  simp [Part.showSeats]

/-- What `Part.evaluateAll` leaves as it was. -/
@[simp] theorem Part.evaluateAll_keeps (p : Part) :
    (Part.evaluateAll p).mem = p.mem ∧ (Part.evaluateAll p).regs = p.regs ∧ (Part.evaluateAll p).pins = p.pins ∧
    (Part.evaluateAll p).spi = p.spi ∧ (Part.evaluateAll p).odo = p.odo ∧
    (Part.evaluateAll p).trk = p.trk ∧ (Part.evaluateAll p).ntc = p.ntc ∧ (Part.evaluateAll p).lineSeat = p.lineSeat ∧
    (Part.evaluateAll p).lineEnd = p.lineEnd ∧ (Part.evaluateAll p).lineDoor = p.lineDoor ∧
    (Part.evaluateAll p).swp = p.swp ∧ (Part.evaluateAll p).ed = p.ed ∧ (Part.evaluateAll p).rep = p.rep ∧
    (Part.evaluateAll p).free = p.free ∧ (Part.evaluateAll p).cmp.slots = p.cmp.slots ∧
    (Part.evaluateAll p).cmp.refreshSeat = p.cmp.refreshSeat ∧
    (Part.evaluateAll p).cmp.refreshEnd = p.cmp.refreshEnd ∧
    (Part.evaluateAll p).cmp.refreshDoor = p.cmp.refreshDoor ∧ (Part.evaluateAll p).cmp.comp = p.cmp.comp := by
  simp [Part.evaluateAll]

/-- What `Part.evaluateSeat` leaves as it was. -/
@[simp] theorem Part.evaluateSeat_keeps (p : Part) (number : Nat) :
    (Part.evaluateSeat p number).mem = p.mem ∧ (Part.evaluateSeat p number).regs = p.regs ∧
    (Part.evaluateSeat p number).pins = p.pins ∧ (Part.evaluateSeat p number).spi = p.spi ∧
    (Part.evaluateSeat p number).odo = p.odo ∧ (Part.evaluateSeat p number).trk = p.trk ∧
    (Part.evaluateSeat p number).ntc = p.ntc ∧ (Part.evaluateSeat p number).lineSeat = p.lineSeat ∧
    (Part.evaluateSeat p number).lineEnd = p.lineEnd ∧ (Part.evaluateSeat p number).lineDoor = p.lineDoor ∧
    (Part.evaluateSeat p number).swp = p.swp ∧ (Part.evaluateSeat p number).ed = p.ed ∧
    (Part.evaluateSeat p number).rep = p.rep ∧ (Part.evaluateSeat p number).free = p.free ∧
    (Part.evaluateSeat p number).cmp.slots = p.cmp.slots ∧
    (Part.evaluateSeat p number).cmp.refreshSeat = p.cmp.refreshSeat ∧
    (Part.evaluateSeat p number).cmp.refreshEnd = p.cmp.refreshEnd ∧
    (Part.evaluateSeat p number).cmp.refreshDoor = p.cmp.refreshDoor ∧
    (Part.evaluateSeat p number).cmp.comp = p.cmp.comp := by
  simp [Part.evaluateSeat]

/-- What `Part.reservationJourney` leaves as it was. -/
@[simp] theorem Part.reservationJourney_keeps (p : Part) :
    (Part.reservationJourney p).mem = p.mem ∧ (Part.reservationJourney p).regs = p.regs ∧
    (Part.reservationJourney p).pins = p.pins ∧ (Part.reservationJourney p).spi = p.spi ∧
    (Part.reservationJourney p).odo = p.odo ∧ (Part.reservationJourney p).trk = p.trk ∧
    (Part.reservationJourney p).ntc = p.ntc ∧ (Part.reservationJourney p).lineSeat = p.lineSeat ∧
    (Part.reservationJourney p).lineEnd = p.lineEnd ∧ (Part.reservationJourney p).lineDoor = p.lineDoor ∧
    (Part.reservationJourney p).swp = p.swp ∧ (Part.reservationJourney p).ed = p.ed ∧
    (Part.reservationJourney p).rep = p.rep ∧ (Part.reservationJourney p).free = p.free ∧
    (Part.reservationJourney p).cmp.slots = p.cmp.slots ∧
    (Part.reservationJourney p).cmp.refreshSeat = p.cmp.refreshSeat ∧
    (Part.reservationJourney p).cmp.refreshEnd = p.cmp.refreshEnd ∧
    (Part.reservationJourney p).cmp.refreshDoor = p.cmp.refreshDoor ∧
    (Part.reservationJourney p).cmp.comp = p.cmp.comp := by
  unfold Part.reservationJourney; split <;> simp

/-- What `Part.seatMapLoad` leaves as it was. -/
@[simp] theorem Part.seatMapLoad_keeps (p : Part) :
    (Part.seatMapLoad p).mem = p.mem ∧ (Part.seatMapLoad p).regs = p.regs ∧ (Part.seatMapLoad p).pins = p.pins ∧
    (Part.seatMapLoad p).spi = p.spi ∧ (Part.seatMapLoad p).odo = p.odo ∧
    (Part.seatMapLoad p).trk = p.trk ∧ (Part.seatMapLoad p).ntc = p.ntc ∧ (Part.seatMapLoad p).lineSeat = p.lineSeat ∧
    (Part.seatMapLoad p).lineEnd = p.lineEnd ∧ (Part.seatMapLoad p).lineDoor = p.lineDoor ∧
    (Part.seatMapLoad p).swp = p.swp ∧ (Part.seatMapLoad p).ed = p.ed ∧ (Part.seatMapLoad p).rep = p.rep ∧
    (Part.seatMapLoad p).free = p.free ∧ (Part.seatMapLoad p).cmp.slots = p.cmp.slots ∧
    (Part.seatMapLoad p).cmp.refreshSeat = p.cmp.refreshSeat ∧
    (Part.seatMapLoad p).cmp.refreshEnd = p.cmp.refreshEnd ∧
    (Part.seatMapLoad p).cmp.refreshDoor = p.cmp.refreshDoor ∧ (Part.seatMapLoad p).cmp.comp = p.cmp.comp := by
  unfold Part.seatMapLoad; split <;> simp

/-- What `Part.completeSeatLoad` leaves as it was. -/
@[simp] theorem Part.completeSeatLoad_keeps (p : Part) (bus : Bus) :
    (Part.completeSeatLoad p bus).regs = p.regs ∧ (Part.completeSeatLoad p bus).pins = p.pins ∧
    (Part.completeSeatLoad p bus).spi = p.spi ∧ (Part.completeSeatLoad p bus).odo = p.odo ∧
    (Part.completeSeatLoad p bus).trk = p.trk ∧ (Part.completeSeatLoad p bus).ntc = p.ntc ∧
    (Part.completeSeatLoad p bus).lineSeat = p.lineSeat ∧ (Part.completeSeatLoad p bus).lineEnd = p.lineEnd ∧
    (Part.completeSeatLoad p bus).lineDoor = p.lineDoor ∧ (Part.completeSeatLoad p bus).swp = p.swp ∧
    (Part.completeSeatLoad p bus).free = p.free ∧ (Part.completeSeatLoad p bus).ed.take = p.ed.take ∧
    (Part.completeSeatLoad p bus).ed.seq = p.ed.seq ∧ (Part.completeSeatLoad p bus).ed.boundary = p.ed.boundary ∧
    (Part.completeSeatLoad p bus).ed.run = p.ed.run ∧ (Part.completeSeatLoad p bus).ed.owed = p.ed.owed ∧
    (Part.completeSeatLoad p bus).cmp.slots = p.cmp.slots ∧
    (Part.completeSeatLoad p bus).cmp.refreshSeat = p.cmp.refreshSeat ∧
    (Part.completeSeatLoad p bus).cmp.refreshEnd = p.cmp.refreshEnd ∧
    (Part.completeSeatLoad p bus).cmp.refreshDoor = p.cmp.refreshDoor ∧
    (Part.completeSeatLoad p bus).cmp.comp = p.cmp.comp ∧ (Part.completeSeatLoad p bus).ed.profile = p.ed.profile ∧
    (Part.completeSeatLoad p bus).ed.stops = p.ed.stops ∧ (Part.completeSeatLoad p bus).ed.notices = p.ed.notices ∧
    (Part.completeSeatLoad p bus).ed.content = p.ed.content ∧
    (Part.completeSeatLoad p bus).rep.writing = p.rep.writing ∧
    (Part.completeSeatLoad p bus).rep.boundaries = p.rep.boundaries := by
  refine ⟨?_, ?_, ?_, ?_, ?_, ?_, ?_, ?_, ?_, ?_, ?_, ?_, ?_, ?_, ?_, ?_, ?_, ?_, ?_, ?_, ?_, ?_, ?_, ?_, ?_, ?_, ?_⟩ <;>
    (unfold Part.completeSeatLoad; dsimp only; (repeat' split) <;> rfl)

/-- What `Part.changeSeat` leaves as it was. -/
@[simp] theorem Part.changeSeat_keeps (p : Part) (number : Nat) (f : Seat → Seat) :
    (Part.changeSeat p number f).mem = p.mem ∧ (Part.changeSeat p number f).regs = p.regs ∧
    (Part.changeSeat p number f).pins = p.pins ∧ (Part.changeSeat p number f).spi = p.spi ∧
    (Part.changeSeat p number f).odo = p.odo ∧ (Part.changeSeat p number f).trk = p.trk ∧
    (Part.changeSeat p number f).ntc = p.ntc ∧ (Part.changeSeat p number f).cmp = p.cmp ∧
    (Part.changeSeat p number f).lineSeat = p.lineSeat ∧ (Part.changeSeat p number f).lineEnd = p.lineEnd ∧
    (Part.changeSeat p number f).lineDoor = p.lineDoor ∧ (Part.changeSeat p number f).swp = p.swp ∧
    (Part.changeSeat p number f).ed = p.ed ∧ (Part.changeSeat p number f).rep = p.rep ∧
    (Part.changeSeat p number f).free = p.free ∧ (Part.changeSeat p number f).res.load = p.res.load := by
  simp [Part.changeSeat]

/-- What `Part.amended` leaves as it was. -/
@[simp] theorem Part.amended_keeps (p : Part) (number : Nat) (segments : List Segment) :
    (Part.amended p number segments).mem = p.mem ∧ (Part.amended p number segments).regs = p.regs ∧
    (Part.amended p number segments).pins = p.pins ∧ (Part.amended p number segments).spi = p.spi ∧
    (Part.amended p number segments).odo = p.odo ∧ (Part.amended p number segments).trk = p.trk ∧
    (Part.amended p number segments).ntc = p.ntc ∧ (Part.amended p number segments).lineSeat = p.lineSeat ∧
    (Part.amended p number segments).lineEnd = p.lineEnd ∧ (Part.amended p number segments).lineDoor = p.lineDoor ∧
    (Part.amended p number segments).swp = p.swp ∧ (Part.amended p number segments).ed = p.ed ∧
    (Part.amended p number segments).rep = p.rep ∧ (Part.amended p number segments).free = p.free ∧
    (Part.amended p number segments).cmp.slots = p.cmp.slots ∧
    (Part.amended p number segments).cmp.refreshSeat = p.cmp.refreshSeat ∧
    (Part.amended p number segments).cmp.refreshEnd = p.cmp.refreshEnd ∧
    (Part.amended p number segments).cmp.refreshDoor = p.cmp.refreshDoor ∧
    (Part.amended p number segments).cmp.comp = p.cmp.comp := by
  simp [Part.amended]

/-- What `Part.setRun` leaves as it was. -/
@[simp] theorem Part.setRun_keeps (p : Part) (r : Option DeliveryRun) :
    (Part.setRun p r).mem = p.mem ∧ (Part.setRun p r).regs = p.regs ∧ (Part.setRun p r).pins = p.pins ∧
    (Part.setRun p r).spi = p.spi ∧ (Part.setRun p r).odo = p.odo ∧ (Part.setRun p r).trk = p.trk ∧
    (Part.setRun p r).res = p.res ∧ (Part.setRun p r).ntc = p.ntc ∧ (Part.setRun p r).cmp = p.cmp ∧
    (Part.setRun p r).lineSeat = p.lineSeat ∧ (Part.setRun p r).lineEnd = p.lineEnd ∧
    (Part.setRun p r).lineDoor = p.lineDoor ∧ (Part.setRun p r).swp = p.swp ∧ (Part.setRun p r).rep = p.rep ∧
    (Part.setRun p r).free = p.free ∧ (Part.setRun p r).ed.take = p.ed.take ∧ (Part.setRun p r).ed.seq = p.ed.seq ∧
    (Part.setRun p r).ed.boundary = p.ed.boundary ∧ (Part.setRun p r).ed.owed = p.ed.owed ∧
    (Part.setRun p r).ed.profile = p.ed.profile ∧ (Part.setRun p r).ed.stops = p.ed.stops ∧
    (Part.setRun p r).ed.reservations = p.ed.reservations ∧ (Part.setRun p r).ed.notices = p.ed.notices ∧
    (Part.setRun p r).ed.content = p.ed.content := by
  simp [Part.setRun]

/-- What `Part.amendmentAnswered` leaves as it was. -/
@[simp] theorem Part.amendmentAnswered_keeps (p : Part) (run : DeliveryRun) (answer : Option AmendResult) :
    (Part.amendmentAnswered p run answer).mem = p.mem ∧ (Part.amendmentAnswered p run answer).regs = p.regs ∧
    (Part.amendmentAnswered p run answer).pins = p.pins ∧
    (Part.amendmentAnswered p run answer).spi = p.spi ∧
    (Part.amendmentAnswered p run answer).odo = p.odo ∧ (Part.amendmentAnswered p run answer).trk = p.trk ∧
    (Part.amendmentAnswered p run answer).res = p.res ∧ (Part.amendmentAnswered p run answer).ntc = p.ntc ∧
    (Part.amendmentAnswered p run answer).cmp = p.cmp ∧ (Part.amendmentAnswered p run answer).lineSeat = p.lineSeat ∧
    (Part.amendmentAnswered p run answer).lineEnd = p.lineEnd ∧
    (Part.amendmentAnswered p run answer).lineDoor = p.lineDoor ∧ (Part.amendmentAnswered p run answer).swp = p.swp ∧
    (Part.amendmentAnswered p run answer).rep = p.rep ∧ (Part.amendmentAnswered p run answer).free = p.free ∧
    (Part.amendmentAnswered p run answer).ed.take = p.ed.take ∧
    (Part.amendmentAnswered p run answer).ed.seq = p.ed.seq ∧
    (Part.amendmentAnswered p run answer).ed.boundary = p.ed.boundary ∧
    (Part.amendmentAnswered p run answer).ed.profile = p.ed.profile ∧
    (Part.amendmentAnswered p run answer).ed.stops = p.ed.stops ∧
    (Part.amendmentAnswered p run answer).ed.reservations = p.ed.reservations ∧
    (Part.amendmentAnswered p run answer).ed.notices = p.ed.notices ∧
    (Part.amendmentAnswered p run answer).ed.content = p.ed.content := by
  refine ⟨?_, ?_, ?_, ?_, ?_, ?_, ?_, ?_, ?_, ?_, ?_, ?_, ?_, ?_, ?_, ?_, ?_, ?_, ?_, ?_, ?_, ?_, ?_⟩ <;>
    (unfold Part.amendmentAnswered; (repeat' split) <;> simp)

/-- What `Part.chimeRequested` leaves as it was. -/
@[simp] theorem Part.chimeRequested_keeps (p : Part) :
    (Part.chimeRequested p).mem = p.mem ∧ (Part.chimeRequested p).regs = p.regs ∧
    (Part.chimeRequested p).pins = p.pins ∧ (Part.chimeRequested p).spi = p.spi ∧
    (Part.chimeRequested p).odo = p.odo ∧ (Part.chimeRequested p).trk = p.trk ∧ (Part.chimeRequested p).res = p.res ∧
    (Part.chimeRequested p).ntc = p.ntc ∧ (Part.chimeRequested p).cmp = p.cmp ∧
    (Part.chimeRequested p).lineSeat = p.lineSeat ∧ (Part.chimeRequested p).lineEnd = p.lineEnd ∧
    (Part.chimeRequested p).lineDoor = p.lineDoor ∧ (Part.chimeRequested p).ed = p.ed ∧
    (Part.chimeRequested p).rep = p.rep ∧ (Part.chimeRequested p).free = p.free ∧
    (Part.chimeRequested p).swp.us = p.swp.us ∧ (Part.chimeRequested p).swp.ms = p.swp.ms := by
  unfold Part.chimeRequested; split <;> simp

/-- What `Part.tonePartEnded` leaves as it was. -/
@[simp] theorem Part.tonePartEnded_keeps (p : Part) :
    (Part.tonePartEnded p).mem = p.mem ∧ (Part.tonePartEnded p).regs = p.regs ∧ (Part.tonePartEnded p).pins = p.pins ∧
    (Part.tonePartEnded p).spi = p.spi ∧ (Part.tonePartEnded p).odo = p.odo ∧
    (Part.tonePartEnded p).trk = p.trk ∧ (Part.tonePartEnded p).res = p.res ∧ (Part.tonePartEnded p).ntc = p.ntc ∧
    (Part.tonePartEnded p).cmp = p.cmp ∧ (Part.tonePartEnded p).lineSeat = p.lineSeat ∧
    (Part.tonePartEnded p).lineEnd = p.lineEnd ∧ (Part.tonePartEnded p).lineDoor = p.lineDoor ∧
    (Part.tonePartEnded p).ed = p.ed ∧ (Part.tonePartEnded p).rep = p.rep ∧ (Part.tonePartEnded p).free = p.free ∧
    (Part.tonePartEnded p).swp.us = p.swp.us ∧ (Part.tonePartEnded p).swp.ms = p.swp.ms := by
  simp [Part.tonePartEnded]

/-- What `Part.comesUp` leaves as it was. -/
@[simp] theorem Part.comesUp_keeps (p : Part) (d : NoticeDef) :
    (Part.comesUp p d).mem = p.mem ∧ (Part.comesUp p d).regs = p.regs ∧ (Part.comesUp p d).pins = p.pins ∧
    (Part.comesUp p d).spi = p.spi ∧ (Part.comesUp p d).odo = p.odo ∧
    (Part.comesUp p d).trk = p.trk ∧ (Part.comesUp p d).res = p.res ∧ (Part.comesUp p d).ntc = p.ntc ∧
    (Part.comesUp p d).cmp = p.cmp ∧ (Part.comesUp p d).lineSeat = p.lineSeat ∧
    (Part.comesUp p d).lineEnd = p.lineEnd ∧ (Part.comesUp p d).lineDoor = p.lineDoor ∧ (Part.comesUp p d).ed = p.ed ∧
    (Part.comesUp p d).rep = p.rep ∧ (Part.comesUp p d).free = p.free ∧ (Part.comesUp p d).swp.us = p.swp.us ∧
    (Part.comesUp p d).swp.ms = p.swp.ms := by
  unfold Part.comesUp; split <;> simp

/-- What `Part.setActive` leaves as it was. -/
@[simp] theorem Part.setActive_keeps (p : Part) (active : List NoticeEntry) :
    (Part.setActive p active).mem = p.mem ∧ (Part.setActive p active).regs = p.regs ∧
    (Part.setActive p active).pins = p.pins ∧ (Part.setActive p active).spi = p.spi ∧
    (Part.setActive p active).odo = p.odo ∧ (Part.setActive p active).trk = p.trk ∧
    (Part.setActive p active).res = p.res ∧ (Part.setActive p active).cmp = p.cmp ∧
    (Part.setActive p active).lineSeat = p.lineSeat ∧ (Part.setActive p active).lineEnd = p.lineEnd ∧
    (Part.setActive p active).lineDoor = p.lineDoor ∧ (Part.setActive p active).swp = p.swp ∧
    (Part.setActive p active).ed = p.ed ∧ (Part.setActive p active).rep = p.rep ∧
    (Part.setActive p active).free = p.free ∧ (Part.setActive p active).ntc.load = p.ntc.load := by
  simp [Part.setActive]

/-- What `Part.noteDropped` leaves as it was. -/
@[simp] theorem Part.noteDropped_keeps (p : Part) (id : Nat) :
    (Part.noteDropped p id).mem = p.mem ∧ (Part.noteDropped p id).regs = p.regs ∧
    (Part.noteDropped p id).pins = p.pins ∧ (Part.noteDropped p id).spi = p.spi ∧
    (Part.noteDropped p id).odo = p.odo ∧ (Part.noteDropped p id).trk = p.trk ∧ (Part.noteDropped p id).res = p.res ∧
    (Part.noteDropped p id).cmp = p.cmp ∧ (Part.noteDropped p id).lineSeat = p.lineSeat ∧
    (Part.noteDropped p id).lineEnd = p.lineEnd ∧ (Part.noteDropped p id).lineDoor = p.lineDoor ∧
    (Part.noteDropped p id).swp = p.swp ∧ (Part.noteDropped p id).ed = p.ed ∧ (Part.noteDropped p id).free = p.free ∧
    (Part.noteDropped p id).ntc.active = p.ntc.active ∧ (Part.noteDropped p id).ntc.load = p.ntc.load ∧
    (Part.noteDropped p id).rep.writing = p.rep.writing ∧
    (Part.noteDropped p id).rep.boundaries = p.rep.boundaries := by
  simp [Part.noteDropped]

/-- What `Part.activateFull` leaves as it was. -/
@[simp] theorem Part.activateFull_keeps (p : Part) (d : NoticeDef) :
    (Part.activateFull p d).mem = p.mem ∧ (Part.activateFull p d).regs = p.regs ∧
    (Part.activateFull p d).pins = p.pins ∧ (Part.activateFull p d).spi = p.spi ∧
    (Part.activateFull p d).odo = p.odo ∧ (Part.activateFull p d).trk = p.trk ∧ (Part.activateFull p d).res = p.res ∧
    (Part.activateFull p d).cmp = p.cmp ∧ (Part.activateFull p d).lineSeat = p.lineSeat ∧
    (Part.activateFull p d).lineEnd = p.lineEnd ∧ (Part.activateFull p d).lineDoor = p.lineDoor ∧
    (Part.activateFull p d).ed = p.ed ∧ (Part.activateFull p d).free = p.free ∧
    (Part.activateFull p d).ntc.load = p.ntc.load ∧ (Part.activateFull p d).swp.us = p.swp.us ∧
    (Part.activateFull p d).swp.ms = p.swp.ms ∧ (Part.activateFull p d).rep.writing = p.rep.writing ∧
    (Part.activateFull p d).rep.boundaries = p.rep.boundaries := by
  refine ⟨?_, ?_, ?_, ?_, ?_, ?_, ?_, ?_, ?_, ?_, ?_, ?_, ?_, ?_, ?_, ?_, ?_, ?_⟩ <;>
    (unfold Part.activateFull; (repeat' split) <;> simp)

/-- What `Part.activate` leaves as it was. -/
@[simp] theorem Part.activate_keeps (p : Part) (d : NoticeDef) :
    (Part.activate p d).mem = p.mem ∧ (Part.activate p d).regs = p.regs ∧ (Part.activate p d).pins = p.pins ∧
    (Part.activate p d).spi = p.spi ∧ (Part.activate p d).odo = p.odo ∧
    (Part.activate p d).trk = p.trk ∧ (Part.activate p d).res = p.res ∧ (Part.activate p d).cmp = p.cmp ∧
    (Part.activate p d).lineSeat = p.lineSeat ∧ (Part.activate p d).lineEnd = p.lineEnd ∧
    (Part.activate p d).lineDoor = p.lineDoor ∧ (Part.activate p d).ed = p.ed ∧ (Part.activate p d).free = p.free ∧
    (Part.activate p d).ntc.load = p.ntc.load ∧ (Part.activate p d).swp.us = p.swp.us ∧
    (Part.activate p d).swp.ms = p.swp.ms ∧ (Part.activate p d).rep.writing = p.rep.writing ∧
    (Part.activate p d).rep.boundaries = p.rep.boundaries := by
  refine ⟨?_, ?_, ?_, ?_, ?_, ?_, ?_, ?_, ?_, ?_, ?_, ?_, ?_, ?_, ?_, ?_, ?_, ?_⟩ <;>
    (unfold Part.activate; (repeat' split) <;> simp)

/-- What `Part.activateEach` leaves as it was. -/
@[simp] theorem Part.activateEach_keeps (p : Part) (ds : List NoticeDef) :
    (Part.activateEach p ds).mem = p.mem ∧ (Part.activateEach p ds).regs = p.regs ∧
    (Part.activateEach p ds).pins = p.pins ∧ (Part.activateEach p ds).spi = p.spi ∧
    (Part.activateEach p ds).odo = p.odo ∧ (Part.activateEach p ds).trk = p.trk ∧
    (Part.activateEach p ds).res = p.res ∧ (Part.activateEach p ds).cmp = p.cmp ∧
    (Part.activateEach p ds).lineSeat = p.lineSeat ∧ (Part.activateEach p ds).lineEnd = p.lineEnd ∧
    (Part.activateEach p ds).lineDoor = p.lineDoor ∧ (Part.activateEach p ds).ed = p.ed ∧
    (Part.activateEach p ds).free = p.free ∧ (Part.activateEach p ds).ntc.load = p.ntc.load ∧
    (Part.activateEach p ds).swp.us = p.swp.us ∧ (Part.activateEach p ds).swp.ms = p.swp.ms ∧
    (Part.activateEach p ds).rep.writing = p.rep.writing ∧
    (Part.activateEach p ds).rep.boundaries = p.rep.boundaries := by
  refine ⟨?_, ?_, ?_, ?_, ?_, ?_, ?_, ?_, ?_, ?_, ?_, ?_, ?_, ?_, ?_, ?_, ?_, ?_⟩
  · unfold Part.activateEach; exact foldl_keeps (fun q : Part => q.mem) _ (by intro q x; simp) _ _
  · unfold Part.activateEach; exact foldl_keeps (fun q : Part => q.regs) _ (by intro q x; simp) _ _
  · unfold Part.activateEach; exact foldl_keeps (fun q : Part => q.pins) _ (by intro q x; simp) _ _
  · unfold Part.activateEach; exact foldl_keeps (fun q : Part => q.spi) _ (by intro q x; simp) _ _
  · unfold Part.activateEach; exact foldl_keeps (fun q : Part => q.odo) _ (by intro q x; simp) _ _
  · unfold Part.activateEach; exact foldl_keeps (fun q : Part => q.trk) _ (by intro q x; simp) _ _
  · unfold Part.activateEach; exact foldl_keeps (fun q : Part => q.res) _ (by intro q x; simp) _ _
  · unfold Part.activateEach; exact foldl_keeps (fun q : Part => q.cmp) _ (by intro q x; simp) _ _
  · unfold Part.activateEach; exact foldl_keeps (fun q : Part => q.lineSeat) _ (by intro q x; simp) _ _
  · unfold Part.activateEach; exact foldl_keeps (fun q : Part => q.lineEnd) _ (by intro q x; simp) _ _
  · unfold Part.activateEach; exact foldl_keeps (fun q : Part => q.lineDoor) _ (by intro q x; simp) _ _
  · unfold Part.activateEach; exact foldl_keeps (fun q : Part => q.ed) _ (by intro q x; simp) _ _
  · unfold Part.activateEach; exact foldl_keeps (fun q : Part => q.free) _ (by intro q x; simp) _ _
  · unfold Part.activateEach; exact foldl_keeps (fun q : Part => q.ntc.load) _ (by intro q x; simp) _ _
  · unfold Part.activateEach; exact foldl_keeps (fun q : Part => q.swp.us) _ (by intro q x; simp) _ _
  · unfold Part.activateEach; exact foldl_keeps (fun q : Part => q.swp.ms) _ (by intro q x; simp) _ _
  · unfold Part.activateEach; exact foldl_keeps (fun q : Part => q.rep.writing) _ (by intro q x; simp) _ _
  · unfold Part.activateEach; exact foldl_keeps (fun q : Part => q.rep.boundaries) _ (by intro q x; simp) _ _

/-- What `Part.armTriggers` leaves as it was. -/
@[simp] theorem Part.armTriggers_keeps (p : Part) (n : Nat) (plan : List PendingTrigger) :
    (Part.armTriggers p n plan).mem = p.mem ∧ (Part.armTriggers p n plan).regs = p.regs ∧
    (Part.armTriggers p n plan).pins = p.pins ∧ (Part.armTriggers p n plan).spi = p.spi ∧
    (Part.armTriggers p n plan).res = p.res ∧ (Part.armTriggers p n plan).cmp = p.cmp ∧
    (Part.armTriggers p n plan).lineSeat = p.lineSeat ∧ (Part.armTriggers p n plan).lineEnd = p.lineEnd ∧
    (Part.armTriggers p n plan).lineDoor = p.lineDoor ∧ (Part.armTriggers p n plan).swp = p.swp ∧
    (Part.armTriggers p n plan).ed = p.ed ∧ (Part.armTriggers p n plan).rep = p.rep ∧
    (Part.armTriggers p n plan).free = p.free ∧ (Part.armTriggers p n plan).odo.legDistance = p.odo.legDistance ∧
    (Part.armTriggers p n plan).ntc.active = p.ntc.active ∧ (Part.armTriggers p n plan).trk.phase = p.trk.phase ∧
    (Part.armTriggers p n plan).trk.view = p.trk.view ∧ (Part.armTriggers p n plan).trk.load = p.trk.load ∧
    (Part.armTriggers p n plan).ntc.load = p.ntc.load ∧ (Part.armTriggers p n plan).trk.told = p.trk.told := by
  refine ⟨?_, ?_, ?_, ?_, ?_, ?_, ?_, ?_, ?_, ?_, ?_, ?_, ?_, ?_, ?_, ?_, ?_, ?_, ?_, ?_⟩
  · unfold Part.armTriggers; exact foldl_keeps (fun q : Part => q.mem) _ (by intro q x; simp) _ _
  · unfold Part.armTriggers; exact foldl_keeps (fun q : Part => q.regs) _ (by intro q x; simp) _ _
  · unfold Part.armTriggers; exact foldl_keeps (fun q : Part => q.pins) _ (by intro q x; simp) _ _
  · unfold Part.armTriggers; exact foldl_keeps (fun q : Part => q.spi) _ (by intro q x; simp) _ _
  · unfold Part.armTriggers; exact foldl_keeps (fun q : Part => q.res) _ (by intro q x; simp) _ _
  · unfold Part.armTriggers; exact foldl_keeps (fun q : Part => q.cmp) _ (by intro q x; simp) _ _
  · unfold Part.armTriggers; exact foldl_keeps (fun q : Part => q.lineSeat) _ (by intro q x; simp) _ _
  · unfold Part.armTriggers; exact foldl_keeps (fun q : Part => q.lineEnd) _ (by intro q x; simp) _ _
  · unfold Part.armTriggers; exact foldl_keeps (fun q : Part => q.lineDoor) _ (by intro q x; simp) _ _
  · unfold Part.armTriggers; exact foldl_keeps (fun q : Part => q.swp) _ (by intro q x; simp) _ _
  · unfold Part.armTriggers; exact foldl_keeps (fun q : Part => q.ed) _ (by intro q x; simp) _ _
  · unfold Part.armTriggers; exact foldl_keeps (fun q : Part => q.rep) _ (by intro q x; simp) _ _
  · unfold Part.armTriggers; exact foldl_keeps (fun q : Part => q.free) _ (by intro q x; simp) _ _
  · unfold Part.armTriggers; exact foldl_keeps (fun q : Part => q.odo.legDistance) _ (by intro q x; simp) _ _
  · unfold Part.armTriggers; exact foldl_keeps (fun q : Part => q.ntc.active) _ (by intro q x; simp) _ _
  · unfold Part.armTriggers; exact foldl_keeps (fun q : Part => q.trk.phase) _ (by intro q x; simp) _ _
  · unfold Part.armTriggers; exact foldl_keeps (fun q : Part => q.trk.view) _ (by intro q x; simp) _ _
  · unfold Part.armTriggers; exact foldl_keeps (fun q : Part => q.trk.load) _ (by intro q x; simp) _ _
  · unfold Part.armTriggers; exact foldl_keeps (fun q : Part => q.ntc.load) _ (by intro q x; simp) _ _
  · unfold Part.armTriggers; exact foldl_keeps (fun q : Part => q.trk.told) _ (by intro q x; simp) _ _

/-- What `Part.nextPlanGen` leaves as it was. -/
@[simp] theorem Part.nextPlanGen_keeps (p : Part) :
    (Part.nextPlanGen p).mem = p.mem ∧ (Part.nextPlanGen p).regs = p.regs ∧ (Part.nextPlanGen p).pins = p.pins ∧
    (Part.nextPlanGen p).spi = p.spi ∧ (Part.nextPlanGen p).trk = p.trk ∧
    (Part.nextPlanGen p).res = p.res ∧ (Part.nextPlanGen p).cmp = p.cmp ∧ (Part.nextPlanGen p).lineSeat = p.lineSeat ∧
    (Part.nextPlanGen p).lineEnd = p.lineEnd ∧ (Part.nextPlanGen p).lineDoor = p.lineDoor ∧
    (Part.nextPlanGen p).swp = p.swp ∧ (Part.nextPlanGen p).ed = p.ed ∧ (Part.nextPlanGen p).rep = p.rep ∧
    (Part.nextPlanGen p).free = p.free ∧ (Part.nextPlanGen p).odo.legDistance = p.odo.legDistance ∧
    (Part.nextPlanGen p).ntc.active = p.ntc.active ∧ (Part.nextPlanGen p).ntc.load = p.ntc.load := by
  simp [Part.nextPlanGen]

/-- What `Part.buildPlan` leaves as it was. -/
@[simp] theorem Part.buildPlan_keeps (p : Part) (k : Nat) (fired : List Nat) :
    (Part.buildPlan p k fired).mem = p.mem ∧ (Part.buildPlan p k fired).regs = p.regs ∧
    (Part.buildPlan p k fired).pins = p.pins ∧ (Part.buildPlan p k fired).spi = p.spi ∧
    (Part.buildPlan p k fired).res = p.res ∧ (Part.buildPlan p k fired).cmp = p.cmp ∧
    (Part.buildPlan p k fired).lineSeat = p.lineSeat ∧ (Part.buildPlan p k fired).lineEnd = p.lineEnd ∧
    (Part.buildPlan p k fired).lineDoor = p.lineDoor ∧ (Part.buildPlan p k fired).swp = p.swp ∧
    (Part.buildPlan p k fired).ed = p.ed ∧ (Part.buildPlan p k fired).rep = p.rep ∧
    (Part.buildPlan p k fired).free = p.free ∧ (Part.buildPlan p k fired).odo.legDistance = p.odo.legDistance ∧
    (Part.buildPlan p k fired).ntc.active = p.ntc.active ∧ (Part.buildPlan p k fired).trk.phase = p.trk.phase ∧
    (Part.buildPlan p k fired).trk.view = p.trk.view ∧ (Part.buildPlan p k fired).trk.load = p.trk.load ∧
    (Part.buildPlan p k fired).ntc.load = p.ntc.load ∧ (Part.buildPlan p k fired).trk.told = p.trk.told := by
  simp [Part.buildPlan]

/-- What `Part.dropPlan` leaves as it was. -/
@[simp] theorem Part.dropPlan_keeps (p : Part) :
    (Part.dropPlan p).mem = p.mem ∧ (Part.dropPlan p).regs = p.regs ∧ (Part.dropPlan p).pins = p.pins ∧
    (Part.dropPlan p).spi = p.spi ∧ (Part.dropPlan p).trk = p.trk ∧ (Part.dropPlan p).res = p.res ∧
    (Part.dropPlan p).cmp = p.cmp ∧ (Part.dropPlan p).lineSeat = p.lineSeat ∧ (Part.dropPlan p).lineEnd = p.lineEnd ∧
    (Part.dropPlan p).lineDoor = p.lineDoor ∧ (Part.dropPlan p).swp = p.swp ∧ (Part.dropPlan p).ed = p.ed ∧
    (Part.dropPlan p).rep = p.rep ∧ (Part.dropPlan p).free = p.free ∧
    (Part.dropPlan p).odo.legDistance = p.odo.legDistance ∧ (Part.dropPlan p).ntc.active = p.ntc.active ∧
    (Part.dropPlan p).ntc.load = p.ntc.load := by
  simp [Part.dropPlan]

/-- What `Part.planStep` leaves as it was. -/
@[simp] theorem Part.planStep_keeps (p : Part) (e : JourneyEvent) (before : Phase) :
    (Part.planStep p e before).mem = p.mem ∧ (Part.planStep p e before).regs = p.regs ∧
    (Part.planStep p e before).pins = p.pins ∧ (Part.planStep p e before).spi = p.spi ∧
    (Part.planStep p e before).res = p.res ∧ (Part.planStep p e before).cmp = p.cmp ∧
    (Part.planStep p e before).lineSeat = p.lineSeat ∧ (Part.planStep p e before).lineEnd = p.lineEnd ∧
    (Part.planStep p e before).lineDoor = p.lineDoor ∧ (Part.planStep p e before).swp = p.swp ∧
    (Part.planStep p e before).ed = p.ed ∧ (Part.planStep p e before).rep = p.rep ∧
    (Part.planStep p e before).free = p.free ∧ (Part.planStep p e before).odo.legDistance = p.odo.legDistance ∧
    (Part.planStep p e before).ntc.active = p.ntc.active ∧ (Part.planStep p e before).trk.phase = p.trk.phase ∧
    (Part.planStep p e before).trk.view = p.trk.view ∧ (Part.planStep p e before).trk.load = p.trk.load ∧
    (Part.planStep p e before).ntc.load = p.ntc.load ∧ (Part.planStep p e before).trk.told = p.trk.told := by
  refine ⟨?_, ?_, ?_, ?_, ?_, ?_, ?_, ?_, ?_, ?_, ?_, ?_, ?_, ?_, ?_, ?_, ?_, ?_, ?_, ?_⟩ <;>
    (unfold Part.planStep; (repeat' split) <;> simp)

/-- What `Part.reselect` leaves as it was. -/
@[simp] theorem Part.reselect_keeps (p : Part) :
    (Part.reselect p).mem = p.mem ∧ (Part.reselect p).regs = p.regs ∧ (Part.reselect p).pins = p.pins ∧
    (Part.reselect p).spi = p.spi ∧ (Part.reselect p).odo = p.odo ∧ (Part.reselect p).trk = p.trk ∧
    (Part.reselect p).res = p.res ∧ (Part.reselect p).lineSeat = p.lineSeat ∧ (Part.reselect p).lineEnd = p.lineEnd ∧
    (Part.reselect p).lineDoor = p.lineDoor ∧ (Part.reselect p).swp = p.swp ∧ (Part.reselect p).ed = p.ed ∧
    (Part.reselect p).rep = p.rep ∧ (Part.reselect p).free = p.free ∧ (Part.reselect p).ntc.active = p.ntc.active ∧
    (Part.reselect p).cmp.slots = p.cmp.slots ∧ (Part.reselect p).cmp.refreshSeat = p.cmp.refreshSeat ∧
    (Part.reselect p).cmp.refreshEnd = p.cmp.refreshEnd ∧ (Part.reselect p).cmp.refreshDoor = p.cmp.refreshDoor ∧
    (Part.reselect p).cmp.comp = p.cmp.comp ∧ (Part.reselect p).ntc.load = p.ntc.load := by
  simp [Part.reselect]

/-- What `Part.workJourney` leaves as it was. -/
@[simp] theorem Part.workJourney_keeps (p : Part) (e : JourneyEvent) (before : Phase) :
    (Part.workJourney p e before).mem = p.mem ∧ (Part.workJourney p e before).regs = p.regs ∧
    (Part.workJourney p e before).pins = p.pins ∧ (Part.workJourney p e before).spi = p.spi ∧
    (Part.workJourney p e before).res = p.res ∧ (Part.workJourney p e before).lineSeat = p.lineSeat ∧
    (Part.workJourney p e before).lineEnd = p.lineEnd ∧ (Part.workJourney p e before).lineDoor = p.lineDoor ∧
    (Part.workJourney p e before).ed = p.ed ∧ (Part.workJourney p e before).free = p.free ∧
    (Part.workJourney p e before).odo.legDistance = p.odo.legDistance ∧
    (Part.workJourney p e before).cmp.slots = p.cmp.slots ∧
    (Part.workJourney p e before).cmp.refreshSeat = p.cmp.refreshSeat ∧
    (Part.workJourney p e before).cmp.refreshEnd = p.cmp.refreshEnd ∧
    (Part.workJourney p e before).cmp.refreshDoor = p.cmp.refreshDoor ∧
    (Part.workJourney p e before).cmp.comp = p.cmp.comp ∧ (Part.workJourney p e before).trk.phase = p.trk.phase ∧
    (Part.workJourney p e before).trk.view = p.trk.view ∧ (Part.workJourney p e before).trk.load = p.trk.load ∧
    (Part.workJourney p e before).ntc.load = p.ntc.load ∧ (Part.workJourney p e before).swp.us = p.swp.us ∧
    (Part.workJourney p e before).swp.ms = p.swp.ms ∧ (Part.workJourney p e before).rep.writing = p.rep.writing ∧
    (Part.workJourney p e before).rep.boundaries = p.rep.boundaries ∧
    (Part.workJourney p e before).trk.told = p.trk.told := by
  unfold Part.workJourney; split <;> simp

/-- What `Part.noticeJourney` leaves as it was. -/
@[simp] theorem Part.noticeJourney_keeps (p : Part) :
    (Part.noticeJourney p).mem = p.mem ∧ (Part.noticeJourney p).regs = p.regs ∧ (Part.noticeJourney p).pins = p.pins ∧
    (Part.noticeJourney p).spi = p.spi ∧ (Part.noticeJourney p).res = p.res ∧
    (Part.noticeJourney p).lineSeat = p.lineSeat ∧ (Part.noticeJourney p).lineEnd = p.lineEnd ∧
    (Part.noticeJourney p).lineDoor = p.lineDoor ∧ (Part.noticeJourney p).ed = p.ed ∧
    (Part.noticeJourney p).free = p.free ∧ (Part.noticeJourney p).odo.legDistance = p.odo.legDistance ∧
    (Part.noticeJourney p).cmp.slots = p.cmp.slots ∧ (Part.noticeJourney p).cmp.refreshSeat = p.cmp.refreshSeat ∧
    (Part.noticeJourney p).cmp.refreshEnd = p.cmp.refreshEnd ∧
    (Part.noticeJourney p).cmp.refreshDoor = p.cmp.refreshDoor ∧ (Part.noticeJourney p).cmp.comp = p.cmp.comp ∧
    (Part.noticeJourney p).trk.phase = p.trk.phase ∧ (Part.noticeJourney p).trk.view = p.trk.view ∧
    (Part.noticeJourney p).trk.load = p.trk.load ∧ (Part.noticeJourney p).ntc.load = p.ntc.load ∧
    (Part.noticeJourney p).swp.us = p.swp.us ∧ (Part.noticeJourney p).swp.ms = p.swp.ms ∧
    (Part.noticeJourney p).rep.writing = p.rep.writing ∧ (Part.noticeJourney p).rep.boundaries = p.rep.boundaries ∧
    (Part.noticeJourney p).trk.told = p.trk.told := by
  unfold Part.noticeJourney; split <;> simp

/-- What `Part.fireTrigger` leaves as it was. -/
@[simp] theorem Part.fireTrigger_keeps (p : Part) (id : Nat) :
    (p.fireTrigger id).mem = p.mem ∧ (p.fireTrigger id).regs = p.regs ∧ (p.fireTrigger id).pins = p.pins ∧
    (p.fireTrigger id).spi = p.spi ∧ (p.fireTrigger id).odo = p.odo ∧ (p.fireTrigger id).trk = p.trk ∧
    (p.fireTrigger id).res = p.res ∧ (p.fireTrigger id).cmp = p.cmp ∧ (p.fireTrigger id).lineSeat = p.lineSeat ∧
    (p.fireTrigger id).lineEnd = p.lineEnd ∧ (p.fireTrigger id).lineDoor = p.lineDoor ∧
    (p.fireTrigger id).swp = p.swp ∧ (p.fireTrigger id).ed = p.ed ∧ (p.fireTrigger id).rep = p.rep ∧
    (p.fireTrigger id).free = p.free ∧ (p.fireTrigger id).ntc.active = p.ntc.active ∧
    (p.fireTrigger id).ntc.load = p.ntc.load ∧ (p.fireTrigger id).ntc.store = p.ntc.store ∧
    (p.fireTrigger id).ntc.plan = p.ntc.plan ∧ (p.fireTrigger id).ntc.planGen = p.ntc.planGen ∧
    (p.fireTrigger id).ntc.told = p.ntc.told ∧ (p.fireTrigger id).ntc.inbox = p.ntc.inbox := by
  simp [Part.fireTrigger]

/-- What `Part.activateId` leaves as it was. -/
@[simp] theorem Part.activateId_keeps (p : Part) (id : Nat) :
    (Part.activateId p id).mem = p.mem ∧ (Part.activateId p id).regs = p.regs ∧ (Part.activateId p id).pins = p.pins ∧
    (Part.activateId p id).spi = p.spi ∧ (Part.activateId p id).odo = p.odo ∧
    (Part.activateId p id).trk = p.trk ∧ (Part.activateId p id).res = p.res ∧ (Part.activateId p id).cmp = p.cmp ∧
    (Part.activateId p id).lineSeat = p.lineSeat ∧ (Part.activateId p id).lineEnd = p.lineEnd ∧
    (Part.activateId p id).lineDoor = p.lineDoor ∧ (Part.activateId p id).ed = p.ed ∧
    (Part.activateId p id).free = p.free ∧ (Part.activateId p id).ntc.load = p.ntc.load ∧
    (Part.activateId p id).swp.us = p.swp.us ∧ (Part.activateId p id).swp.ms = p.swp.ms ∧
    (Part.activateId p id).rep.writing = p.rep.writing ∧
    (Part.activateId p id).rep.boundaries = p.rep.boundaries := by
  unfold Part.activateId; split <;> simp

/-- What `Part.judgeNoticeMark` leaves as it was. -/
@[simp] theorem Part.judgeNoticeMark_keeps (p : Part) (id : Nat) (gen : Half16) :
    (Part.judgeNoticeMark p id gen).mem = p.mem ∧ (Part.judgeNoticeMark p id gen).regs = p.regs ∧
    (Part.judgeNoticeMark p id gen).pins = p.pins ∧ (Part.judgeNoticeMark p id gen).spi = p.spi ∧
    (Part.judgeNoticeMark p id gen).res = p.res ∧ (Part.judgeNoticeMark p id gen).lineSeat = p.lineSeat ∧
    (Part.judgeNoticeMark p id gen).lineEnd = p.lineEnd ∧ (Part.judgeNoticeMark p id gen).lineDoor = p.lineDoor ∧
    (Part.judgeNoticeMark p id gen).ed = p.ed ∧ (Part.judgeNoticeMark p id gen).free = p.free ∧
    (Part.judgeNoticeMark p id gen).odo.legDistance = p.odo.legDistance ∧
    (Part.judgeNoticeMark p id gen).cmp.slots = p.cmp.slots ∧
    (Part.judgeNoticeMark p id gen).cmp.refreshSeat = p.cmp.refreshSeat ∧
    (Part.judgeNoticeMark p id gen).cmp.refreshEnd = p.cmp.refreshEnd ∧
    (Part.judgeNoticeMark p id gen).cmp.refreshDoor = p.cmp.refreshDoor ∧
    (Part.judgeNoticeMark p id gen).cmp.comp = p.cmp.comp ∧ (Part.judgeNoticeMark p id gen).trk.phase = p.trk.phase ∧
    (Part.judgeNoticeMark p id gen).trk.view = p.trk.view ∧ (Part.judgeNoticeMark p id gen).trk.load = p.trk.load ∧
    (Part.judgeNoticeMark p id gen).ntc.load = p.ntc.load ∧ (Part.judgeNoticeMark p id gen).swp.us = p.swp.us ∧
    (Part.judgeNoticeMark p id gen).swp.ms = p.swp.ms ∧ (Part.judgeNoticeMark p id gen).rep.writing = p.rep.writing ∧
    (Part.judgeNoticeMark p id gen).rep.boundaries = p.rep.boundaries ∧
    (Part.judgeNoticeMark p id gen).trk.told = p.trk.told := by
  refine ⟨?_, ?_, ?_, ?_, ?_, ?_, ?_, ?_, ?_, ?_, ?_, ?_, ?_, ?_, ?_, ?_, ?_, ?_, ?_, ?_, ?_, ?_, ?_, ?_, ?_⟩ <;>
    (unfold Part.judgeNoticeMark; (repeat' split) <;> simp)

/-- What `Part.takeNoticeMark` leaves as it was. -/
@[simp] theorem Part.takeNoticeMark_keeps (p : Part) :
    (Part.takeNoticeMark p).mem = p.mem ∧ (Part.takeNoticeMark p).regs = p.regs ∧
    (Part.takeNoticeMark p).pins = p.pins ∧ (Part.takeNoticeMark p).spi = p.spi ∧
    (Part.takeNoticeMark p).res = p.res ∧ (Part.takeNoticeMark p).lineSeat = p.lineSeat ∧
    (Part.takeNoticeMark p).lineEnd = p.lineEnd ∧ (Part.takeNoticeMark p).lineDoor = p.lineDoor ∧
    (Part.takeNoticeMark p).ed = p.ed ∧ (Part.takeNoticeMark p).free = p.free ∧
    (Part.takeNoticeMark p).odo.legDistance = p.odo.legDistance ∧ (Part.takeNoticeMark p).cmp.slots = p.cmp.slots ∧
    (Part.takeNoticeMark p).cmp.refreshSeat = p.cmp.refreshSeat ∧
    (Part.takeNoticeMark p).cmp.refreshEnd = p.cmp.refreshEnd ∧
    (Part.takeNoticeMark p).cmp.refreshDoor = p.cmp.refreshDoor ∧ (Part.takeNoticeMark p).cmp.comp = p.cmp.comp ∧
    (Part.takeNoticeMark p).trk.phase = p.trk.phase ∧ (Part.takeNoticeMark p).trk.view = p.trk.view ∧
    (Part.takeNoticeMark p).trk.load = p.trk.load ∧ (Part.takeNoticeMark p).ntc.load = p.ntc.load ∧
    (Part.takeNoticeMark p).swp.us = p.swp.us ∧ (Part.takeNoticeMark p).swp.ms = p.swp.ms ∧
    (Part.takeNoticeMark p).rep.writing = p.rep.writing ∧ (Part.takeNoticeMark p).rep.boundaries = p.rep.boundaries ∧
    (Part.takeNoticeMark p).trk.told = p.trk.told := by
  unfold Part.takeNoticeMark; split <;> simp

/-- What `Part.noticeProfile` leaves as it was. -/
@[simp] theorem Part.noticeProfile_keeps (p : Part) :
    (Part.noticeProfile p).mem = p.mem ∧ (Part.noticeProfile p).regs = p.regs ∧ (Part.noticeProfile p).pins = p.pins ∧
    (Part.noticeProfile p).spi = p.spi ∧ (Part.noticeProfile p).odo = p.odo ∧
    (Part.noticeProfile p).trk = p.trk ∧ (Part.noticeProfile p).res = p.res ∧ (Part.noticeProfile p).cmp = p.cmp ∧
    (Part.noticeProfile p).lineSeat = p.lineSeat ∧ (Part.noticeProfile p).lineEnd = p.lineEnd ∧
    (Part.noticeProfile p).lineDoor = p.lineDoor ∧ (Part.noticeProfile p).swp = p.swp ∧
    (Part.noticeProfile p).ed = p.ed ∧ (Part.noticeProfile p).rep = p.rep ∧ (Part.noticeProfile p).free = p.free ∧
    (Part.noticeProfile p).ntc.active = p.ntc.active ∧ (Part.noticeProfile p).ntc.load = p.ntc.load := by
  unfold Part.noticeProfile; split <;> simp

/-- What `Part.rebuildPlan` leaves as it was. -/
@[simp] theorem Part.rebuildPlan_keeps (p : Part) :
    (Part.rebuildPlan p).mem = p.mem ∧ (Part.rebuildPlan p).regs = p.regs ∧ (Part.rebuildPlan p).pins = p.pins ∧
    (Part.rebuildPlan p).spi = p.spi ∧ (Part.rebuildPlan p).res = p.res ∧
    (Part.rebuildPlan p).cmp = p.cmp ∧ (Part.rebuildPlan p).lineSeat = p.lineSeat ∧
    (Part.rebuildPlan p).lineEnd = p.lineEnd ∧ (Part.rebuildPlan p).lineDoor = p.lineDoor ∧
    (Part.rebuildPlan p).swp = p.swp ∧ (Part.rebuildPlan p).ed = p.ed ∧ (Part.rebuildPlan p).rep = p.rep ∧
    (Part.rebuildPlan p).free = p.free ∧ (Part.rebuildPlan p).odo.legDistance = p.odo.legDistance ∧
    (Part.rebuildPlan p).ntc.active = p.ntc.active ∧ (Part.rebuildPlan p).trk.phase = p.trk.phase ∧
    (Part.rebuildPlan p).trk.view = p.trk.view ∧ (Part.rebuildPlan p).trk.load = p.trk.load ∧
    (Part.rebuildPlan p).ntc.load = p.ntc.load ∧ (Part.rebuildPlan p).trk.told = p.trk.told := by
  unfold Part.rebuildPlan; split <;> simp

/-- What `Part.newNotices` leaves as it was. -/
@[simp] theorem Part.newNotices_keeps (p : Part) (store : List NoticeDef) :
    (Part.newNotices p store).mem = p.mem ∧ (Part.newNotices p store).regs = p.regs ∧
    (Part.newNotices p store).pins = p.pins ∧ (Part.newNotices p store).spi = p.spi ∧
    (Part.newNotices p store).res = p.res ∧ (Part.newNotices p store).lineSeat = p.lineSeat ∧
    (Part.newNotices p store).lineEnd = p.lineEnd ∧ (Part.newNotices p store).lineDoor = p.lineDoor ∧
    (Part.newNotices p store).swp = p.swp ∧ (Part.newNotices p store).ed = p.ed ∧
    (Part.newNotices p store).rep = p.rep ∧ (Part.newNotices p store).free = p.free ∧
    (Part.newNotices p store).odo.legDistance = p.odo.legDistance ∧
    (Part.newNotices p store).cmp.slots = p.cmp.slots ∧
    (Part.newNotices p store).cmp.refreshSeat = p.cmp.refreshSeat ∧
    (Part.newNotices p store).cmp.refreshEnd = p.cmp.refreshEnd ∧
    (Part.newNotices p store).cmp.refreshDoor = p.cmp.refreshDoor ∧ (Part.newNotices p store).cmp.comp = p.cmp.comp ∧
    (Part.newNotices p store).trk.phase = p.trk.phase ∧ (Part.newNotices p store).trk.view = p.trk.view ∧
    (Part.newNotices p store).trk.load = p.trk.load ∧ (Part.newNotices p store).ntc.load = p.ntc.load ∧
    (Part.newNotices p store).trk.told = p.trk.told := by
  simp [Part.newNotices]

/-- What `Part.completeNoticeLoad` leaves as it was. -/
@[simp] theorem Part.completeNoticeLoad_keeps (p : Part) (bus : Bus) :
    (Part.completeNoticeLoad p bus).regs = p.regs ∧ (Part.completeNoticeLoad p bus).pins = p.pins ∧
    (Part.completeNoticeLoad p bus).spi = p.spi ∧ (Part.completeNoticeLoad p bus).res = p.res ∧
    (Part.completeNoticeLoad p bus).lineSeat = p.lineSeat ∧ (Part.completeNoticeLoad p bus).lineEnd = p.lineEnd ∧
    (Part.completeNoticeLoad p bus).lineDoor = p.lineDoor ∧ (Part.completeNoticeLoad p bus).swp = p.swp ∧
    (Part.completeNoticeLoad p bus).free = p.free ∧
    (Part.completeNoticeLoad p bus).odo.legDistance = p.odo.legDistance ∧
    (Part.completeNoticeLoad p bus).ed.take = p.ed.take ∧ (Part.completeNoticeLoad p bus).ed.seq = p.ed.seq ∧
    (Part.completeNoticeLoad p bus).ed.boundary = p.ed.boundary ∧ (Part.completeNoticeLoad p bus).ed.run = p.ed.run ∧
    (Part.completeNoticeLoad p bus).ed.owed = p.ed.owed ∧ (Part.completeNoticeLoad p bus).cmp.slots = p.cmp.slots ∧
    (Part.completeNoticeLoad p bus).cmp.refreshSeat = p.cmp.refreshSeat ∧
    (Part.completeNoticeLoad p bus).cmp.refreshEnd = p.cmp.refreshEnd ∧
    (Part.completeNoticeLoad p bus).cmp.refreshDoor = p.cmp.refreshDoor ∧
    (Part.completeNoticeLoad p bus).cmp.comp = p.cmp.comp ∧ (Part.completeNoticeLoad p bus).trk.phase = p.trk.phase ∧
    (Part.completeNoticeLoad p bus).trk.view = p.trk.view ∧ (Part.completeNoticeLoad p bus).trk.load = p.trk.load ∧
    (Part.completeNoticeLoad p bus).rep.writing = p.rep.writing ∧
    (Part.completeNoticeLoad p bus).rep.boundaries = p.rep.boundaries ∧
    (Part.completeNoticeLoad p bus).trk.told = p.trk.told := by
  refine ⟨?_, ?_, ?_, ?_, ?_, ?_, ?_, ?_, ?_, ?_, ?_, ?_, ?_, ?_, ?_, ?_, ?_, ?_, ?_, ?_, ?_, ?_, ?_, ?_, ?_, ?_⟩ <;>
    (unfold Part.completeNoticeLoad; dsimp only; (repeat' split) <;> simp)

end Sys2Proof.Machine
end

