-- ==== Sys2Proof/Laws/FrameDisplay.lean ====
section
/-! SUPPORT. Frames: what the operations of the composer, the lines and the sweep timer leave as it was. -/

namespace Sys2Proof.Machine

/-- What `Part.markPanel` leaves as it was. -/
@[simp] theorem Part.markPanel_keeps (p : Part) (l : Line) (a : Nat) :
    (Part.markPanel p l a).mem = p.mem ∧ (Part.markPanel p l a).regs = p.regs ∧ (Part.markPanel p l a).pins = p.pins ∧
    (Part.markPanel p l a).spi = p.spi ∧ (Part.markPanel p l a).odo = p.odo ∧
    (Part.markPanel p l a).trk = p.trk ∧ (Part.markPanel p l a).res = p.res ∧ (Part.markPanel p l a).ntc = p.ntc ∧
    (Part.markPanel p l a).lineSeat = p.lineSeat ∧ (Part.markPanel p l a).lineEnd = p.lineEnd ∧
    (Part.markPanel p l a).lineDoor = p.lineDoor ∧ (Part.markPanel p l a).swp = p.swp ∧
    (Part.markPanel p l a).ed = p.ed ∧ (Part.markPanel p l a).rep = p.rep ∧ (Part.markPanel p l a).free = p.free := by
  refine ⟨?_, ?_, ?_, ?_, ?_, ?_, ?_, ?_, ?_, ?_, ?_, ?_, ?_, ?_, ?_⟩ <;>
    (unfold Part.markPanel; (repeat' split) <;> simp)

/-- What `Part.markWhere` leaves as it was. -/
@[simp] theorem Part.markWhere_keeps (p : Part) (test : PanelDraw → Bool) :
    (Part.markWhere p test).mem = p.mem ∧ (Part.markWhere p test).regs = p.regs ∧
    (Part.markWhere p test).pins = p.pins ∧ (Part.markWhere p test).spi = p.spi ∧
    (Part.markWhere p test).odo = p.odo ∧ (Part.markWhere p test).trk = p.trk ∧ (Part.markWhere p test).res = p.res ∧
    (Part.markWhere p test).ntc = p.ntc ∧ (Part.markWhere p test).lineSeat = p.lineSeat ∧
    (Part.markWhere p test).lineEnd = p.lineEnd ∧ (Part.markWhere p test).lineDoor = p.lineDoor ∧
    (Part.markWhere p test).swp = p.swp ∧ (Part.markWhere p test).ed = p.ed ∧ (Part.markWhere p test).rep = p.rep ∧
    (Part.markWhere p test).free = p.free := by
  refine ⟨?_, ?_, ?_, ?_, ?_, ?_, ?_, ?_, ?_, ?_, ?_, ?_, ?_, ?_, ?_⟩
  · unfold Part.markWhere; exact foldl_keeps (fun q : Part => q.mem) _ (by intro q x; simp) _ _
  · unfold Part.markWhere; exact foldl_keeps (fun q : Part => q.regs) _ (by intro q x; simp) _ _
  · unfold Part.markWhere; exact foldl_keeps (fun q : Part => q.pins) _ (by intro q x; simp) _ _
  · unfold Part.markWhere; exact foldl_keeps (fun q : Part => q.spi) _ (by intro q x; simp) _ _
  · unfold Part.markWhere; exact foldl_keeps (fun q : Part => q.odo) _ (by intro q x; simp) _ _
  · unfold Part.markWhere; exact foldl_keeps (fun q : Part => q.trk) _ (by intro q x; simp) _ _
  · unfold Part.markWhere; exact foldl_keeps (fun q : Part => q.res) _ (by intro q x; simp) _ _
  · unfold Part.markWhere; exact foldl_keeps (fun q : Part => q.ntc) _ (by intro q x; simp) _ _
  · unfold Part.markWhere; exact foldl_keeps (fun q : Part => q.lineSeat) _ (by intro q x; simp) _ _
  · unfold Part.markWhere; exact foldl_keeps (fun q : Part => q.lineEnd) _ (by intro q x; simp) _ _
  · unfold Part.markWhere; exact foldl_keeps (fun q : Part => q.lineDoor) _ (by intro q x; simp) _ _
  · unfold Part.markWhere; exact foldl_keeps (fun q : Part => q.swp) _ (by intro q x; simp) _ _
  · unfold Part.markWhere; exact foldl_keeps (fun q : Part => q.ed) _ (by intro q x; simp) _ _
  · unfold Part.markWhere; exact foldl_keeps (fun q : Part => q.rep) _ (by intro q x; simp) _ _
  · unfold Part.markWhere; exact foldl_keeps (fun q : Part => q.free) _ (by intro q x; simp) _ _

/-- What `Part.composerJourney` leaves as it was. -/
@[simp] theorem Part.composerJourney_keeps (p : Part) :
    (Part.composerJourney p).mem = p.mem ∧ (Part.composerJourney p).regs = p.regs ∧
    (Part.composerJourney p).pins = p.pins ∧ (Part.composerJourney p).spi = p.spi ∧
    (Part.composerJourney p).odo = p.odo ∧ (Part.composerJourney p).trk = p.trk ∧
    (Part.composerJourney p).res = p.res ∧ (Part.composerJourney p).ntc = p.ntc ∧
    (Part.composerJourney p).lineSeat = p.lineSeat ∧ (Part.composerJourney p).lineEnd = p.lineEnd ∧
    (Part.composerJourney p).lineDoor = p.lineDoor ∧ (Part.composerJourney p).swp = p.swp ∧
    (Part.composerJourney p).ed = p.ed ∧ (Part.composerJourney p).rep = p.rep ∧
    (Part.composerJourney p).free = p.free := by
  unfold Part.composerJourney; split <;> simp

/-- What `Part.composerProgress` leaves as it was. -/
@[simp] theorem Part.composerProgress_keeps (p : Part) :
    (Part.composerProgress p).mem = p.mem ∧ (Part.composerProgress p).regs = p.regs ∧
    (Part.composerProgress p).pins = p.pins ∧ (Part.composerProgress p).spi = p.spi ∧
    (Part.composerProgress p).odo = p.odo ∧ (Part.composerProgress p).trk = p.trk ∧
    (Part.composerProgress p).res = p.res ∧ (Part.composerProgress p).ntc = p.ntc ∧
    (Part.composerProgress p).lineSeat = p.lineSeat ∧ (Part.composerProgress p).lineEnd = p.lineEnd ∧
    (Part.composerProgress p).lineDoor = p.lineDoor ∧ (Part.composerProgress p).swp = p.swp ∧
    (Part.composerProgress p).ed = p.ed ∧ (Part.composerProgress p).rep = p.rep ∧
    (Part.composerProgress p).free = p.free := by
  unfold Part.composerProgress; split <;> simp

/-- What `Part.composerModule` leaves as it was. -/
@[simp] theorem Part.composerModule_keeps (p : Part) :
    (Part.composerModule p).mem = p.mem ∧ (Part.composerModule p).regs = p.regs ∧
    (Part.composerModule p).pins = p.pins ∧ (Part.composerModule p).spi = p.spi ∧
    (Part.composerModule p).odo = p.odo ∧ (Part.composerModule p).trk = p.trk ∧ (Part.composerModule p).res = p.res ∧
    (Part.composerModule p).ntc = p.ntc ∧ (Part.composerModule p).lineSeat = p.lineSeat ∧
    (Part.composerModule p).lineEnd = p.lineEnd ∧ (Part.composerModule p).lineDoor = p.lineDoor ∧
    (Part.composerModule p).swp = p.swp ∧ (Part.composerModule p).ed = p.ed ∧ (Part.composerModule p).rep = p.rep ∧
    (Part.composerModule p).free = p.free := by
  unfold Part.composerModule; split <;> simp

/-- What `Part.composerSelection` leaves as it was. -/
@[simp] theorem Part.composerSelection_keeps (p : Part) :
    (Part.composerSelection p).mem = p.mem ∧ (Part.composerSelection p).regs = p.regs ∧
    (Part.composerSelection p).pins = p.pins ∧ (Part.composerSelection p).spi = p.spi ∧
    (Part.composerSelection p).odo = p.odo ∧ (Part.composerSelection p).trk = p.trk ∧
    (Part.composerSelection p).res = p.res ∧ (Part.composerSelection p).ntc = p.ntc ∧
    (Part.composerSelection p).lineSeat = p.lineSeat ∧ (Part.composerSelection p).lineEnd = p.lineEnd ∧
    (Part.composerSelection p).lineDoor = p.lineDoor ∧ (Part.composerSelection p).swp = p.swp ∧
    (Part.composerSelection p).ed = p.ed ∧ (Part.composerSelection p).rep = p.rep ∧
    (Part.composerSelection p).free = p.free := by
  unfold Part.composerSelection; split <;> simp

/-- What `Part.composerBoundary` leaves as it was. -/
@[simp] theorem Part.composerBoundary_keeps (p : Part) :
    (Part.composerBoundary p).mem = p.mem ∧ (Part.composerBoundary p).regs = p.regs ∧
    (Part.composerBoundary p).pins = p.pins ∧ (Part.composerBoundary p).spi = p.spi ∧
    (Part.composerBoundary p).odo = p.odo ∧ (Part.composerBoundary p).trk = p.trk ∧
    (Part.composerBoundary p).res = p.res ∧ (Part.composerBoundary p).ntc = p.ntc ∧
    (Part.composerBoundary p).lineSeat = p.lineSeat ∧ (Part.composerBoundary p).lineEnd = p.lineEnd ∧
    (Part.composerBoundary p).lineDoor = p.lineDoor ∧ (Part.composerBoundary p).swp = p.swp ∧
    (Part.composerBoundary p).ed = p.ed ∧ (Part.composerBoundary p).rep = p.rep ∧
    (Part.composerBoundary p).free = p.free := by
  refine ⟨?_, ?_, ?_, ?_, ?_, ?_, ?_, ?_, ?_, ?_, ?_, ?_, ?_, ?_, ?_⟩ <;>
    (unfold Part.composerBoundary; dsimp only; (repeat' split) <;> simp)

/-- What `Part.composerOnline` leaves as it was. -/
@[simp] theorem Part.composerOnline_keeps (p : Part) :
    (Part.composerOnline p).mem = p.mem ∧ (Part.composerOnline p).regs = p.regs ∧
    (Part.composerOnline p).pins = p.pins ∧ (Part.composerOnline p).spi = p.spi ∧
    (Part.composerOnline p).odo = p.odo ∧ (Part.composerOnline p).trk = p.trk ∧ (Part.composerOnline p).res = p.res ∧
    (Part.composerOnline p).ntc = p.ntc ∧ (Part.composerOnline p).lineSeat = p.lineSeat ∧
    (Part.composerOnline p).lineEnd = p.lineEnd ∧ (Part.composerOnline p).lineDoor = p.lineDoor ∧
    (Part.composerOnline p).swp = p.swp ∧ (Part.composerOnline p).ed = p.ed ∧ (Part.composerOnline p).rep = p.rep ∧
    (Part.composerOnline p).free = p.free := by
  unfold Part.composerOnline; split <;> simp

/-- What `Part.contentSwitched` leaves as it was. -/
@[simp] theorem Part.contentSwitched_keeps (p : Part) :
    (Part.contentSwitched p).mem = p.mem ∧ (Part.contentSwitched p).regs = p.regs ∧
    (Part.contentSwitched p).pins = p.pins ∧ (Part.contentSwitched p).spi = p.spi ∧
    (Part.contentSwitched p).odo = p.odo ∧ (Part.contentSwitched p).trk = p.trk ∧
    (Part.contentSwitched p).res = p.res ∧ (Part.contentSwitched p).ntc = p.ntc ∧
    (Part.contentSwitched p).lineSeat = p.lineSeat ∧ (Part.contentSwitched p).lineEnd = p.lineEnd ∧
    (Part.contentSwitched p).lineDoor = p.lineDoor ∧ (Part.contentSwitched p).swp = p.swp ∧
    (Part.contentSwitched p).ed = p.ed ∧ (Part.contentSwitched p).rep = p.rep ∧
    (Part.contentSwitched p).free = p.free := by
  simp [Part.contentSwitched]

/-- What `Part.dropComposition` leaves as it was. -/
@[simp] theorem Part.dropComposition_keeps (p : Part) :
    (Part.dropComposition p).mem = p.mem ∧ (Part.dropComposition p).regs = p.regs ∧
    (Part.dropComposition p).pins = p.pins ∧ (Part.dropComposition p).spi = p.spi ∧
    (Part.dropComposition p).odo = p.odo ∧ (Part.dropComposition p).trk = p.trk ∧
    (Part.dropComposition p).res = p.res ∧ (Part.dropComposition p).ntc = p.ntc ∧
    (Part.dropComposition p).lineSeat = p.lineSeat ∧ (Part.dropComposition p).lineEnd = p.lineEnd ∧
    (Part.dropComposition p).lineDoor = p.lineDoor ∧ (Part.dropComposition p).swp = p.swp ∧
    (Part.dropComposition p).rep = p.rep ∧ (Part.dropComposition p).free = p.free ∧
    (Part.dropComposition p).ed.take = p.ed.take ∧ (Part.dropComposition p).ed.seq = p.ed.seq ∧
    (Part.dropComposition p).ed.boundary = p.ed.boundary ∧ (Part.dropComposition p).ed.run = p.ed.run ∧
    (Part.dropComposition p).ed.owed = p.ed.owed ∧ (Part.dropComposition p).cmp.refreshSeat = p.cmp.refreshSeat ∧
    (Part.dropComposition p).cmp.refreshEnd = p.cmp.refreshEnd ∧
    (Part.dropComposition p).cmp.refreshDoor = p.cmp.refreshDoor ∧
    (Part.dropComposition p).ed.profile = p.ed.profile ∧ (Part.dropComposition p).ed.stops = p.ed.stops ∧
    (Part.dropComposition p).ed.reservations = p.ed.reservations ∧
    (Part.dropComposition p).ed.notices = p.ed.notices := by
  refine ⟨?_, ?_, ?_, ?_, ?_, ?_, ?_, ?_, ?_, ?_, ?_, ?_, ?_, ?_, ?_, ?_, ?_, ?_, ?_, ?_, ?_, ?_, ?_, ?_, ?_, ?_⟩ <;>
    (unfold Part.dropComposition; (repeat' split) <;> rfl)

/-- What `Part.dropCompositionIf` leaves as it was. -/
@[simp] theorem Part.dropCompositionIf_keeps (p : Part) (test : Line → Nat → Bool) :
    (Part.dropCompositionIf p test).mem = p.mem ∧ (Part.dropCompositionIf p test).regs = p.regs ∧
    (Part.dropCompositionIf p test).pins = p.pins ∧ (Part.dropCompositionIf p test).spi = p.spi ∧
    (Part.dropCompositionIf p test).odo = p.odo ∧ (Part.dropCompositionIf p test).trk = p.trk ∧
    (Part.dropCompositionIf p test).res = p.res ∧ (Part.dropCompositionIf p test).ntc = p.ntc ∧
    (Part.dropCompositionIf p test).lineSeat = p.lineSeat ∧ (Part.dropCompositionIf p test).lineEnd = p.lineEnd ∧
    (Part.dropCompositionIf p test).lineDoor = p.lineDoor ∧ (Part.dropCompositionIf p test).swp = p.swp ∧
    (Part.dropCompositionIf p test).rep = p.rep ∧ (Part.dropCompositionIf p test).free = p.free ∧
    (Part.dropCompositionIf p test).ed.take = p.ed.take ∧ (Part.dropCompositionIf p test).ed.seq = p.ed.seq ∧
    (Part.dropCompositionIf p test).ed.boundary = p.ed.boundary ∧ (Part.dropCompositionIf p test).ed.run = p.ed.run ∧
    (Part.dropCompositionIf p test).ed.owed = p.ed.owed ∧
    (Part.dropCompositionIf p test).cmp.refreshSeat = p.cmp.refreshSeat ∧
    (Part.dropCompositionIf p test).cmp.refreshEnd = p.cmp.refreshEnd ∧
    (Part.dropCompositionIf p test).cmp.refreshDoor = p.cmp.refreshDoor ∧
    (Part.dropCompositionIf p test).ed.profile = p.ed.profile ∧
    (Part.dropCompositionIf p test).ed.stops = p.ed.stops ∧
    (Part.dropCompositionIf p test).ed.reservations = p.ed.reservations ∧
    (Part.dropCompositionIf p test).ed.notices = p.ed.notices := by
  refine ⟨?_, ?_, ?_, ?_, ?_, ?_, ?_, ?_, ?_, ?_, ?_, ?_, ?_, ?_, ?_, ?_, ?_, ?_, ?_, ?_, ?_, ?_, ?_, ?_, ?_, ?_⟩ <;>
    (unfold Part.dropCompositionIf; (repeat' split) <;> simp)

/-- What `Part.releasePanels` leaves as it was. -/
@[simp] theorem Part.releasePanels_keeps (p : Part) (test : Line → Nat → Bool) :
    (Part.releasePanels p test).mem = p.mem ∧ (Part.releasePanels p test).regs = p.regs ∧
    (Part.releasePanels p test).pins = p.pins ∧ (Part.releasePanels p test).spi = p.spi ∧
    (Part.releasePanels p test).odo = p.odo ∧ (Part.releasePanels p test).trk = p.trk ∧
    (Part.releasePanels p test).res = p.res ∧ (Part.releasePanels p test).ntc = p.ntc ∧
    (Part.releasePanels p test).lineSeat = p.lineSeat ∧ (Part.releasePanels p test).lineEnd = p.lineEnd ∧
    (Part.releasePanels p test).lineDoor = p.lineDoor ∧ (Part.releasePanels p test).swp = p.swp ∧
    (Part.releasePanels p test).rep = p.rep ∧ (Part.releasePanels p test).free = p.free ∧
    (Part.releasePanels p test).ed.take = p.ed.take ∧ (Part.releasePanels p test).ed.seq = p.ed.seq ∧
    (Part.releasePanels p test).ed.boundary = p.ed.boundary ∧ (Part.releasePanels p test).ed.run = p.ed.run ∧
    (Part.releasePanels p test).ed.owed = p.ed.owed ∧ (Part.releasePanels p test).ed.profile = p.ed.profile ∧
    (Part.releasePanels p test).ed.stops = p.ed.stops ∧
    (Part.releasePanels p test).ed.reservations = p.ed.reservations ∧
    (Part.releasePanels p test).ed.notices = p.ed.notices := by
  simp [Part.releasePanels]

/-- What `Part.composerOffline` leaves as it was. -/
@[simp] theorem Part.composerOffline_keeps (p : Part) :
    (Part.composerOffline p).mem = p.mem ∧ (Part.composerOffline p).regs = p.regs ∧
    (Part.composerOffline p).pins = p.pins ∧ (Part.composerOffline p).spi = p.spi ∧
    (Part.composerOffline p).odo = p.odo ∧ (Part.composerOffline p).trk = p.trk ∧
    (Part.composerOffline p).res = p.res ∧ (Part.composerOffline p).ntc = p.ntc ∧
    (Part.composerOffline p).lineSeat = p.lineSeat ∧ (Part.composerOffline p).lineEnd = p.lineEnd ∧
    (Part.composerOffline p).lineDoor = p.lineDoor ∧ (Part.composerOffline p).swp = p.swp ∧
    (Part.composerOffline p).rep = p.rep ∧ (Part.composerOffline p).free = p.free ∧
    (Part.composerOffline p).ed.take = p.ed.take ∧ (Part.composerOffline p).ed.seq = p.ed.seq ∧
    (Part.composerOffline p).ed.boundary = p.ed.boundary ∧ (Part.composerOffline p).ed.run = p.ed.run ∧
    (Part.composerOffline p).ed.owed = p.ed.owed ∧ (Part.composerOffline p).ed.profile = p.ed.profile ∧
    (Part.composerOffline p).ed.stops = p.ed.stops ∧ (Part.composerOffline p).ed.reservations = p.ed.reservations ∧
    (Part.composerOffline p).ed.notices = p.ed.notices := by
  unfold Part.composerOffline; split <;> simp

/-- What `Part.stopComposition` leaves as it was. -/
@[simp] theorem Part.stopComposition_keeps (p : Part) :
    (Part.stopComposition p).mem = p.mem ∧ (Part.stopComposition p).regs = p.regs ∧
    (Part.stopComposition p).pins = p.pins ∧ (Part.stopComposition p).spi = p.spi ∧
    (Part.stopComposition p).odo = p.odo ∧ (Part.stopComposition p).trk = p.trk ∧
    (Part.stopComposition p).res = p.res ∧ (Part.stopComposition p).ntc = p.ntc ∧
    (Part.stopComposition p).lineSeat = p.lineSeat ∧ (Part.stopComposition p).lineEnd = p.lineEnd ∧
    (Part.stopComposition p).lineDoor = p.lineDoor ∧ (Part.stopComposition p).swp = p.swp ∧
    (Part.stopComposition p).rep = p.rep ∧ (Part.stopComposition p).free = p.free ∧
    (Part.stopComposition p).ed.take = p.ed.take ∧ (Part.stopComposition p).ed.seq = p.ed.seq ∧
    (Part.stopComposition p).ed.boundary = p.ed.boundary ∧ (Part.stopComposition p).ed.run = p.ed.run ∧
    (Part.stopComposition p).ed.owed = p.ed.owed ∧ (Part.stopComposition p).ed.profile = p.ed.profile ∧
    (Part.stopComposition p).ed.stops = p.ed.stops ∧ (Part.stopComposition p).ed.reservations = p.ed.reservations ∧
    (Part.stopComposition p).ed.notices = p.ed.notices := by
  unfold Part.stopComposition; split <;> simp

/-- What `Part.composerProfile` leaves as it was. -/
@[simp] theorem Part.composerProfile_keeps (p : Part) :
    (Part.composerProfile p).mem = p.mem ∧ (Part.composerProfile p).regs = p.regs ∧
    (Part.composerProfile p).pins = p.pins ∧ (Part.composerProfile p).spi = p.spi ∧
    (Part.composerProfile p).odo = p.odo ∧ (Part.composerProfile p).trk = p.trk ∧
    (Part.composerProfile p).res = p.res ∧ (Part.composerProfile p).ntc = p.ntc ∧
    (Part.composerProfile p).lineSeat = p.lineSeat ∧ (Part.composerProfile p).lineEnd = p.lineEnd ∧
    (Part.composerProfile p).lineDoor = p.lineDoor ∧ (Part.composerProfile p).swp = p.swp ∧
    (Part.composerProfile p).rep = p.rep ∧ (Part.composerProfile p).free = p.free ∧
    (Part.composerProfile p).ed.take = p.ed.take ∧ (Part.composerProfile p).ed.seq = p.ed.seq ∧
    (Part.composerProfile p).ed.boundary = p.ed.boundary ∧ (Part.composerProfile p).ed.run = p.ed.run ∧
    (Part.composerProfile p).ed.owed = p.ed.owed ∧ (Part.composerProfile p).ed.profile = p.ed.profile ∧
    (Part.composerProfile p).ed.stops = p.ed.stops ∧ (Part.composerProfile p).ed.reservations = p.ed.reservations ∧
    (Part.composerProfile p).ed.notices = p.ed.notices := by
  unfold Part.composerProfile; split <;> simp

/-- What `Part.setComp` leaves as it was. -/
@[simp] theorem Part.setComp_keeps (p : Part) (c : Composition) :
    (Part.setComp p c).mem = p.mem ∧ (Part.setComp p c).regs = p.regs ∧ (Part.setComp p c).pins = p.pins ∧
    (Part.setComp p c).spi = p.spi ∧ (Part.setComp p c).odo = p.odo ∧
    (Part.setComp p c).trk = p.trk ∧ (Part.setComp p c).res = p.res ∧ (Part.setComp p c).ntc = p.ntc ∧
    (Part.setComp p c).lineSeat = p.lineSeat ∧ (Part.setComp p c).lineEnd = p.lineEnd ∧
    (Part.setComp p c).lineDoor = p.lineDoor ∧ (Part.setComp p c).swp = p.swp ∧ (Part.setComp p c).ed = p.ed ∧
    (Part.setComp p c).rep = p.rep ∧ (Part.setComp p c).free = p.free ∧ (Part.setComp p c).cmp.slots = p.cmp.slots ∧
    (Part.setComp p c).cmp.refreshSeat = p.cmp.refreshSeat ∧ (Part.setComp p c).cmp.refreshEnd = p.cmp.refreshEnd ∧
    (Part.setComp p c).cmp.refreshDoor = p.cmp.refreshDoor := by
  simp [Part.setComp]

/-- What `Part.composerError` leaves as it was. -/
@[simp] theorem Part.composerError_keeps (p : Part) (f : MemFail) :
    (Part.composerError p f).mem = p.mem ∧ (Part.composerError p f).regs = p.regs ∧
    (Part.composerError p f).pins = p.pins ∧ (Part.composerError p f).spi = p.spi ∧
    (Part.composerError p f).odo = p.odo ∧ (Part.composerError p f).trk = p.trk ∧
    (Part.composerError p f).res = p.res ∧ (Part.composerError p f).ntc = p.ntc ∧
    (Part.composerError p f).cmp = p.cmp ∧ (Part.composerError p f).lineSeat = p.lineSeat ∧
    (Part.composerError p f).lineEnd = p.lineEnd ∧ (Part.composerError p f).lineDoor = p.lineDoor ∧
    (Part.composerError p f).swp = p.swp ∧ (Part.composerError p f).ed = p.ed ∧
    (Part.composerError p f).free = p.free ∧ (Part.composerError p f).rep.writing = p.rep.writing ∧
    (Part.composerError p f).rep.boundaries = p.rep.boundaries := by
  simp [Part.composerError]

/-- What `Part.readItems` leaves as it was. -/
@[simp] theorem Part.readItems_keeps (p : Part) (bus : Bus) (c : Composition) (copy : Copy) (address : Nat) :
    (Part.readItems p bus c copy address).mem = p.mem ∧ (Part.readItems p bus c copy address).regs = p.regs ∧
    (Part.readItems p bus c copy address).pins = p.pins ∧
    (Part.readItems p bus c copy address).spi = p.spi ∧
    (Part.readItems p bus c copy address).odo = p.odo ∧ (Part.readItems p bus c copy address).trk = p.trk ∧
    (Part.readItems p bus c copy address).res = p.res ∧ (Part.readItems p bus c copy address).ntc = p.ntc ∧
    (Part.readItems p bus c copy address).lineSeat = p.lineSeat ∧
    (Part.readItems p bus c copy address).lineEnd = p.lineEnd ∧
    (Part.readItems p bus c copy address).lineDoor = p.lineDoor ∧ (Part.readItems p bus c copy address).swp = p.swp ∧
    (Part.readItems p bus c copy address).free = p.free ∧ (Part.readItems p bus c copy address).ed.take = p.ed.take ∧
    (Part.readItems p bus c copy address).ed.seq = p.ed.seq ∧
    (Part.readItems p bus c copy address).ed.boundary = p.ed.boundary ∧
    (Part.readItems p bus c copy address).ed.run = p.ed.run ∧
    (Part.readItems p bus c copy address).ed.owed = p.ed.owed ∧
    (Part.readItems p bus c copy address).cmp.slots = p.cmp.slots ∧
    (Part.readItems p bus c copy address).cmp.refreshSeat = p.cmp.refreshSeat ∧
    (Part.readItems p bus c copy address).cmp.refreshEnd = p.cmp.refreshEnd ∧
    (Part.readItems p bus c copy address).cmp.refreshDoor = p.cmp.refreshDoor ∧
    (Part.readItems p bus c copy address).ed.profile = p.ed.profile ∧
    (Part.readItems p bus c copy address).ed.stops = p.ed.stops ∧
    (Part.readItems p bus c copy address).ed.reservations = p.ed.reservations ∧
    (Part.readItems p bus c copy address).ed.notices = p.ed.notices ∧
    (Part.readItems p bus c copy address).rep.writing = p.rep.writing ∧
    (Part.readItems p bus c copy address).rep.boundaries = p.rep.boundaries := by
  refine ⟨?_, ?_, ?_, ?_, ?_, ?_, ?_, ?_, ?_, ?_, ?_, ?_, ?_, ?_, ?_, ?_, ?_, ?_, ?_, ?_, ?_, ?_, ?_, ?_, ?_, ?_, ?_, ?_⟩ <;>
    (unfold Part.readItems; dsimp only; (repeat' split) <;> rfl)

/-- What `Part.beginComposition` leaves as it was. -/
@[simp] theorem Part.beginComposition_keeps (p : Part) (bus : Bus) :
    (Part.beginComposition p bus).regs = p.regs ∧ (Part.beginComposition p bus).pins = p.pins ∧
    (Part.beginComposition p bus).spi = p.spi ∧ (Part.beginComposition p bus).odo = p.odo ∧
    (Part.beginComposition p bus).trk = p.trk ∧ (Part.beginComposition p bus).res = p.res ∧
    (Part.beginComposition p bus).ntc = p.ntc ∧ (Part.beginComposition p bus).lineSeat = p.lineSeat ∧
    (Part.beginComposition p bus).lineEnd = p.lineEnd ∧ (Part.beginComposition p bus).lineDoor = p.lineDoor ∧
    (Part.beginComposition p bus).swp = p.swp ∧ (Part.beginComposition p bus).free = p.free ∧
    (Part.beginComposition p bus).ed.take = p.ed.take ∧ (Part.beginComposition p bus).ed.seq = p.ed.seq ∧
    (Part.beginComposition p bus).ed.boundary = p.ed.boundary ∧ (Part.beginComposition p bus).ed.run = p.ed.run ∧
    (Part.beginComposition p bus).ed.owed = p.ed.owed ∧ (Part.beginComposition p bus).ed.profile = p.ed.profile ∧
    (Part.beginComposition p bus).ed.stops = p.ed.stops ∧
    (Part.beginComposition p bus).ed.reservations = p.ed.reservations ∧
    (Part.beginComposition p bus).ed.notices = p.ed.notices ∧
    (Part.beginComposition p bus).rep.writing = p.rep.writing ∧
    (Part.beginComposition p bus).rep.boundaries = p.rep.boundaries := by
  refine ⟨?_, ?_, ?_, ?_, ?_, ?_, ?_, ?_, ?_, ?_, ?_, ?_, ?_, ?_, ?_, ?_, ?_, ?_, ?_, ?_, ?_, ?_, ?_⟩ <;>
    (unfold Part.beginComposition; dsimp only; (repeat' split) <;> simp)

/-- What `Part.omitPage` leaves as it was. -/
@[simp] theorem Part.omitPage_keeps (p : Part) (bus : Bus) (c : Composition) (area : Area) (seat : Option Nat)
    (copy index : Nat) (f : MemFail) :
    (Part.omitPage p bus c area seat copy index f).mem = p.mem ∧
    (Part.omitPage p bus c area seat copy index f).regs = p.regs ∧
    (Part.omitPage p bus c area seat copy index f).pins = p.pins ∧
    (Part.omitPage p bus c area seat copy index f).spi = p.spi ∧
    (Part.omitPage p bus c area seat copy index f).odo = p.odo ∧
    (Part.omitPage p bus c area seat copy index f).trk = p.trk ∧
    (Part.omitPage p bus c area seat copy index f).res = p.res ∧
    (Part.omitPage p bus c area seat copy index f).ntc = p.ntc ∧
    (Part.omitPage p bus c area seat copy index f).lineSeat = p.lineSeat ∧
    (Part.omitPage p bus c area seat copy index f).lineEnd = p.lineEnd ∧
    (Part.omitPage p bus c area seat copy index f).lineDoor = p.lineDoor ∧
    (Part.omitPage p bus c area seat copy index f).swp = p.swp ∧
    (Part.omitPage p bus c area seat copy index f).ed = p.ed ∧
    (Part.omitPage p bus c area seat copy index f).free = p.free ∧
    (Part.omitPage p bus c area seat copy index f).cmp.slots = p.cmp.slots ∧
    (Part.omitPage p bus c area seat copy index f).cmp.refreshSeat = p.cmp.refreshSeat ∧
    (Part.omitPage p bus c area seat copy index f).cmp.refreshEnd = p.cmp.refreshEnd ∧
    (Part.omitPage p bus c area seat copy index f).cmp.refreshDoor = p.cmp.refreshDoor ∧
    (Part.omitPage p bus c area seat copy index f).cmp.panels = p.cmp.panels ∧
    (Part.omitPage p bus c area seat copy index f).rep.writing = p.rep.writing ∧
    (Part.omitPage p bus c area seat copy index f).rep.boundaries = p.rep.boundaries := by
  refine ⟨?_, ?_, ?_, ?_, ?_, ?_, ?_, ?_, ?_, ?_, ?_, ?_, ?_, ?_, ?_, ?_, ?_, ?_, ?_, ?_, ?_⟩ <;>
    (unfold Part.omitPage; (repeat' split) <;> rfl)

/-- What `Part.beginArea` leaves as it was. -/
@[simp] theorem Part.beginArea_keeps (p : Part) (bus : Bus) (c : Composition) (area : Area) :
    (Part.beginArea p bus c area).mem = p.mem ∧ (Part.beginArea p bus c area).regs = p.regs ∧
    (Part.beginArea p bus c area).pins = p.pins ∧ (Part.beginArea p bus c area).spi = p.spi ∧
    (Part.beginArea p bus c area).odo = p.odo ∧ (Part.beginArea p bus c area).trk = p.trk ∧
    (Part.beginArea p bus c area).res = p.res ∧ (Part.beginArea p bus c area).ntc = p.ntc ∧
    (Part.beginArea p bus c area).lineSeat = p.lineSeat ∧ (Part.beginArea p bus c area).lineEnd = p.lineEnd ∧
    (Part.beginArea p bus c area).lineDoor = p.lineDoor ∧ (Part.beginArea p bus c area).swp = p.swp ∧
    (Part.beginArea p bus c area).ed = p.ed ∧ (Part.beginArea p bus c area).free = p.free ∧
    (Part.beginArea p bus c area).cmp.slots = p.cmp.slots ∧
    (Part.beginArea p bus c area).cmp.refreshSeat = p.cmp.refreshSeat ∧
    (Part.beginArea p bus c area).cmp.refreshEnd = p.cmp.refreshEnd ∧
    (Part.beginArea p bus c area).cmp.refreshDoor = p.cmp.refreshDoor ∧
    (Part.beginArea p bus c area).rep.writing = p.rep.writing ∧
    (Part.beginArea p bus c area).rep.boundaries = p.rep.boundaries := by
  refine ⟨?_, ?_, ?_, ?_, ?_, ?_, ?_, ?_, ?_, ?_, ?_, ?_, ?_, ?_, ?_, ?_, ?_, ?_, ?_, ?_⟩ <;>
    (unfold Part.beginArea; dsimp only; (repeat' split) <;> simp)

/-- What `Part.composerErrors` leaves as it was. -/
@[simp] theorem Part.composerErrors_keeps (p : Part) (fs : List MemFail) :
    (Part.composerErrors p fs).mem = p.mem ∧ (Part.composerErrors p fs).regs = p.regs ∧
    (Part.composerErrors p fs).pins = p.pins ∧ (Part.composerErrors p fs).spi = p.spi ∧
    (Part.composerErrors p fs).odo = p.odo ∧ (Part.composerErrors p fs).trk = p.trk ∧
    (Part.composerErrors p fs).res = p.res ∧ (Part.composerErrors p fs).ntc = p.ntc ∧
    (Part.composerErrors p fs).cmp = p.cmp ∧ (Part.composerErrors p fs).lineSeat = p.lineSeat ∧
    (Part.composerErrors p fs).lineEnd = p.lineEnd ∧ (Part.composerErrors p fs).lineDoor = p.lineDoor ∧
    (Part.composerErrors p fs).swp = p.swp ∧ (Part.composerErrors p fs).ed = p.ed ∧
    (Part.composerErrors p fs).free = p.free ∧ (Part.composerErrors p fs).rep.writing = p.rep.writing ∧
    (Part.composerErrors p fs).rep.boundaries = p.rep.boundaries := by
  refine ⟨?_, ?_, ?_, ?_, ?_, ?_, ?_, ?_, ?_, ?_, ?_, ?_, ?_, ?_, ?_, ?_, ?_⟩
  · unfold Part.composerErrors; exact foldl_keeps (fun q : Part => q.mem) _ (by intro q x; simp) _ _
  · unfold Part.composerErrors; exact foldl_keeps (fun q : Part => q.regs) _ (by intro q x; simp) _ _
  · unfold Part.composerErrors; exact foldl_keeps (fun q : Part => q.pins) _ (by intro q x; simp) _ _
  · unfold Part.composerErrors; exact foldl_keeps (fun q : Part => q.spi) _ (by intro q x; simp) _ _
  · unfold Part.composerErrors; exact foldl_keeps (fun q : Part => q.odo) _ (by intro q x; simp) _ _
  · unfold Part.composerErrors; exact foldl_keeps (fun q : Part => q.trk) _ (by intro q x; simp) _ _
  · unfold Part.composerErrors; exact foldl_keeps (fun q : Part => q.res) _ (by intro q x; simp) _ _
  · unfold Part.composerErrors; exact foldl_keeps (fun q : Part => q.ntc) _ (by intro q x; simp) _ _
  · unfold Part.composerErrors; exact foldl_keeps (fun q : Part => q.cmp) _ (by intro q x; simp) _ _
  · unfold Part.composerErrors; exact foldl_keeps (fun q : Part => q.lineSeat) _ (by intro q x; simp) _ _
  · unfold Part.composerErrors; exact foldl_keeps (fun q : Part => q.lineEnd) _ (by intro q x; simp) _ _
  · unfold Part.composerErrors; exact foldl_keeps (fun q : Part => q.lineDoor) _ (by intro q x; simp) _ _
  · unfold Part.composerErrors; exact foldl_keeps (fun q : Part => q.swp) _ (by intro q x; simp) _ _
  · unfold Part.composerErrors; exact foldl_keeps (fun q : Part => q.ed) _ (by intro q x; simp) _ _
  · unfold Part.composerErrors; exact foldl_keeps (fun q : Part => q.free) _ (by intro q x; simp) _ _
  · unfold Part.composerErrors; exact foldl_keeps (fun q : Part => q.rep.writing) _ (by intro q x; simp) _ _
  · unfold Part.composerErrors; exact foldl_keeps (fun q : Part => q.rep.boundaries) _ (by intro q x; simp) _ _

/-- What `Part.drawText` leaves as it was. -/
@[simp] theorem Part.drawText_keeps (p : Part) (bus : Bus) (c : Composition) (g : PageDraw) (pin : ContentPin) (poolLength : Nat) (r : Rect) (ink : Nat) (paper : Nat) (zoomH : Nat) (zoomV : Nat) (centre : Bool) (marquee : Bool) (speed : Nat) (field : Nat) (fixed : Option Nat) :
    (Part.drawText p bus c g pin poolLength r ink paper zoomH zoomV centre marquee speed field fixed).mem = p.mem ∧
    (Part.drawText p bus c g pin poolLength r ink paper zoomH zoomV centre marquee speed field fixed).regs = p.regs ∧
    (Part.drawText p bus c g pin poolLength r ink paper zoomH zoomV centre marquee speed field fixed).pins = p.pins ∧
    (Part.drawText p bus c g pin poolLength r ink paper zoomH zoomV centre marquee speed field fixed).spi = p.spi ∧
    (Part.drawText p bus c g pin poolLength r ink paper zoomH zoomV centre marquee speed field fixed).odo = p.odo ∧
    (Part.drawText p bus c g pin poolLength r ink paper zoomH zoomV centre marquee speed field fixed).trk = p.trk ∧
    (Part.drawText p bus c g pin poolLength r ink paper zoomH zoomV centre marquee speed field fixed).res = p.res ∧
    (Part.drawText p bus c g pin poolLength r ink paper zoomH zoomV centre marquee speed field fixed).ntc = p.ntc ∧
    (Part.drawText p bus c g pin poolLength r ink paper zoomH zoomV centre marquee speed field fixed).lineSeat = p.lineSeat ∧
    (Part.drawText p bus c g pin poolLength r ink paper zoomH zoomV centre marquee speed field fixed).lineEnd = p.lineEnd ∧
    (Part.drawText p bus c g pin poolLength r ink paper zoomH zoomV centre marquee speed field fixed).lineDoor = p.lineDoor ∧
    (Part.drawText p bus c g pin poolLength r ink paper zoomH zoomV centre marquee speed field fixed).swp = p.swp ∧
    (Part.drawText p bus c g pin poolLength r ink paper zoomH zoomV centre marquee speed field fixed).ed = p.ed ∧
    (Part.drawText p bus c g pin poolLength r ink paper zoomH zoomV centre marquee speed field fixed).free = p.free ∧
    (Part.drawText p bus c g pin poolLength r ink paper zoomH zoomV centre marquee speed field fixed).cmp.slots = p.cmp.slots ∧
    (Part.drawText p bus c g pin poolLength r ink paper zoomH zoomV centre marquee speed field fixed).cmp.refreshSeat = p.cmp.refreshSeat ∧
    (Part.drawText p bus c g pin poolLength r ink paper zoomH zoomV centre marquee speed field fixed).cmp.refreshEnd = p.cmp.refreshEnd ∧
    (Part.drawText p bus c g pin poolLength r ink paper zoomH zoomV centre marquee speed field fixed).cmp.refreshDoor = p.cmp.refreshDoor ∧
    (Part.drawText p bus c g pin poolLength r ink paper zoomH zoomV centre marquee speed field fixed).rep.writing = p.rep.writing ∧
    (Part.drawText p bus c g pin poolLength r ink paper zoomH zoomV centre marquee speed field fixed).rep.boundaries = p.rep.boundaries := by
  simp [Part.drawText]

/-- What `Part.drawBar` leaves as it was. -/
@[simp] theorem Part.drawBar_keeps (p : Part) (c : Composition) (area : Rect) (r : Rect) (ink : Nat) (paper : Nat) (border : Nat) :
    (Part.drawBar p c area r ink paper border).mem = p.mem ∧
    (Part.drawBar p c area r ink paper border).regs = p.regs ∧
    (Part.drawBar p c area r ink paper border).pins = p.pins ∧
    (Part.drawBar p c area r ink paper border).spi = p.spi ∧
    (Part.drawBar p c area r ink paper border).odo = p.odo ∧ (Part.drawBar p c area r ink paper border).trk = p.trk ∧
    (Part.drawBar p c area r ink paper border).res = p.res ∧ (Part.drawBar p c area r ink paper border).ntc = p.ntc ∧
    (Part.drawBar p c area r ink paper border).lineSeat = p.lineSeat ∧
    (Part.drawBar p c area r ink paper border).lineEnd = p.lineEnd ∧
    (Part.drawBar p c area r ink paper border).lineDoor = p.lineDoor ∧
    (Part.drawBar p c area r ink paper border).swp = p.swp ∧ (Part.drawBar p c area r ink paper border).ed = p.ed ∧
    (Part.drawBar p c area r ink paper border).rep = p.rep ∧
    (Part.drawBar p c area r ink paper border).free = p.free ∧
    (Part.drawBar p c area r ink paper border).cmp.slots = p.cmp.slots ∧
    (Part.drawBar p c area r ink paper border).cmp.refreshSeat = p.cmp.refreshSeat ∧
    (Part.drawBar p c area r ink paper border).cmp.refreshEnd = p.cmp.refreshEnd ∧
    (Part.drawBar p c area r ink paper border).cmp.refreshDoor = p.cmp.refreshDoor := by
  simp [Part.drawBar]

/-- What `Part.addMarker` leaves as it was. -/
@[simp] theorem Part.addMarker_keeps (p : Part) (bus : Bus) (c : Composition) (pin : ContentPin) (glyph : Nat) (u : Nat) (shown : Bool) (r : Rect) (area : Rect) :
    (Part.addMarker p bus c pin glyph u shown r area).mem = p.mem ∧
    (Part.addMarker p bus c pin glyph u shown r area).regs = p.regs ∧
    (Part.addMarker p bus c pin glyph u shown r area).pins = p.pins ∧
    (Part.addMarker p bus c pin glyph u shown r area).spi = p.spi ∧
    (Part.addMarker p bus c pin glyph u shown r area).odo = p.odo ∧
    (Part.addMarker p bus c pin glyph u shown r area).trk = p.trk ∧
    (Part.addMarker p bus c pin glyph u shown r area).res = p.res ∧
    (Part.addMarker p bus c pin glyph u shown r area).ntc = p.ntc ∧
    (Part.addMarker p bus c pin glyph u shown r area).lineSeat = p.lineSeat ∧
    (Part.addMarker p bus c pin glyph u shown r area).lineEnd = p.lineEnd ∧
    (Part.addMarker p bus c pin glyph u shown r area).lineDoor = p.lineDoor ∧
    (Part.addMarker p bus c pin glyph u shown r area).swp = p.swp ∧
    (Part.addMarker p bus c pin glyph u shown r area).ed = p.ed ∧
    (Part.addMarker p bus c pin glyph u shown r area).free = p.free ∧
    (Part.addMarker p bus c pin glyph u shown r area).cmp.slots = p.cmp.slots ∧
    (Part.addMarker p bus c pin glyph u shown r area).cmp.refreshSeat = p.cmp.refreshSeat ∧
    (Part.addMarker p bus c pin glyph u shown r area).cmp.refreshEnd = p.cmp.refreshEnd ∧
    (Part.addMarker p bus c pin glyph u shown r area).cmp.refreshDoor = p.cmp.refreshDoor ∧
    (Part.addMarker p bus c pin glyph u shown r area).rep.writing = p.rep.writing ∧
    (Part.addMarker p bus c pin glyph u shown r area).rep.boundaries = p.rep.boundaries := by
  refine ⟨?_, ?_, ?_, ?_, ?_, ?_, ?_, ?_, ?_, ?_, ?_, ?_, ?_, ?_, ?_, ?_, ?_, ?_, ?_, ?_⟩ <;>
    (unfold Part.addMarker; (repeat' split) <;> simp)

/-- What `Part.drawStrip` leaves as it was. -/
@[simp] theorem Part.drawStrip_keeps (p : Part) (bus : Bus) (c : Composition) (g : PageDraw) (pin : ContentPin) (items : ContentItems) (r : Rect) (index : Nat) (y0 : Nat) (fy : Nat) (marker : Bool) :
    (Part.drawStrip p bus c g pin items r index y0 fy marker).mem = p.mem ∧
    (Part.drawStrip p bus c g pin items r index y0 fy marker).regs = p.regs ∧
    (Part.drawStrip p bus c g pin items r index y0 fy marker).pins = p.pins ∧
    (Part.drawStrip p bus c g pin items r index y0 fy marker).spi = p.spi ∧
    (Part.drawStrip p bus c g pin items r index y0 fy marker).odo = p.odo ∧
    (Part.drawStrip p bus c g pin items r index y0 fy marker).trk = p.trk ∧
    (Part.drawStrip p bus c g pin items r index y0 fy marker).res = p.res ∧
    (Part.drawStrip p bus c g pin items r index y0 fy marker).ntc = p.ntc ∧
    (Part.drawStrip p bus c g pin items r index y0 fy marker).lineSeat = p.lineSeat ∧
    (Part.drawStrip p bus c g pin items r index y0 fy marker).lineEnd = p.lineEnd ∧
    (Part.drawStrip p bus c g pin items r index y0 fy marker).lineDoor = p.lineDoor ∧
    (Part.drawStrip p bus c g pin items r index y0 fy marker).swp = p.swp ∧
    (Part.drawStrip p bus c g pin items r index y0 fy marker).ed = p.ed ∧
    (Part.drawStrip p bus c g pin items r index y0 fy marker).free = p.free ∧
    (Part.drawStrip p bus c g pin items r index y0 fy marker).cmp.slots = p.cmp.slots ∧
    (Part.drawStrip p bus c g pin items r index y0 fy marker).cmp.refreshSeat = p.cmp.refreshSeat ∧
    (Part.drawStrip p bus c g pin items r index y0 fy marker).cmp.refreshEnd = p.cmp.refreshEnd ∧
    (Part.drawStrip p bus c g pin items r index y0 fy marker).cmp.refreshDoor = p.cmp.refreshDoor ∧
    (Part.drawStrip p bus c g pin items r index y0 fy marker).rep.writing = p.rep.writing ∧
    (Part.drawStrip p bus c g pin items r index y0 fy marker).rep.boundaries = p.rep.boundaries := by
  unfold Part.drawStrip; split <;> simp

/-- What `Part.drawOpenWindow` leaves as it was. -/
@[simp] theorem Part.drawOpenWindow_keeps (p : Part) (bus : Bus) (c : Composition) (g : PageDraw) (pin : ContentPin) (items : ContentItems) (r : Rect) (kind : WindowKind) :
    (Part.drawOpenWindow p bus c g pin items r kind).mem = p.mem ∧
    (Part.drawOpenWindow p bus c g pin items r kind).regs = p.regs ∧
    (Part.drawOpenWindow p bus c g pin items r kind).pins = p.pins ∧
    (Part.drawOpenWindow p bus c g pin items r kind).spi = p.spi ∧
    (Part.drawOpenWindow p bus c g pin items r kind).odo = p.odo ∧
    (Part.drawOpenWindow p bus c g pin items r kind).trk = p.trk ∧
    (Part.drawOpenWindow p bus c g pin items r kind).res = p.res ∧
    (Part.drawOpenWindow p bus c g pin items r kind).ntc = p.ntc ∧
    (Part.drawOpenWindow p bus c g pin items r kind).lineSeat = p.lineSeat ∧
    (Part.drawOpenWindow p bus c g pin items r kind).lineEnd = p.lineEnd ∧
    (Part.drawOpenWindow p bus c g pin items r kind).lineDoor = p.lineDoor ∧
    (Part.drawOpenWindow p bus c g pin items r kind).swp = p.swp ∧
    (Part.drawOpenWindow p bus c g pin items r kind).ed = p.ed ∧
    (Part.drawOpenWindow p bus c g pin items r kind).free = p.free ∧
    (Part.drawOpenWindow p bus c g pin items r kind).cmp.slots = p.cmp.slots ∧
    (Part.drawOpenWindow p bus c g pin items r kind).cmp.refreshSeat = p.cmp.refreshSeat ∧
    (Part.drawOpenWindow p bus c g pin items r kind).cmp.refreshEnd = p.cmp.refreshEnd ∧
    (Part.drawOpenWindow p bus c g pin items r kind).cmp.refreshDoor = p.cmp.refreshDoor ∧
    (Part.drawOpenWindow p bus c g pin items r kind).rep.writing = p.rep.writing ∧
    (Part.drawOpenWindow p bus c g pin items r kind).rep.boundaries = p.rep.boundaries := by
  unfold Part.drawOpenWindow; split <;> simp

/-- What `Part.drawWindow` leaves as it was. -/
@[simp] theorem Part.drawWindow_keeps (p : Part) (bus : Bus) (c : Composition) (g : PageDraw) (pin : ContentPin) (items : ContentItems) (w : Window) :
    (Part.drawWindow p bus c g pin items w).mem = p.mem ∧ (Part.drawWindow p bus c g pin items w).regs = p.regs ∧
    (Part.drawWindow p bus c g pin items w).pins = p.pins ∧
    (Part.drawWindow p bus c g pin items w).spi = p.spi ∧
    (Part.drawWindow p bus c g pin items w).odo = p.odo ∧ (Part.drawWindow p bus c g pin items w).trk = p.trk ∧
    (Part.drawWindow p bus c g pin items w).res = p.res ∧ (Part.drawWindow p bus c g pin items w).ntc = p.ntc ∧
    (Part.drawWindow p bus c g pin items w).lineSeat = p.lineSeat ∧
    (Part.drawWindow p bus c g pin items w).lineEnd = p.lineEnd ∧
    (Part.drawWindow p bus c g pin items w).lineDoor = p.lineDoor ∧
    (Part.drawWindow p bus c g pin items w).swp = p.swp ∧ (Part.drawWindow p bus c g pin items w).ed = p.ed ∧
    (Part.drawWindow p bus c g pin items w).free = p.free ∧
    (Part.drawWindow p bus c g pin items w).cmp.slots = p.cmp.slots ∧
    (Part.drawWindow p bus c g pin items w).cmp.refreshSeat = p.cmp.refreshSeat ∧
    (Part.drawWindow p bus c g pin items w).cmp.refreshEnd = p.cmp.refreshEnd ∧
    (Part.drawWindow p bus c g pin items w).cmp.refreshDoor = p.cmp.refreshDoor ∧
    (Part.drawWindow p bus c g pin items w).rep.writing = p.rep.writing ∧
    (Part.drawWindow p bus c g pin items w).rep.boundaries = p.rep.boundaries := by
  refine ⟨?_, ?_, ?_, ?_, ?_, ?_, ?_, ?_, ?_, ?_, ?_, ?_, ?_, ?_, ?_, ?_, ?_, ?_, ?_, ?_⟩ <;>
    (unfold Part.drawWindow; dsimp only; (repeat' split) <;> simp)

/-- What `Part.beginWindow` leaves as it was. -/
@[simp] theorem Part.beginWindow_keeps (p : Part) (bus : Bus) (c : Composition) (g : PageDraw) :
    (Part.beginWindow p bus c g).mem = p.mem ∧ (Part.beginWindow p bus c g).regs = p.regs ∧
    (Part.beginWindow p bus c g).pins = p.pins ∧ (Part.beginWindow p bus c g).spi = p.spi ∧
    (Part.beginWindow p bus c g).odo = p.odo ∧ (Part.beginWindow p bus c g).trk = p.trk ∧
    (Part.beginWindow p bus c g).res = p.res ∧ (Part.beginWindow p bus c g).ntc = p.ntc ∧
    (Part.beginWindow p bus c g).lineSeat = p.lineSeat ∧ (Part.beginWindow p bus c g).lineEnd = p.lineEnd ∧
    (Part.beginWindow p bus c g).lineDoor = p.lineDoor ∧ (Part.beginWindow p bus c g).swp = p.swp ∧
    (Part.beginWindow p bus c g).ed = p.ed ∧ (Part.beginWindow p bus c g).free = p.free ∧
    (Part.beginWindow p bus c g).cmp.slots = p.cmp.slots ∧
    (Part.beginWindow p bus c g).cmp.refreshSeat = p.cmp.refreshSeat ∧
    (Part.beginWindow p bus c g).cmp.refreshEnd = p.cmp.refreshEnd ∧
    (Part.beginWindow p bus c g).cmp.refreshDoor = p.cmp.refreshDoor ∧
    (Part.beginWindow p bus c g).rep.writing = p.rep.writing ∧
    (Part.beginWindow p bus c g).rep.boundaries = p.rep.boundaries := by
  refine ⟨?_, ?_, ?_, ?_, ?_, ?_, ?_, ?_, ?_, ?_, ?_, ?_, ?_, ?_, ?_, ?_, ?_, ?_, ?_, ?_⟩ <;>
    (unfold Part.beginWindow; (repeat' split) <;> simp)

/-- What `Part.beginElement` leaves as it was. -/
@[simp] theorem Part.beginElement_keeps (p : Part) (bus : Bus) :
    (Part.beginElement p bus).regs = p.regs ∧ (Part.beginElement p bus).pins = p.pins ∧
    (Part.beginElement p bus).spi = p.spi ∧ (Part.beginElement p bus).odo = p.odo ∧
    (Part.beginElement p bus).trk = p.trk ∧ (Part.beginElement p bus).res = p.res ∧
    (Part.beginElement p bus).ntc = p.ntc ∧ (Part.beginElement p bus).lineSeat = p.lineSeat ∧
    (Part.beginElement p bus).lineEnd = p.lineEnd ∧ (Part.beginElement p bus).lineDoor = p.lineDoor ∧
    (Part.beginElement p bus).swp = p.swp ∧ (Part.beginElement p bus).ed = p.ed ∧
    (Part.beginElement p bus).free = p.free ∧ (Part.beginElement p bus).cmp.slots = p.cmp.slots ∧
    (Part.beginElement p bus).cmp.refreshSeat = p.cmp.refreshSeat ∧
    (Part.beginElement p bus).cmp.refreshEnd = p.cmp.refreshEnd ∧
    (Part.beginElement p bus).cmp.refreshDoor = p.cmp.refreshDoor ∧
    (Part.beginElement p bus).rep.writing = p.rep.writing ∧
    (Part.beginElement p bus).rep.boundaries = p.rep.boundaries := by
  refine ⟨?_, ?_, ?_, ?_, ?_, ?_, ?_, ?_, ?_, ?_, ?_, ?_, ?_, ?_, ?_, ?_, ?_, ?_, ?_⟩ <;>
    (unfold Part.beginElement; (repeat' split) <;> simp)

/-- What `Part.glyphDecoded` leaves as it was. -/
@[simp] theorem Part.glyphDecoded_keeps (p : Part) (c : Composition) (j : GlyphJob) (r : Decoder × Option StreamStop) :
    (Part.glyphDecoded p c j r).mem = p.mem ∧ (Part.glyphDecoded p c j r).regs = p.regs ∧
    (Part.glyphDecoded p c j r).pins = p.pins ∧ (Part.glyphDecoded p c j r).spi = p.spi ∧
    (Part.glyphDecoded p c j r).odo = p.odo ∧ (Part.glyphDecoded p c j r).trk = p.trk ∧
    (Part.glyphDecoded p c j r).res = p.res ∧ (Part.glyphDecoded p c j r).ntc = p.ntc ∧
    (Part.glyphDecoded p c j r).lineSeat = p.lineSeat ∧ (Part.glyphDecoded p c j r).lineEnd = p.lineEnd ∧
    (Part.glyphDecoded p c j r).lineDoor = p.lineDoor ∧ (Part.glyphDecoded p c j r).swp = p.swp ∧
    (Part.glyphDecoded p c j r).ed = p.ed ∧ (Part.glyphDecoded p c j r).free = p.free ∧
    (Part.glyphDecoded p c j r).cmp.slots = p.cmp.slots ∧
    (Part.glyphDecoded p c j r).cmp.refreshSeat = p.cmp.refreshSeat ∧
    (Part.glyphDecoded p c j r).cmp.refreshEnd = p.cmp.refreshEnd ∧
    (Part.glyphDecoded p c j r).cmp.refreshDoor = p.cmp.refreshDoor ∧
    (Part.glyphDecoded p c j r).rep.writing = p.rep.writing ∧
    (Part.glyphDecoded p c j r).rep.boundaries = p.rep.boundaries := by
  unfold Part.glyphDecoded; split <;> simp

/-- What `Part.endGlyph` leaves as it was. -/
@[simp] theorem Part.endGlyph_keeps (p : Part) (bus : Bus) :
    (Part.endGlyph p bus).regs = p.regs ∧ (Part.endGlyph p bus).pins = p.pins ∧
    (Part.endGlyph p bus).spi = p.spi ∧ (Part.endGlyph p bus).odo = p.odo ∧
    (Part.endGlyph p bus).trk = p.trk ∧ (Part.endGlyph p bus).res = p.res ∧ (Part.endGlyph p bus).ntc = p.ntc ∧
    (Part.endGlyph p bus).lineSeat = p.lineSeat ∧ (Part.endGlyph p bus).lineEnd = p.lineEnd ∧
    (Part.endGlyph p bus).lineDoor = p.lineDoor ∧ (Part.endGlyph p bus).swp = p.swp ∧
    (Part.endGlyph p bus).ed = p.ed ∧ (Part.endGlyph p bus).free = p.free ∧
    (Part.endGlyph p bus).cmp.slots = p.cmp.slots ∧ (Part.endGlyph p bus).cmp.refreshSeat = p.cmp.refreshSeat ∧
    (Part.endGlyph p bus).cmp.refreshEnd = p.cmp.refreshEnd ∧
    (Part.endGlyph p bus).cmp.refreshDoor = p.cmp.refreshDoor ∧ (Part.endGlyph p bus).rep.writing = p.rep.writing ∧
    (Part.endGlyph p bus).rep.boundaries = p.rep.boundaries := by
  refine ⟨?_, ?_, ?_, ?_, ?_, ?_, ?_, ?_, ?_, ?_, ?_, ?_, ?_, ?_, ?_, ?_, ?_, ?_, ?_⟩ <;>
    (unfold Part.endGlyph; (repeat' split) <;> simp)

/-- What `Part.completeComposition` leaves as it was. -/
@[simp] theorem Part.completeComposition_keeps (p : Part) :
    (Part.completeComposition p).mem = p.mem ∧ (Part.completeComposition p).regs = p.regs ∧
    (Part.completeComposition p).pins = p.pins ∧ (Part.completeComposition p).spi = p.spi ∧
    (Part.completeComposition p).odo = p.odo ∧ (Part.completeComposition p).trk = p.trk ∧
    (Part.completeComposition p).res = p.res ∧ (Part.completeComposition p).ntc = p.ntc ∧
    (Part.completeComposition p).lineSeat = p.lineSeat ∧ (Part.completeComposition p).lineEnd = p.lineEnd ∧
    (Part.completeComposition p).lineDoor = p.lineDoor ∧ (Part.completeComposition p).swp = p.swp ∧
    (Part.completeComposition p).rep = p.rep ∧ (Part.completeComposition p).free = p.free ∧
    (Part.completeComposition p).ed.take = p.ed.take ∧ (Part.completeComposition p).ed.seq = p.ed.seq ∧
    (Part.completeComposition p).ed.boundary = p.ed.boundary ∧ (Part.completeComposition p).ed.run = p.ed.run ∧
    (Part.completeComposition p).ed.owed = p.ed.owed ∧
    (Part.completeComposition p).cmp.refreshSeat = p.cmp.refreshSeat ∧
    (Part.completeComposition p).cmp.refreshEnd = p.cmp.refreshEnd ∧
    (Part.completeComposition p).cmp.refreshDoor = p.cmp.refreshDoor ∧
    (Part.completeComposition p).ed.profile = p.ed.profile ∧ (Part.completeComposition p).ed.stops = p.ed.stops ∧
    (Part.completeComposition p).ed.reservations = p.ed.reservations ∧
    (Part.completeComposition p).ed.notices = p.ed.notices := by
  refine ⟨?_, ?_, ?_, ?_, ?_, ?_, ?_, ?_, ?_, ?_, ?_, ?_, ?_, ?_, ?_, ?_, ?_, ?_, ?_, ?_, ?_, ?_, ?_, ?_, ?_, ?_⟩ <;>
    (unfold Part.completeComposition; (repeat' split) <;> rfl)

/-- What `Part.lineBoundary` leaves as it was. -/
@[simp] theorem Part.lineBoundary_keeps (p : Part) (l : Line) :
    (Part.lineBoundary p l).mem = p.mem ∧ (Part.lineBoundary p l).regs = p.regs ∧
    (Part.lineBoundary p l).pins = p.pins ∧ (Part.lineBoundary p l).spi = p.spi ∧
    (Part.lineBoundary p l).odo = p.odo ∧ (Part.lineBoundary p l).trk = p.trk ∧ (Part.lineBoundary p l).res = p.res ∧
    (Part.lineBoundary p l).ntc = p.ntc ∧ (Part.lineBoundary p l).cmp = p.cmp ∧ (Part.lineBoundary p l).swp = p.swp ∧
    (Part.lineBoundary p l).ed = p.ed ∧ (Part.lineBoundary p l).rep = p.rep ∧
    (Part.lineBoundary p l).free = p.free := by
  refine ⟨?_, ?_, ?_, ?_, ?_, ?_, ?_, ?_, ?_, ?_, ?_, ?_, ?_⟩ <;>
    (unfold Part.lineBoundary; dsimp only; (repeat' split) <;> simp)

/-- What `Part.holdReached` leaves as it was. -/
@[simp] theorem Part.holdReached_keeps (p : Part) (l : Line) (g : Nat) :
    (Part.holdReached p l g).mem = p.mem ∧ (Part.holdReached p l g).regs = p.regs ∧
    (Part.holdReached p l g).pins = p.pins ∧ (Part.holdReached p l g).spi = p.spi ∧
    (Part.holdReached p l g).odo = p.odo ∧ (Part.holdReached p l g).trk = p.trk ∧
    (Part.holdReached p l g).res = p.res ∧ (Part.holdReached p l g).ntc = p.ntc ∧
    (Part.holdReached p l g).cmp = p.cmp ∧ (Part.holdReached p l g).swp = p.swp ∧ (Part.holdReached p l g).ed = p.ed ∧
    (Part.holdReached p l g).rep = p.rep ∧ (Part.holdReached p l g).free = p.free := by
  simp [Part.holdReached]

/-- What `Part.startExchange` leaves as it was. -/
@[simp] theorem Part.startExchange_keeps (p : Part) (l : Line) (kind : ExchangeKind) (address : Nat) (group : Nat) (frame : List Byte) :
    (Part.startExchange p l kind address group frame).mem = p.mem ∧
    (Part.startExchange p l kind address group frame).regs = p.regs ∧
    (Part.startExchange p l kind address group frame).pins = p.pins ∧
    (Part.startExchange p l kind address group frame).spi = p.spi ∧
    (Part.startExchange p l kind address group frame).odo = p.odo ∧
    (Part.startExchange p l kind address group frame).trk = p.trk ∧
    (Part.startExchange p l kind address group frame).res = p.res ∧
    (Part.startExchange p l kind address group frame).ntc = p.ntc ∧
    (Part.startExchange p l kind address group frame).cmp = p.cmp ∧
    (Part.startExchange p l kind address group frame).swp = p.swp ∧
    (Part.startExchange p l kind address group frame).ed = p.ed ∧
    (Part.startExchange p l kind address group frame).rep = p.rep ∧
    (Part.startExchange p l kind address group frame).free = p.free := by
  simp [Part.startExchange]

/-- What `Part.startLoad` leaves as it was. -/
@[simp] theorem Part.startLoad_keeps (p : Part) (l : Line) (a : Nat) (slot : Nat) :
    (Part.startLoad p l a slot).mem = p.mem ∧ (Part.startLoad p l a slot).regs = p.regs ∧
    (Part.startLoad p l a slot).pins = p.pins ∧ (Part.startLoad p l a slot).spi = p.spi ∧
    (Part.startLoad p l a slot).odo = p.odo ∧ (Part.startLoad p l a slot).trk = p.trk ∧
    (Part.startLoad p l a slot).res = p.res ∧ (Part.startLoad p l a slot).ntc = p.ntc ∧
    (Part.startLoad p l a slot).swp = p.swp ∧ (Part.startLoad p l a slot).ed = p.ed ∧
    (Part.startLoad p l a slot).rep = p.rep ∧ (Part.startLoad p l a slot).free = p.free ∧
    (Part.startLoad p l a slot).cmp.refreshSeat = p.cmp.refreshSeat ∧
    (Part.startLoad p l a slot).cmp.refreshEnd = p.cmp.refreshEnd ∧
    (Part.startLoad p l a slot).cmp.refreshDoor = p.cmp.refreshDoor ∧
    (Part.startLoad p l a slot).cmp.comp = p.cmp.comp := by
  simp [Part.startLoad]

/-- What `Part.startShow` leaves as it was. -/
@[simp] theorem Part.startShow_keeps (p : Part) (l : Line) (a : Nat) :
    (Part.startShow p l a).mem = p.mem ∧ (Part.startShow p l a).regs = p.regs ∧ (Part.startShow p l a).pins = p.pins ∧
    (Part.startShow p l a).spi = p.spi ∧ (Part.startShow p l a).odo = p.odo ∧
    (Part.startShow p l a).trk = p.trk ∧ (Part.startShow p l a).res = p.res ∧ (Part.startShow p l a).ntc = p.ntc ∧
    (Part.startShow p l a).cmp = p.cmp ∧ (Part.startShow p l a).swp = p.swp ∧ (Part.startShow p l a).ed = p.ed ∧
    (Part.startShow p l a).rep = p.rep ∧ (Part.startShow p l a).free = p.free := by
  unfold Part.startShow; split <;> simp

/-- What `Part.startBroadcast` leaves as it was. -/
@[simp] theorem Part.startBroadcast_keeps (p : Part) (l : Line) (g : Nat) :
    (Part.startBroadcast p l g).mem = p.mem ∧ (Part.startBroadcast p l g).regs = p.regs ∧
    (Part.startBroadcast p l g).pins = p.pins ∧ (Part.startBroadcast p l g).spi = p.spi ∧
    (Part.startBroadcast p l g).odo = p.odo ∧ (Part.startBroadcast p l g).trk = p.trk ∧
    (Part.startBroadcast p l g).res = p.res ∧ (Part.startBroadcast p l g).ntc = p.ntc ∧
    (Part.startBroadcast p l g).cmp = p.cmp ∧ (Part.startBroadcast p l g).swp = p.swp ∧
    (Part.startBroadcast p l g).ed = p.ed ∧ (Part.startBroadcast p l g).rep = p.rep ∧
    (Part.startBroadcast p l g).free = p.free := by
  unfold Part.startBroadcast; split <;> simp

/-- What `Part.startQuery` leaves as it was. -/
@[simp] theorem Part.startQuery_keeps (p : Part) (l : Line) (a : Nat) :
    (Part.startQuery p l a).mem = p.mem ∧ (Part.startQuery p l a).regs = p.regs ∧
    (Part.startQuery p l a).pins = p.pins ∧ (Part.startQuery p l a).spi = p.spi ∧
    (Part.startQuery p l a).odo = p.odo ∧ (Part.startQuery p l a).trk = p.trk ∧ (Part.startQuery p l a).res = p.res ∧
    (Part.startQuery p l a).ntc = p.ntc ∧ (Part.startQuery p l a).cmp = p.cmp ∧ (Part.startQuery p l a).swp = p.swp ∧
    (Part.startQuery p l a).ed = p.ed ∧ (Part.startQuery p l a).rep = p.rep ∧
    (Part.startQuery p l a).free = p.free := by
  simp [Part.startQuery]

/-- What `Part.beginLoadExchange` leaves as it was. -/
@[simp] theorem Part.beginLoadExchange_keeps (p : Part) (l : Line) :
    (Part.beginLoadExchange p l).mem = p.mem ∧ (Part.beginLoadExchange p l).regs = p.regs ∧
    (Part.beginLoadExchange p l).pins = p.pins ∧ (Part.beginLoadExchange p l).spi = p.spi ∧
    (Part.beginLoadExchange p l).odo = p.odo ∧ (Part.beginLoadExchange p l).trk = p.trk ∧
    (Part.beginLoadExchange p l).res = p.res ∧ (Part.beginLoadExchange p l).ntc = p.ntc ∧
    (Part.beginLoadExchange p l).swp = p.swp ∧ (Part.beginLoadExchange p l).ed = p.ed ∧
    (Part.beginLoadExchange p l).rep = p.rep ∧ (Part.beginLoadExchange p l).free = p.free ∧
    (Part.beginLoadExchange p l).cmp.refreshSeat = p.cmp.refreshSeat ∧
    (Part.beginLoadExchange p l).cmp.refreshEnd = p.cmp.refreshEnd ∧
    (Part.beginLoadExchange p l).cmp.refreshDoor = p.cmp.refreshDoor ∧
    (Part.beginLoadExchange p l).cmp.comp = p.cmp.comp := by
  unfold Part.beginLoadExchange; split <;> simp

/-- What `Part.beginShowExchange` leaves as it was. -/
@[simp] theorem Part.beginShowExchange_keeps (p : Part) (l : Line) :
    (Part.beginShowExchange p l).mem = p.mem ∧ (Part.beginShowExchange p l).regs = p.regs ∧
    (Part.beginShowExchange p l).pins = p.pins ∧ (Part.beginShowExchange p l).spi = p.spi ∧
    (Part.beginShowExchange p l).odo = p.odo ∧ (Part.beginShowExchange p l).trk = p.trk ∧
    (Part.beginShowExchange p l).res = p.res ∧ (Part.beginShowExchange p l).ntc = p.ntc ∧
    (Part.beginShowExchange p l).cmp = p.cmp ∧ (Part.beginShowExchange p l).swp = p.swp ∧
    (Part.beginShowExchange p l).ed = p.ed ∧ (Part.beginShowExchange p l).rep = p.rep ∧
    (Part.beginShowExchange p l).free = p.free := by
  unfold Part.beginShowExchange; split <;> simp

/-- What `Part.beginBroadcast` leaves as it was. -/
@[simp] theorem Part.beginBroadcast_keeps (p : Part) (l : Line) :
    (Part.beginBroadcast p l).mem = p.mem ∧ (Part.beginBroadcast p l).regs = p.regs ∧
    (Part.beginBroadcast p l).pins = p.pins ∧ (Part.beginBroadcast p l).spi = p.spi ∧
    (Part.beginBroadcast p l).odo = p.odo ∧ (Part.beginBroadcast p l).trk = p.trk ∧
    (Part.beginBroadcast p l).res = p.res ∧ (Part.beginBroadcast p l).ntc = p.ntc ∧
    (Part.beginBroadcast p l).cmp = p.cmp ∧ (Part.beginBroadcast p l).swp = p.swp ∧
    (Part.beginBroadcast p l).ed = p.ed ∧ (Part.beginBroadcast p l).rep = p.rep ∧
    (Part.beginBroadcast p l).free = p.free := by
  unfold Part.beginBroadcast; split <;> simp

/-- What `Part.beginQuery` leaves as it was. -/
@[simp] theorem Part.beginQuery_keeps (p : Part) (l : Line) :
    (Part.beginQuery p l).mem = p.mem ∧ (Part.beginQuery p l).regs = p.regs ∧ (Part.beginQuery p l).pins = p.pins ∧
    (Part.beginQuery p l).spi = p.spi ∧ (Part.beginQuery p l).odo = p.odo ∧
    (Part.beginQuery p l).trk = p.trk ∧ (Part.beginQuery p l).res = p.res ∧ (Part.beginQuery p l).ntc = p.ntc ∧
    (Part.beginQuery p l).cmp = p.cmp ∧ (Part.beginQuery p l).swp = p.swp ∧ (Part.beginQuery p l).ed = p.ed ∧
    (Part.beginQuery p l).rep = p.rep ∧ (Part.beginQuery p l).free = p.free := by
  unfold Part.beginQuery; split <;> simp

/-- What `Part.closeRound` leaves as it was. -/
@[simp] theorem Part.closeRound_keeps (p : Part) (l : Line) (g : Nat) (full : Bool) :
    (Part.closeRound p l g full).mem = p.mem ∧ (Part.closeRound p l g full).regs = p.regs ∧
    (Part.closeRound p l g full).pins = p.pins ∧ (Part.closeRound p l g full).spi = p.spi ∧
    (Part.closeRound p l g full).odo = p.odo ∧ (Part.closeRound p l g full).trk = p.trk ∧
    (Part.closeRound p l g full).res = p.res ∧ (Part.closeRound p l g full).ntc = p.ntc ∧
    (Part.closeRound p l g full).cmp = p.cmp ∧ (Part.closeRound p l g full).swp = p.swp ∧
    (Part.closeRound p l g full).ed = p.ed ∧ (Part.closeRound p l g full).free = p.free ∧
    (Part.closeRound p l g full).rep.writing = p.rep.writing ∧
    (Part.closeRound p l g full).rep.boundaries = p.rep.boundaries := by
  simp [Part.closeRound]

/-- What `Part.frameSent` leaves as it was. -/
@[simp] theorem Part.frameSent_keeps (p : Part) (l : Line) :
    (Part.frameSent p l).mem = p.mem ∧ (Part.frameSent p l).regs = p.regs ∧ (Part.frameSent p l).pins = p.pins ∧
    (Part.frameSent p l).spi = p.spi ∧ (Part.frameSent p l).odo = p.odo ∧
    (Part.frameSent p l).trk = p.trk ∧ (Part.frameSent p l).res = p.res ∧ (Part.frameSent p l).ntc = p.ntc ∧
    (Part.frameSent p l).cmp = p.cmp ∧ (Part.frameSent p l).swp = p.swp ∧ (Part.frameSent p l).ed = p.ed ∧
    (Part.frameSent p l).free = p.free ∧ (Part.frameSent p l).rep.writing = p.rep.writing ∧
    (Part.frameSent p l).rep.boundaries = p.rep.boundaries := by
  refine ⟨?_, ?_, ?_, ?_, ?_, ?_, ?_, ?_, ?_, ?_, ?_, ?_, ?_, ?_⟩ <;>
    (unfold Part.frameSent; (repeat' split) <;> simp)

/-- What `Part.settleSlot` leaves as it was. -/
@[simp] theorem Part.settleSlot_keeps (p : Part) (l : Line) (a : Nat) (slot : Nat) (good : Bool) :
    (Part.settleSlot p l a slot good).mem = p.mem ∧ (Part.settleSlot p l a slot good).regs = p.regs ∧
    (Part.settleSlot p l a slot good).pins = p.pins ∧
    (Part.settleSlot p l a slot good).spi = p.spi ∧ (Part.settleSlot p l a slot good).odo = p.odo ∧
    (Part.settleSlot p l a slot good).trk = p.trk ∧ (Part.settleSlot p l a slot good).res = p.res ∧
    (Part.settleSlot p l a slot good).ntc = p.ntc ∧ (Part.settleSlot p l a slot good).lineSeat = p.lineSeat ∧
    (Part.settleSlot p l a slot good).lineEnd = p.lineEnd ∧ (Part.settleSlot p l a slot good).lineDoor = p.lineDoor ∧
    (Part.settleSlot p l a slot good).swp = p.swp ∧ (Part.settleSlot p l a slot good).ed = p.ed ∧
    (Part.settleSlot p l a slot good).rep = p.rep ∧ (Part.settleSlot p l a slot good).free = p.free ∧
    (Part.settleSlot p l a slot good).cmp.refreshSeat = p.cmp.refreshSeat ∧
    (Part.settleSlot p l a slot good).cmp.refreshEnd = p.cmp.refreshEnd ∧
    (Part.settleSlot p l a slot good).cmp.refreshDoor = p.cmp.refreshDoor ∧
    (Part.settleSlot p l a slot good).cmp.comp = p.cmp.comp := by
  simp [Part.settleSlot]

/-- What `Part.settleExchange` leaves as it was. -/
@[simp] theorem Part.settleExchange_keeps (p : Part) (l : Line) (x : Exchange) (good : Bool) :
    (Part.settleExchange p l x good).mem = p.mem ∧ (Part.settleExchange p l x good).regs = p.regs ∧
    (Part.settleExchange p l x good).pins = p.pins ∧ (Part.settleExchange p l x good).spi = p.spi ∧
    (Part.settleExchange p l x good).odo = p.odo ∧ (Part.settleExchange p l x good).trk = p.trk ∧
    (Part.settleExchange p l x good).res = p.res ∧ (Part.settleExchange p l x good).ntc = p.ntc ∧
    (Part.settleExchange p l x good).lineSeat = p.lineSeat ∧ (Part.settleExchange p l x good).lineEnd = p.lineEnd ∧
    (Part.settleExchange p l x good).lineDoor = p.lineDoor ∧ (Part.settleExchange p l x good).swp = p.swp ∧
    (Part.settleExchange p l x good).ed = p.ed ∧ (Part.settleExchange p l x good).rep = p.rep ∧
    (Part.settleExchange p l x good).free = p.free ∧
    (Part.settleExchange p l x good).cmp.refreshSeat = p.cmp.refreshSeat ∧
    (Part.settleExchange p l x good).cmp.refreshEnd = p.cmp.refreshEnd ∧
    (Part.settleExchange p l x good).cmp.refreshDoor = p.cmp.refreshDoor ∧
    (Part.settleExchange p l x good).cmp.comp = p.cmp.comp := by
  unfold Part.settleExchange; split <;> simp

/-- What `Part.healthChanged` leaves as it was. -/
@[simp] theorem Part.healthChanged_keeps (p : Part) (l : Line) (a : Nat) (before : Health) (after : Health) :
    (Part.healthChanged p l a before after).mem = p.mem ∧ (Part.healthChanged p l a before after).regs = p.regs ∧
    (Part.healthChanged p l a before after).pins = p.pins ∧
    (Part.healthChanged p l a before after).spi = p.spi ∧
    (Part.healthChanged p l a before after).odo = p.odo ∧ (Part.healthChanged p l a before after).trk = p.trk ∧
    (Part.healthChanged p l a before after).res = p.res ∧ (Part.healthChanged p l a before after).ntc = p.ntc ∧
    (Part.healthChanged p l a before after).swp = p.swp ∧ (Part.healthChanged p l a before after).ed = p.ed ∧
    (Part.healthChanged p l a before after).free = p.free ∧
    (Part.healthChanged p l a before after).cmp.slots = p.cmp.slots ∧
    (Part.healthChanged p l a before after).cmp.refreshSeat = p.cmp.refreshSeat ∧
    (Part.healthChanged p l a before after).cmp.refreshEnd = p.cmp.refreshEnd ∧
    (Part.healthChanged p l a before after).cmp.refreshDoor = p.cmp.refreshDoor ∧
    (Part.healthChanged p l a before after).cmp.comp = p.cmp.comp ∧
    (Part.healthChanged p l a before after).rep.writing = p.rep.writing ∧
    (Part.healthChanged p l a before after).rep.boundaries = p.rep.boundaries := by
  unfold Part.healthChanged; split <;> simp

/-- What `Part.endExchange` leaves as it was. -/
@[simp] theorem Part.endExchange_keeps (p : Part) (l : Line) (x : Exchange) (o : ExchangeOutcome) :
    (Part.endExchange p l x o).mem = p.mem ∧ (Part.endExchange p l x o).regs = p.regs ∧
    (Part.endExchange p l x o).pins = p.pins ∧ (Part.endExchange p l x o).spi = p.spi ∧
    (Part.endExchange p l x o).odo = p.odo ∧ (Part.endExchange p l x o).trk = p.trk ∧
    (Part.endExchange p l x o).res = p.res ∧ (Part.endExchange p l x o).ntc = p.ntc ∧
    (Part.endExchange p l x o).swp = p.swp ∧ (Part.endExchange p l x o).ed = p.ed ∧
    (Part.endExchange p l x o).free = p.free ∧ (Part.endExchange p l x o).cmp.refreshSeat = p.cmp.refreshSeat ∧
    (Part.endExchange p l x o).cmp.refreshEnd = p.cmp.refreshEnd ∧
    (Part.endExchange p l x o).cmp.refreshDoor = p.cmp.refreshDoor ∧
    (Part.endExchange p l x o).cmp.comp = p.cmp.comp ∧ (Part.endExchange p l x o).rep.writing = p.rep.writing ∧
    (Part.endExchange p l x o).rep.boundaries = p.rep.boundaries := by
  simp [Part.endExchange]

/-- What `Part.replyEnded` leaves as it was. -/
@[simp] theorem Part.replyEnded_keeps (p : Part) (l : Line) (cs : List RxChar) :
    (Part.replyEnded p l cs).mem = p.mem ∧ (Part.replyEnded p l cs).regs = p.regs ∧
    (Part.replyEnded p l cs).pins = p.pins ∧ (Part.replyEnded p l cs).spi = p.spi ∧
    (Part.replyEnded p l cs).odo = p.odo ∧ (Part.replyEnded p l cs).trk = p.trk ∧
    (Part.replyEnded p l cs).res = p.res ∧ (Part.replyEnded p l cs).ntc = p.ntc ∧
    (Part.replyEnded p l cs).swp = p.swp ∧ (Part.replyEnded p l cs).ed = p.ed ∧
    (Part.replyEnded p l cs).free = p.free ∧ (Part.replyEnded p l cs).cmp.refreshSeat = p.cmp.refreshSeat ∧
    (Part.replyEnded p l cs).cmp.refreshEnd = p.cmp.refreshEnd ∧
    (Part.replyEnded p l cs).cmp.refreshDoor = p.cmp.refreshDoor ∧ (Part.replyEnded p l cs).cmp.comp = p.cmp.comp ∧
    (Part.replyEnded p l cs).rep.writing = p.rep.writing ∧
    (Part.replyEnded p l cs).rep.boundaries = p.rep.boundaries := by
  refine ⟨?_, ?_, ?_, ?_, ?_, ?_, ?_, ?_, ?_, ?_, ?_, ?_, ?_, ?_, ?_, ?_, ?_⟩ <;>
    (unfold Part.replyEnded; (repeat' split) <;> simp)

/-- What `Part.lineProfile` leaves as it was. -/
@[simp] theorem Part.lineProfile_keeps (p : Part) (l : Line) :
    (Part.lineProfile p l).mem = p.mem ∧ (Part.lineProfile p l).regs = p.regs ∧ (Part.lineProfile p l).pins = p.pins ∧
    (Part.lineProfile p l).spi = p.spi ∧ (Part.lineProfile p l).odo = p.odo ∧
    (Part.lineProfile p l).trk = p.trk ∧ (Part.lineProfile p l).res = p.res ∧ (Part.lineProfile p l).ntc = p.ntc ∧
    (Part.lineProfile p l).cmp = p.cmp ∧ (Part.lineProfile p l).swp = p.swp ∧ (Part.lineProfile p l).ed = p.ed ∧
    (Part.lineProfile p l).rep = p.rep ∧ (Part.lineProfile p l).free = p.free := by
  unfold Part.lineProfile; split <;> simp

/-- What `Part.raiseBoundary` leaves as it was. -/
@[simp] theorem Part.raiseBoundary_keeps (p : Part) :
    (Part.raiseBoundary p).mem = p.mem ∧ (Part.raiseBoundary p).regs = p.regs ∧ (Part.raiseBoundary p).pins = p.pins ∧
    (Part.raiseBoundary p).spi = p.spi ∧ (Part.raiseBoundary p).odo = p.odo ∧
    (Part.raiseBoundary p).swp = p.swp ∧ (Part.raiseBoundary p).free = p.free ∧
    (Part.raiseBoundary p).ntc.active = p.ntc.active ∧ (Part.raiseBoundary p).ed.take = p.ed.take ∧
    (Part.raiseBoundary p).ed.seq = p.ed.seq ∧ (Part.raiseBoundary p).ed.run = p.ed.run ∧
    (Part.raiseBoundary p).ed.owed = p.ed.owed ∧ (Part.raiseBoundary p).cmp.slots = p.cmp.slots ∧
    (Part.raiseBoundary p).cmp.refreshSeat = p.cmp.refreshSeat ∧
    (Part.raiseBoundary p).cmp.refreshEnd = p.cmp.refreshEnd ∧
    (Part.raiseBoundary p).cmp.refreshDoor = p.cmp.refreshDoor ∧ (Part.raiseBoundary p).cmp.comp = p.cmp.comp ∧
    (Part.raiseBoundary p).trk.phase = p.trk.phase ∧ (Part.raiseBoundary p).trk.view = p.trk.view ∧
    (Part.raiseBoundary p).trk.load = p.trk.load ∧ (Part.raiseBoundary p).res.load = p.res.load ∧
    (Part.raiseBoundary p).ntc.load = p.ntc.load ∧ (Part.raiseBoundary p).ed.profile = p.ed.profile ∧
    (Part.raiseBoundary p).ed.stops = p.ed.stops ∧ (Part.raiseBoundary p).ed.reservations = p.ed.reservations ∧
    (Part.raiseBoundary p).ed.notices = p.ed.notices ∧ (Part.raiseBoundary p).ed.content = p.ed.content ∧
    (Part.raiseBoundary p).res.seats = p.res.seats ∧ (Part.raiseBoundary p).rep.writing = p.rep.writing ∧
    (Part.raiseBoundary p).trk.told = p.trk.told := by
  simp [Part.raiseBoundary]

/-- What `Part.makeBoundary` leaves as it was. -/
@[simp] theorem Part.makeBoundary_keeps (p : Part) (zeroMark : Bool) :
    (Part.makeBoundary p zeroMark).mem = p.mem ∧ (Part.makeBoundary p zeroMark).regs = p.regs ∧
    (Part.makeBoundary p zeroMark).pins = p.pins ∧ (Part.makeBoundary p zeroMark).spi = p.spi ∧
    (Part.makeBoundary p zeroMark).odo = p.odo ∧ (Part.makeBoundary p zeroMark).free = p.free ∧
    (Part.makeBoundary p zeroMark).ntc.active = p.ntc.active ∧ (Part.makeBoundary p zeroMark).ed.take = p.ed.take ∧
    (Part.makeBoundary p zeroMark).ed.seq = p.ed.seq ∧ (Part.makeBoundary p zeroMark).ed.run = p.ed.run ∧
    (Part.makeBoundary p zeroMark).ed.owed = p.ed.owed ∧ (Part.makeBoundary p zeroMark).cmp.slots = p.cmp.slots ∧
    (Part.makeBoundary p zeroMark).cmp.refreshSeat = p.cmp.refreshSeat ∧
    (Part.makeBoundary p zeroMark).cmp.refreshEnd = p.cmp.refreshEnd ∧
    (Part.makeBoundary p zeroMark).cmp.refreshDoor = p.cmp.refreshDoor ∧
    (Part.makeBoundary p zeroMark).cmp.comp = p.cmp.comp ∧ (Part.makeBoundary p zeroMark).trk.phase = p.trk.phase ∧
    (Part.makeBoundary p zeroMark).trk.view = p.trk.view ∧ (Part.makeBoundary p zeroMark).trk.load = p.trk.load ∧
    (Part.makeBoundary p zeroMark).res.load = p.res.load ∧ (Part.makeBoundary p zeroMark).ntc.load = p.ntc.load ∧
    (Part.makeBoundary p zeroMark).ed.profile = p.ed.profile ∧ (Part.makeBoundary p zeroMark).ed.stops = p.ed.stops ∧
    (Part.makeBoundary p zeroMark).ed.reservations = p.ed.reservations ∧
    (Part.makeBoundary p zeroMark).ed.notices = p.ed.notices ∧
    (Part.makeBoundary p zeroMark).ed.content = p.ed.content ∧
    (Part.makeBoundary p zeroMark).res.seats = p.res.seats ∧ (Part.makeBoundary p zeroMark).swp.us = p.swp.us ∧
    (Part.makeBoundary p zeroMark).swp.ms = p.swp.ms ∧ (Part.makeBoundary p zeroMark).rep.writing = p.rep.writing ∧
    (Part.makeBoundary p zeroMark).trk.told = p.trk.told := by
  refine ⟨?_, ?_, ?_, ?_, ?_, ?_, ?_, ?_, ?_, ?_, ?_, ?_, ?_, ?_, ?_, ?_, ?_, ?_, ?_, ?_, ?_, ?_, ?_, ?_, ?_, ?_, ?_, ?_, ?_, ?_, ?_⟩ <;>
    rfl

/-- What `Part.ownBoundary` leaves as it was. -/
@[simp] theorem Part.ownBoundary_keeps (p : Part) :
    (Part.ownBoundary p).mem = p.mem ∧ (Part.ownBoundary p).regs = p.regs ∧ (Part.ownBoundary p).pins = p.pins ∧
    (Part.ownBoundary p).spi = p.spi ∧ (Part.ownBoundary p).odo = p.odo ∧
    (Part.ownBoundary p).free = p.free ∧ (Part.ownBoundary p).ntc.active = p.ntc.active ∧
    (Part.ownBoundary p).ed.take = p.ed.take ∧ (Part.ownBoundary p).ed.seq = p.ed.seq ∧
    (Part.ownBoundary p).ed.run = p.ed.run ∧ (Part.ownBoundary p).ed.owed = p.ed.owed ∧
    (Part.ownBoundary p).cmp.slots = p.cmp.slots ∧ (Part.ownBoundary p).cmp.refreshSeat = p.cmp.refreshSeat ∧
    (Part.ownBoundary p).cmp.refreshEnd = p.cmp.refreshEnd ∧
    (Part.ownBoundary p).cmp.refreshDoor = p.cmp.refreshDoor ∧ (Part.ownBoundary p).cmp.comp = p.cmp.comp ∧
    (Part.ownBoundary p).trk.phase = p.trk.phase ∧ (Part.ownBoundary p).trk.view = p.trk.view ∧
    (Part.ownBoundary p).trk.load = p.trk.load ∧ (Part.ownBoundary p).res.load = p.res.load ∧
    (Part.ownBoundary p).ntc.load = p.ntc.load ∧ (Part.ownBoundary p).ed.profile = p.ed.profile ∧
    (Part.ownBoundary p).ed.stops = p.ed.stops ∧ (Part.ownBoundary p).ed.reservations = p.ed.reservations ∧
    (Part.ownBoundary p).ed.notices = p.ed.notices ∧ (Part.ownBoundary p).ed.content = p.ed.content ∧
    (Part.ownBoundary p).res.seats = p.res.seats ∧ (Part.ownBoundary p).swp.us = p.swp.us ∧
    (Part.ownBoundary p).swp.ms = p.swp.ms ∧ (Part.ownBoundary p).rep.writing = p.rep.writing ∧
    (Part.ownBoundary p).trk.told = p.trk.told := by
  unfold Part.ownBoundary; split <;> simp

/-- What `Part.tsyncRise` leaves as it was. -/
@[simp] theorem Part.tsyncRise_keeps (p : Part) :
    (Part.tsyncRise p).mem = p.mem ∧ (Part.tsyncRise p).regs = p.regs ∧
    (Part.tsyncRise p).spi = p.spi ∧ (Part.tsyncRise p).odo = p.odo ∧
    (Part.tsyncRise p).trk = p.trk ∧ (Part.tsyncRise p).res = p.res ∧ (Part.tsyncRise p).ntc = p.ntc ∧
    (Part.tsyncRise p).cmp = p.cmp ∧ (Part.tsyncRise p).lineSeat = p.lineSeat ∧
    (Part.tsyncRise p).lineEnd = p.lineEnd ∧ (Part.tsyncRise p).lineDoor = p.lineDoor ∧ (Part.tsyncRise p).ed = p.ed ∧
    (Part.tsyncRise p).rep = p.rep ∧ (Part.tsyncRise p).free = p.free ∧ (Part.tsyncRise p).swp.us = p.swp.us ∧
    (Part.tsyncRise p).swp.ms = p.swp.ms := by
  refine ⟨?_, ?_, ?_, ?_, ?_, ?_, ?_, ?_, ?_, ?_, ?_, ?_, ?_, ?_, ?_, ?_⟩ <;>
    (unfold Part.tsyncRise; dsimp only; (repeat' split) <;> simp)

/-- What `Part.followPulse` leaves as it was. -/
@[simp] theorem Part.followPulse_keeps (p : Part) (zeroMark : Bool) :
    (Part.followPulse p zeroMark).mem = p.mem ∧ (Part.followPulse p zeroMark).regs = p.regs ∧
    (Part.followPulse p zeroMark).pins = p.pins ∧ (Part.followPulse p zeroMark).spi = p.spi ∧
    (Part.followPulse p zeroMark).odo = p.odo ∧ (Part.followPulse p zeroMark).free = p.free ∧
    (Part.followPulse p zeroMark).ntc.active = p.ntc.active ∧ (Part.followPulse p zeroMark).ed.take = p.ed.take ∧
    (Part.followPulse p zeroMark).ed.seq = p.ed.seq ∧ (Part.followPulse p zeroMark).ed.run = p.ed.run ∧
    (Part.followPulse p zeroMark).ed.owed = p.ed.owed ∧ (Part.followPulse p zeroMark).cmp.slots = p.cmp.slots ∧
    (Part.followPulse p zeroMark).cmp.refreshSeat = p.cmp.refreshSeat ∧
    (Part.followPulse p zeroMark).cmp.refreshEnd = p.cmp.refreshEnd ∧
    (Part.followPulse p zeroMark).cmp.refreshDoor = p.cmp.refreshDoor ∧
    (Part.followPulse p zeroMark).cmp.comp = p.cmp.comp ∧ (Part.followPulse p zeroMark).trk.phase = p.trk.phase ∧
    (Part.followPulse p zeroMark).trk.view = p.trk.view ∧ (Part.followPulse p zeroMark).trk.load = p.trk.load ∧
    (Part.followPulse p zeroMark).res.load = p.res.load ∧ (Part.followPulse p zeroMark).ntc.load = p.ntc.load ∧
    (Part.followPulse p zeroMark).ed.profile = p.ed.profile ∧ (Part.followPulse p zeroMark).ed.stops = p.ed.stops ∧
    (Part.followPulse p zeroMark).ed.reservations = p.ed.reservations ∧
    (Part.followPulse p zeroMark).ed.notices = p.ed.notices ∧
    (Part.followPulse p zeroMark).ed.content = p.ed.content ∧ (Part.followPulse p zeroMark).res.seats = p.res.seats ∧
    (Part.followPulse p zeroMark).rep.writing = p.rep.writing ∧
    (Part.followPulse p zeroMark).trk.told = p.trk.told := by
  refine ⟨?_, ?_, ?_, ?_, ?_, ?_, ?_, ?_, ?_, ?_, ?_, ?_, ?_, ?_, ?_, ?_, ?_, ?_, ?_, ?_, ?_, ?_, ?_, ?_, ?_, ?_, ?_, ?_, ?_⟩ <;>
    (unfold Part.followPulse; (repeat' split) <;> simp)

/-- What `Part.regain` leaves as it was. -/
@[simp] theorem Part.regain_keeps (p : Part) :
    (Part.regain p).mem = p.mem ∧ (Part.regain p).regs = p.regs ∧ (Part.regain p).pins = p.pins ∧
    (Part.regain p).spi = p.spi ∧ (Part.regain p).odo = p.odo ∧ (Part.regain p).trk = p.trk ∧
    (Part.regain p).res = p.res ∧ (Part.regain p).ntc = p.ntc ∧ (Part.regain p).cmp = p.cmp ∧
    (Part.regain p).lineSeat = p.lineSeat ∧ (Part.regain p).lineEnd = p.lineEnd ∧
    (Part.regain p).lineDoor = p.lineDoor ∧ (Part.regain p).ed = p.ed ∧ (Part.regain p).free = p.free ∧
    (Part.regain p).swp.us = p.swp.us ∧ (Part.regain p).swp.ms = p.swp.ms ∧
    (Part.regain p).rep.writing = p.rep.writing ∧ (Part.regain p).rep.boundaries = p.rep.boundaries := by
  unfold Part.regain; split <;> simp

/-- What `Part.validPulse` leaves as it was. -/
@[simp] theorem Part.validPulse_keeps (p : Part) (zeroMark : Bool) :
    (Part.validPulse p zeroMark).mem = p.mem ∧ (Part.validPulse p zeroMark).regs = p.regs ∧
    (Part.validPulse p zeroMark).pins = p.pins ∧ (Part.validPulse p zeroMark).spi = p.spi ∧
    (Part.validPulse p zeroMark).odo = p.odo ∧ (Part.validPulse p zeroMark).free = p.free ∧
    (Part.validPulse p zeroMark).ntc.active = p.ntc.active ∧ (Part.validPulse p zeroMark).ed.take = p.ed.take ∧
    (Part.validPulse p zeroMark).ed.seq = p.ed.seq ∧ (Part.validPulse p zeroMark).ed.run = p.ed.run ∧
    (Part.validPulse p zeroMark).ed.owed = p.ed.owed ∧ (Part.validPulse p zeroMark).cmp.slots = p.cmp.slots ∧
    (Part.validPulse p zeroMark).cmp.refreshSeat = p.cmp.refreshSeat ∧
    (Part.validPulse p zeroMark).cmp.refreshEnd = p.cmp.refreshEnd ∧
    (Part.validPulse p zeroMark).cmp.refreshDoor = p.cmp.refreshDoor ∧
    (Part.validPulse p zeroMark).cmp.comp = p.cmp.comp ∧ (Part.validPulse p zeroMark).trk.phase = p.trk.phase ∧
    (Part.validPulse p zeroMark).trk.view = p.trk.view ∧ (Part.validPulse p zeroMark).trk.load = p.trk.load ∧
    (Part.validPulse p zeroMark).res.load = p.res.load ∧ (Part.validPulse p zeroMark).ntc.load = p.ntc.load ∧
    (Part.validPulse p zeroMark).ed.profile = p.ed.profile ∧ (Part.validPulse p zeroMark).ed.stops = p.ed.stops ∧
    (Part.validPulse p zeroMark).ed.reservations = p.ed.reservations ∧
    (Part.validPulse p zeroMark).ed.notices = p.ed.notices ∧ (Part.validPulse p zeroMark).ed.content = p.ed.content ∧
    (Part.validPulse p zeroMark).res.seats = p.res.seats ∧ (Part.validPulse p zeroMark).rep.writing = p.rep.writing ∧
    (Part.validPulse p zeroMark).trk.told = p.trk.told := by
  simp [Part.validPulse]

/-- What `Part.pulseEnds` leaves as it was. -/
@[simp] theorem Part.pulseEnds_keeps (p : Part) (width : Nat) :
    (Part.pulseEnds p width).mem = p.mem ∧ (Part.pulseEnds p width).regs = p.regs ∧
    (Part.pulseEnds p width).pins = p.pins ∧ (Part.pulseEnds p width).spi = p.spi ∧
    (Part.pulseEnds p width).odo = p.odo ∧ (Part.pulseEnds p width).free = p.free ∧
    (Part.pulseEnds p width).ntc.active = p.ntc.active ∧ (Part.pulseEnds p width).ed.take = p.ed.take ∧
    (Part.pulseEnds p width).ed.seq = p.ed.seq ∧ (Part.pulseEnds p width).ed.run = p.ed.run ∧
    (Part.pulseEnds p width).ed.owed = p.ed.owed ∧ (Part.pulseEnds p width).cmp.slots = p.cmp.slots ∧
    (Part.pulseEnds p width).cmp.refreshSeat = p.cmp.refreshSeat ∧
    (Part.pulseEnds p width).cmp.refreshEnd = p.cmp.refreshEnd ∧
    (Part.pulseEnds p width).cmp.refreshDoor = p.cmp.refreshDoor ∧ (Part.pulseEnds p width).cmp.comp = p.cmp.comp ∧
    (Part.pulseEnds p width).trk.phase = p.trk.phase ∧ (Part.pulseEnds p width).trk.view = p.trk.view ∧
    (Part.pulseEnds p width).trk.load = p.trk.load ∧ (Part.pulseEnds p width).res.load = p.res.load ∧
    (Part.pulseEnds p width).ntc.load = p.ntc.load ∧ (Part.pulseEnds p width).ed.profile = p.ed.profile ∧
    (Part.pulseEnds p width).ed.stops = p.ed.stops ∧ (Part.pulseEnds p width).ed.reservations = p.ed.reservations ∧
    (Part.pulseEnds p width).ed.notices = p.ed.notices ∧ (Part.pulseEnds p width).ed.content = p.ed.content ∧
    (Part.pulseEnds p width).res.seats = p.res.seats ∧ (Part.pulseEnds p width).rep.writing = p.rep.writing ∧
    (Part.pulseEnds p width).trk.told = p.trk.told := by
  unfold Part.pulseEnds; split <;> simp

/-- What `Part.tsyncFall` leaves as it was. -/
@[simp] theorem Part.tsyncFall_keeps (p : Part) :
    (Part.tsyncFall p).mem = p.mem ∧ (Part.tsyncFall p).regs = p.regs ∧
    (Part.tsyncFall p).spi = p.spi ∧ (Part.tsyncFall p).odo = p.odo ∧
    (Part.tsyncFall p).free = p.free ∧ (Part.tsyncFall p).ntc.active = p.ntc.active ∧
    (Part.tsyncFall p).ed.take = p.ed.take ∧ (Part.tsyncFall p).ed.seq = p.ed.seq ∧
    (Part.tsyncFall p).ed.run = p.ed.run ∧ (Part.tsyncFall p).ed.owed = p.ed.owed ∧
    (Part.tsyncFall p).cmp.slots = p.cmp.slots ∧ (Part.tsyncFall p).cmp.refreshSeat = p.cmp.refreshSeat ∧
    (Part.tsyncFall p).cmp.refreshEnd = p.cmp.refreshEnd ∧ (Part.tsyncFall p).cmp.refreshDoor = p.cmp.refreshDoor ∧
    (Part.tsyncFall p).cmp.comp = p.cmp.comp ∧ (Part.tsyncFall p).trk.phase = p.trk.phase ∧
    (Part.tsyncFall p).trk.view = p.trk.view ∧ (Part.tsyncFall p).trk.load = p.trk.load ∧
    (Part.tsyncFall p).res.load = p.res.load ∧ (Part.tsyncFall p).ntc.load = p.ntc.load ∧
    (Part.tsyncFall p).ed.profile = p.ed.profile ∧ (Part.tsyncFall p).ed.stops = p.ed.stops ∧
    (Part.tsyncFall p).ed.reservations = p.ed.reservations ∧ (Part.tsyncFall p).ed.notices = p.ed.notices ∧
    (Part.tsyncFall p).ed.content = p.ed.content ∧ (Part.tsyncFall p).res.seats = p.res.seats ∧
    (Part.tsyncFall p).rep.writing = p.rep.writing ∧ (Part.tsyncFall p).trk.told = p.trk.told := by
  refine ⟨?_, ?_, ?_, ?_, ?_, ?_, ?_, ?_, ?_, ?_, ?_, ?_, ?_, ?_, ?_, ?_, ?_, ?_, ?_, ?_, ?_, ?_, ?_, ?_, ?_, ?_, ?_, ?_⟩ <;>
    (unfold Part.tsyncFall; dsimp only; (repeat' split) <;> simp)

/-- What `Part.loseLeader` leaves as it was. -/
@[simp] theorem Part.loseLeader_keeps (p : Part) :
    (Part.loseLeader p).mem = p.mem ∧ (Part.loseLeader p).regs = p.regs ∧ (Part.loseLeader p).pins = p.pins ∧
    (Part.loseLeader p).spi = p.spi ∧ (Part.loseLeader p).odo = p.odo ∧
    (Part.loseLeader p).free = p.free ∧ (Part.loseLeader p).ntc.active = p.ntc.active ∧
    (Part.loseLeader p).ed.take = p.ed.take ∧ (Part.loseLeader p).ed.seq = p.ed.seq ∧
    (Part.loseLeader p).ed.run = p.ed.run ∧ (Part.loseLeader p).ed.owed = p.ed.owed ∧
    (Part.loseLeader p).cmp.slots = p.cmp.slots ∧ (Part.loseLeader p).cmp.refreshSeat = p.cmp.refreshSeat ∧
    (Part.loseLeader p).cmp.refreshEnd = p.cmp.refreshEnd ∧ (Part.loseLeader p).cmp.refreshDoor = p.cmp.refreshDoor ∧
    (Part.loseLeader p).cmp.comp = p.cmp.comp ∧ (Part.loseLeader p).trk.phase = p.trk.phase ∧
    (Part.loseLeader p).trk.view = p.trk.view ∧ (Part.loseLeader p).trk.load = p.trk.load ∧
    (Part.loseLeader p).res.load = p.res.load ∧ (Part.loseLeader p).ntc.load = p.ntc.load ∧
    (Part.loseLeader p).ed.profile = p.ed.profile ∧ (Part.loseLeader p).ed.stops = p.ed.stops ∧
    (Part.loseLeader p).ed.reservations = p.ed.reservations ∧ (Part.loseLeader p).ed.notices = p.ed.notices ∧
    (Part.loseLeader p).ed.content = p.ed.content ∧ (Part.loseLeader p).res.seats = p.res.seats ∧
    (Part.loseLeader p).swp.us = p.swp.us ∧ (Part.loseLeader p).swp.ms = p.swp.ms ∧
    (Part.loseLeader p).rep.writing = p.rep.writing ∧ (Part.loseLeader p).trk.told = p.trk.told := by
  unfold Part.loseLeader; split <;> simp

/-- What `Part.sweepProfile` leaves as it was. -/
@[simp] theorem Part.sweepProfile_keeps (p : Part) :
    (Part.sweepProfile p).mem = p.mem ∧ (Part.sweepProfile p).regs = p.regs ∧ (Part.sweepProfile p).pins = p.pins ∧
    (Part.sweepProfile p).spi = p.spi ∧ (Part.sweepProfile p).odo = p.odo ∧
    (Part.sweepProfile p).free = p.free ∧ (Part.sweepProfile p).ntc.active = p.ntc.active ∧
    (Part.sweepProfile p).ed.take = p.ed.take ∧ (Part.sweepProfile p).ed.seq = p.ed.seq ∧
    (Part.sweepProfile p).ed.run = p.ed.run ∧ (Part.sweepProfile p).ed.owed = p.ed.owed ∧
    (Part.sweepProfile p).cmp.slots = p.cmp.slots ∧ (Part.sweepProfile p).cmp.refreshSeat = p.cmp.refreshSeat ∧
    (Part.sweepProfile p).cmp.refreshEnd = p.cmp.refreshEnd ∧
    (Part.sweepProfile p).cmp.refreshDoor = p.cmp.refreshDoor ∧ (Part.sweepProfile p).cmp.comp = p.cmp.comp ∧
    (Part.sweepProfile p).trk.phase = p.trk.phase ∧ (Part.sweepProfile p).trk.view = p.trk.view ∧
    (Part.sweepProfile p).trk.load = p.trk.load ∧ (Part.sweepProfile p).res.load = p.res.load ∧
    (Part.sweepProfile p).ntc.load = p.ntc.load ∧ (Part.sweepProfile p).ed.profile = p.ed.profile ∧
    (Part.sweepProfile p).ed.stops = p.ed.stops ∧ (Part.sweepProfile p).ed.reservations = p.ed.reservations ∧
    (Part.sweepProfile p).ed.notices = p.ed.notices ∧ (Part.sweepProfile p).ed.content = p.ed.content ∧
    (Part.sweepProfile p).res.seats = p.res.seats ∧ (Part.sweepProfile p).rep.writing = p.rep.writing ∧
    (Part.sweepProfile p).trk.told = p.trk.told := by
  unfold Part.sweepProfile; split <;> simp

/-- What `Part.sweepRun` leaves as it was. -/
@[simp] theorem Part.sweepRun_keeps (p : Part) :
    (Part.sweepRun p).mem = p.mem ∧ (Part.sweepRun p).regs = p.regs ∧ (Part.sweepRun p).pins = p.pins ∧
    (Part.sweepRun p).spi = p.spi ∧ (Part.sweepRun p).odo = p.odo ∧
    (Part.sweepRun p).free = p.free ∧ (Part.sweepRun p).ntc.active = p.ntc.active ∧
    (Part.sweepRun p).ed.take = p.ed.take ∧ (Part.sweepRun p).ed.seq = p.ed.seq ∧
    (Part.sweepRun p).ed.run = p.ed.run ∧ (Part.sweepRun p).ed.owed = p.ed.owed ∧
    (Part.sweepRun p).cmp.slots = p.cmp.slots ∧ (Part.sweepRun p).cmp.refreshSeat = p.cmp.refreshSeat ∧
    (Part.sweepRun p).cmp.refreshEnd = p.cmp.refreshEnd ∧ (Part.sweepRun p).cmp.refreshDoor = p.cmp.refreshDoor ∧
    (Part.sweepRun p).cmp.comp = p.cmp.comp ∧ (Part.sweepRun p).trk.phase = p.trk.phase ∧
    (Part.sweepRun p).trk.view = p.trk.view ∧ (Part.sweepRun p).trk.load = p.trk.load ∧
    (Part.sweepRun p).res.load = p.res.load ∧ (Part.sweepRun p).ntc.load = p.ntc.load ∧
    (Part.sweepRun p).ed.profile = p.ed.profile ∧ (Part.sweepRun p).ed.stops = p.ed.stops ∧
    (Part.sweepRun p).ed.reservations = p.ed.reservations ∧ (Part.sweepRun p).ed.notices = p.ed.notices ∧
    (Part.sweepRun p).ed.content = p.ed.content ∧ (Part.sweepRun p).res.seats = p.res.seats ∧
    (Part.sweepRun p).swp.us = p.swp.us ∧ (Part.sweepRun p).swp.ms = p.swp.ms ∧
    (Part.sweepRun p).rep.writing = p.rep.writing ∧ (Part.sweepRun p).trk.told = p.trk.told := by
  unfold Part.sweepRun; split <;> simp

end Sys2Proof.Machine
end

