-- ==== Sys2Proof/Laws/FrameWindow.lean ====
section
/-! SUPPORT. Frames: what the operations of the edition unit, the report unit and the registers leave as it was. -/

namespace Sys2Proof.Machine

/-- What `Part.resultWrite` leaves as it was. -/
@[simp] theorem Part.resultWrite_keeps (p : Part) (bus : Bus) (slot : Nat) (code : Nat) :
    (Part.resultWrite p bus slot code).regs = p.regs ∧ (Part.resultWrite p bus slot code).pins = p.pins ∧
    (Part.resultWrite p bus slot code).spi = p.spi ∧
    (Part.resultWrite p bus slot code).odo = p.odo ∧ (Part.resultWrite p bus slot code).trk = p.trk ∧
    (Part.resultWrite p bus slot code).res = p.res ∧ (Part.resultWrite p bus slot code).ntc = p.ntc ∧
    (Part.resultWrite p bus slot code).cmp = p.cmp ∧ (Part.resultWrite p bus slot code).lineSeat = p.lineSeat ∧
    (Part.resultWrite p bus slot code).lineEnd = p.lineEnd ∧
    (Part.resultWrite p bus slot code).lineDoor = p.lineDoor ∧ (Part.resultWrite p bus slot code).swp = p.swp ∧
    (Part.resultWrite p bus slot code).ed = p.ed ∧ (Part.resultWrite p bus slot code).free = p.free ∧
    (Part.resultWrite p bus slot code).rep.writing = p.rep.writing ∧
    (Part.resultWrite p bus slot code).rep.boundaries = p.rep.boundaries := by
  unfold Part.resultWrite; split <;> simp

/-- What `Part.advanceTake` leaves as it was. -/
@[simp] theorem Part.advanceTake_keeps (p : Part) (bus : Bus) :
    (Part.advanceTake p bus).regs = p.regs ∧ (Part.advanceTake p bus).pins = p.pins ∧
    (Part.advanceTake p bus).spi = p.spi ∧ (Part.advanceTake p bus).odo = p.odo ∧
    (Part.advanceTake p bus).trk = p.trk ∧ (Part.advanceTake p bus).res = p.res ∧
    (Part.advanceTake p bus).ntc = p.ntc ∧ (Part.advanceTake p bus).cmp = p.cmp ∧
    (Part.advanceTake p bus).lineSeat = p.lineSeat ∧ (Part.advanceTake p bus).lineEnd = p.lineEnd ∧
    (Part.advanceTake p bus).lineDoor = p.lineDoor ∧ (Part.advanceTake p bus).swp = p.swp ∧
    (Part.advanceTake p bus).free = p.free ∧ (Part.advanceTake p bus).ed.boundary = p.ed.boundary ∧
    (Part.advanceTake p bus).ed.run = p.ed.run ∧ (Part.advanceTake p bus).ed.owed = p.ed.owed ∧
    (Part.advanceTake p bus).ed.profile = p.ed.profile ∧ (Part.advanceTake p bus).ed.stops = p.ed.stops ∧
    (Part.advanceTake p bus).ed.reservations = p.ed.reservations ∧
    (Part.advanceTake p bus).ed.notices = p.ed.notices ∧ (Part.advanceTake p bus).ed.content = p.ed.content ∧
    (Part.advanceTake p bus).rep.writing = p.rep.writing ∧
    (Part.advanceTake p bus).rep.boundaries = p.rep.boundaries := by
  simp [Part.advanceTake]

/-- What `Part.takeRecord` leaves as it was. -/
@[simp] theorem Part.takeRecord_keeps (p : Part) (bus : Bus) (slot : Nat) (r : AmendResult) :
    (Part.takeRecord p bus slot r).regs = p.regs ∧ (Part.takeRecord p bus slot r).pins = p.pins ∧
    (Part.takeRecord p bus slot r).spi = p.spi ∧ (Part.takeRecord p bus slot r).odo = p.odo ∧
    (Part.takeRecord p bus slot r).trk = p.trk ∧ (Part.takeRecord p bus slot r).res = p.res ∧
    (Part.takeRecord p bus slot r).ntc = p.ntc ∧ (Part.takeRecord p bus slot r).cmp = p.cmp ∧
    (Part.takeRecord p bus slot r).lineSeat = p.lineSeat ∧ (Part.takeRecord p bus slot r).lineEnd = p.lineEnd ∧
    (Part.takeRecord p bus slot r).lineDoor = p.lineDoor ∧ (Part.takeRecord p bus slot r).swp = p.swp ∧
    (Part.takeRecord p bus slot r).free = p.free ∧ (Part.takeRecord p bus slot r).ed.boundary = p.ed.boundary ∧
    (Part.takeRecord p bus slot r).ed.run = p.ed.run ∧ (Part.takeRecord p bus slot r).ed.owed = p.ed.owed ∧
    (Part.takeRecord p bus slot r).ed.profile = p.ed.profile ∧ (Part.takeRecord p bus slot r).ed.stops = p.ed.stops ∧
    (Part.takeRecord p bus slot r).ed.reservations = p.ed.reservations ∧
    (Part.takeRecord p bus slot r).ed.notices = p.ed.notices ∧
    (Part.takeRecord p bus slot r).ed.content = p.ed.content ∧
    (Part.takeRecord p bus slot r).rep.writing = p.rep.writing ∧
    (Part.takeRecord p bus slot r).rep.boundaries = p.rep.boundaries := by
  simp [Part.takeRecord]

/-- What `Part.handPosition` leaves as it was. -/
@[simp] theorem Part.handPosition_keeps (p : Part) (bus : Bus) (head : List Byte) :
    (Part.handPosition p bus head).regs = p.regs ∧ (Part.handPosition p bus head).pins = p.pins ∧
    (Part.handPosition p bus head).spi = p.spi ∧ (Part.handPosition p bus head).odo = p.odo ∧
    (Part.handPosition p bus head).res = p.res ∧ (Part.handPosition p bus head).ntc = p.ntc ∧
    (Part.handPosition p bus head).cmp = p.cmp ∧ (Part.handPosition p bus head).lineSeat = p.lineSeat ∧
    (Part.handPosition p bus head).lineEnd = p.lineEnd ∧ (Part.handPosition p bus head).lineDoor = p.lineDoor ∧
    (Part.handPosition p bus head).swp = p.swp ∧ (Part.handPosition p bus head).free = p.free ∧
    (Part.handPosition p bus head).ed.take = p.ed.take ∧ (Part.handPosition p bus head).ed.boundary = p.ed.boundary ∧
    (Part.handPosition p bus head).ed.run = p.ed.run ∧ (Part.handPosition p bus head).ed.owed = p.ed.owed ∧
    (Part.handPosition p bus head).trk.phase = p.trk.phase ∧ (Part.handPosition p bus head).trk.view = p.trk.view ∧
    (Part.handPosition p bus head).trk.load = p.trk.load ∧ (Part.handPosition p bus head).ed.profile = p.ed.profile ∧
    (Part.handPosition p bus head).ed.stops = p.ed.stops ∧
    (Part.handPosition p bus head).ed.reservations = p.ed.reservations ∧
    (Part.handPosition p bus head).ed.notices = p.ed.notices ∧
    (Part.handPosition p bus head).ed.content = p.ed.content ∧
    (Part.handPosition p bus head).rep.writing = p.rep.writing ∧
    (Part.handPosition p bus head).rep.boundaries = p.rep.boundaries ∧
    (Part.handPosition p bus head).trk.told = p.trk.told := by
  refine ⟨?_, ?_, ?_, ?_, ?_, ?_, ?_, ?_, ?_, ?_, ?_, ?_, ?_, ?_, ?_, ?_, ?_, ?_, ?_, ?_, ?_, ?_, ?_, ?_, ?_, ?_, ?_⟩ <;>
    (unfold Part.handPosition; (repeat' split) <;> simp)

/-- What `Part.startRun` leaves as it was. -/
@[simp] theorem Part.startRun_keeps (p : Part) (list : Nat) (post : Nat) :
    (Part.startRun p list post).mem = p.mem ∧ (Part.startRun p list post).regs = p.regs ∧
    (Part.startRun p list post).pins = p.pins ∧ (Part.startRun p list post).spi = p.spi ∧
    (Part.startRun p list post).odo = p.odo ∧ (Part.startRun p list post).trk = p.trk ∧
    (Part.startRun p list post).res = p.res ∧ (Part.startRun p list post).ntc = p.ntc ∧
    (Part.startRun p list post).cmp = p.cmp ∧ (Part.startRun p list post).lineSeat = p.lineSeat ∧
    (Part.startRun p list post).lineEnd = p.lineEnd ∧ (Part.startRun p list post).lineDoor = p.lineDoor ∧
    (Part.startRun p list post).swp = p.swp ∧ (Part.startRun p list post).rep = p.rep ∧
    (Part.startRun p list post).free = p.free ∧ (Part.startRun p list post).ed.take = p.ed.take ∧
    (Part.startRun p list post).ed.seq = p.ed.seq ∧ (Part.startRun p list post).ed.boundary = p.ed.boundary ∧
    (Part.startRun p list post).ed.owed = p.ed.owed ∧ (Part.startRun p list post).ed.profile = p.ed.profile ∧
    (Part.startRun p list post).ed.stops = p.ed.stops ∧
    (Part.startRun p list post).ed.reservations = p.ed.reservations ∧
    (Part.startRun p list post).ed.notices = p.ed.notices ∧
    (Part.startRun p list post).ed.content = p.ed.content := by
  refine ⟨?_, ?_, ?_, ?_, ?_, ?_, ?_, ?_, ?_, ?_, ?_, ?_, ?_, ?_, ?_, ?_, ?_, ?_, ?_, ?_, ?_, ?_, ?_, ?_⟩ <;>
    (unfold Part.startRun; (repeat' split) <;> simp)

/-- What `Part.examineList` leaves as it was. -/
@[simp] theorem Part.examineList_keeps (p : Part) (head : List Byte) :
    (Part.examineList p head).mem = p.mem ∧ (Part.examineList p head).regs = p.regs ∧
    (Part.examineList p head).pins = p.pins ∧ (Part.examineList p head).spi = p.spi ∧
    (Part.examineList p head).odo = p.odo ∧ (Part.examineList p head).trk = p.trk ∧
    (Part.examineList p head).res = p.res ∧ (Part.examineList p head).ntc = p.ntc ∧
    (Part.examineList p head).cmp = p.cmp ∧ (Part.examineList p head).lineSeat = p.lineSeat ∧
    (Part.examineList p head).lineEnd = p.lineEnd ∧ (Part.examineList p head).lineDoor = p.lineDoor ∧
    (Part.examineList p head).swp = p.swp ∧ (Part.examineList p head).free = p.free ∧
    (Part.examineList p head).ed.take = p.ed.take ∧ (Part.examineList p head).ed.seq = p.ed.seq ∧
    (Part.examineList p head).ed.boundary = p.ed.boundary ∧ (Part.examineList p head).ed.owed = p.ed.owed ∧
    (Part.examineList p head).ed.profile = p.ed.profile ∧ (Part.examineList p head).ed.stops = p.ed.stops ∧
    (Part.examineList p head).ed.reservations = p.ed.reservations ∧
    (Part.examineList p head).ed.notices = p.ed.notices ∧ (Part.examineList p head).ed.content = p.ed.content ∧
    (Part.examineList p head).rep.writing = p.rep.writing ∧
    (Part.examineList p head).rep.boundaries = p.rep.boundaries := by
  refine ⟨?_, ?_, ?_, ?_, ?_, ?_, ?_, ?_, ?_, ?_, ?_, ?_, ?_, ?_, ?_, ?_, ?_, ?_, ?_, ?_, ?_, ?_, ?_, ?_, ?_⟩ <;>
    (unfold Part.examineList; dsimp only; (repeat' split) <;> simp)

/-- What `Part.handProfile` leaves as it was. -/
@[simp] theorem Part.handProfile_keeps (p : Part) (f : Profile) :
    (Part.handProfile p f).mem = p.mem ∧ (Part.handProfile p f).regs = p.regs ∧ (Part.handProfile p f).pins = p.pins ∧
    (Part.handProfile p f).spi = p.spi ∧ (Part.handProfile p f).ed = p.ed ∧
    (Part.handProfile p f).rep = p.rep ∧ (Part.handProfile p f).free = p.free ∧
    (Part.handProfile p f).odo.legDistance = p.odo.legDistance ∧ (Part.handProfile p f).odo.marks = p.odo.marks ∧
    (Part.handProfile p f).ntc.active = p.ntc.active ∧ (Part.handProfile p f).cmp.slots = p.cmp.slots ∧
    (Part.handProfile p f).cmp.refreshSeat = p.cmp.refreshSeat ∧
    (Part.handProfile p f).cmp.refreshEnd = p.cmp.refreshEnd ∧
    (Part.handProfile p f).cmp.refreshDoor = p.cmp.refreshDoor ∧ (Part.handProfile p f).cmp.comp = p.cmp.comp ∧
    (Part.handProfile p f).trk.phase = p.trk.phase ∧ (Part.handProfile p f).trk.view = p.trk.view ∧
    (Part.handProfile p f).trk.load = p.trk.load ∧ (Part.handProfile p f).res.load = p.res.load ∧
    (Part.handProfile p f).ntc.load = p.ntc.load ∧ (Part.handProfile p f).res.seats = p.res.seats ∧
    (Part.handProfile p f).swp.us = p.swp.us ∧ (Part.handProfile p f).swp.ms = p.swp.ms ∧
    (Part.handProfile p f).trk.told = p.trk.told := by
  simp [Part.handProfile]

/-- What `Part.tellLoader` leaves as it was. -/
@[simp] theorem Part.tellLoader_keeps (p : Part) (k : Kind) (f : Option Profile) :
    (Part.tellLoader p k f).mem = p.mem ∧ (Part.tellLoader p k f).regs = p.regs ∧
    (Part.tellLoader p k f).pins = p.pins ∧ (Part.tellLoader p k f).spi = p.spi ∧
    (Part.tellLoader p k f).ed = p.ed ∧ (Part.tellLoader p k f).rep = p.rep ∧ (Part.tellLoader p k f).free = p.free ∧
    (Part.tellLoader p k f).odo.legDistance = p.odo.legDistance ∧ (Part.tellLoader p k f).odo.marks = p.odo.marks ∧
    (Part.tellLoader p k f).ntc.active = p.ntc.active ∧ (Part.tellLoader p k f).trk.phase = p.trk.phase ∧
    (Part.tellLoader p k f).trk.view = p.trk.view ∧ (Part.tellLoader p k f).trk.load = p.trk.load ∧
    (Part.tellLoader p k f).res.load = p.res.load ∧ (Part.tellLoader p k f).ntc.load = p.ntc.load ∧
    (Part.tellLoader p k f).res.seats = p.res.seats ∧ (Part.tellLoader p k f).swp.us = p.swp.us ∧
    (Part.tellLoader p k f).swp.ms = p.swp.ms := by
  unfold Part.tellLoader; split <;> simp

/-- What `Part.readSlot` leaves as it was. -/
@[simp] theorem Part.readSlot_keeps (p : Part) (bus : Bus) (run : DeliveryRun) :
    (Part.readSlot p bus run).mem = p.mem ∧ (Part.readSlot p bus run).regs = p.regs ∧
    (Part.readSlot p bus run).pins = p.pins ∧ (Part.readSlot p bus run).spi = p.spi ∧
    (Part.readSlot p bus run).odo = p.odo ∧ (Part.readSlot p bus run).trk = p.trk ∧
    (Part.readSlot p bus run).res = p.res ∧ (Part.readSlot p bus run).ntc = p.ntc ∧
    (Part.readSlot p bus run).cmp = p.cmp ∧ (Part.readSlot p bus run).lineSeat = p.lineSeat ∧
    (Part.readSlot p bus run).lineEnd = p.lineEnd ∧ (Part.readSlot p bus run).lineDoor = p.lineDoor ∧
    (Part.readSlot p bus run).swp = p.swp ∧ (Part.readSlot p bus run).free = p.free ∧
    (Part.readSlot p bus run).ed.take = p.ed.take ∧ (Part.readSlot p bus run).ed.seq = p.ed.seq ∧
    (Part.readSlot p bus run).ed.boundary = p.ed.boundary ∧ (Part.readSlot p bus run).ed.owed = p.ed.owed ∧
    (Part.readSlot p bus run).ed.profile = p.ed.profile ∧ (Part.readSlot p bus run).ed.stops = p.ed.stops ∧
    (Part.readSlot p bus run).ed.reservations = p.ed.reservations ∧
    (Part.readSlot p bus run).ed.notices = p.ed.notices ∧ (Part.readSlot p bus run).ed.content = p.ed.content ∧
    (Part.readSlot p bus run).rep.writing = p.rep.writing ∧
    (Part.readSlot p bus run).rep.boundaries = p.rep.boundaries := by
  unfold Part.readSlot; split <;> simp

/-- What `Part.continueRun` leaves as it was. -/
@[simp] theorem Part.continueRun_keeps (p : Part) (bus : Bus) (run : DeliveryRun) :
    (Part.continueRun p bus run).mem = p.mem ∧ (Part.continueRun p bus run).regs = p.regs ∧
    (Part.continueRun p bus run).pins = p.pins ∧ (Part.continueRun p bus run).spi = p.spi ∧
    (Part.continueRun p bus run).odo = p.odo ∧ (Part.continueRun p bus run).trk = p.trk ∧
    (Part.continueRun p bus run).res = p.res ∧ (Part.continueRun p bus run).ntc = p.ntc ∧
    (Part.continueRun p bus run).cmp = p.cmp ∧ (Part.continueRun p bus run).lineSeat = p.lineSeat ∧
    (Part.continueRun p bus run).lineEnd = p.lineEnd ∧ (Part.continueRun p bus run).lineDoor = p.lineDoor ∧
    (Part.continueRun p bus run).swp = p.swp ∧ (Part.continueRun p bus run).free = p.free ∧
    (Part.continueRun p bus run).ed.take = p.ed.take ∧ (Part.continueRun p bus run).ed.seq = p.ed.seq ∧
    (Part.continueRun p bus run).ed.boundary = p.ed.boundary ∧ (Part.continueRun p bus run).ed.owed = p.ed.owed ∧
    (Part.continueRun p bus run).ed.profile = p.ed.profile ∧ (Part.continueRun p bus run).ed.stops = p.ed.stops ∧
    (Part.continueRun p bus run).ed.reservations = p.ed.reservations ∧
    (Part.continueRun p bus run).ed.notices = p.ed.notices ∧ (Part.continueRun p bus run).ed.content = p.ed.content ∧
    (Part.continueRun p bus run).rep.writing = p.rep.writing ∧
    (Part.continueRun p bus run).rep.boundaries = p.rep.boundaries := by
  unfold Part.continueRun; split <;> simp

/-- What `Part.runDelivery` leaves as it was. -/
@[simp] theorem Part.runDelivery_keeps (p : Part) (bus : Bus) :
    (Part.runDelivery p bus).regs = p.regs ∧ (Part.runDelivery p bus).pins = p.pins ∧
    (Part.runDelivery p bus).spi = p.spi ∧ (Part.runDelivery p bus).odo = p.odo ∧
    (Part.runDelivery p bus).trk = p.trk ∧ (Part.runDelivery p bus).res = p.res ∧
    (Part.runDelivery p bus).ntc = p.ntc ∧ (Part.runDelivery p bus).cmp = p.cmp ∧
    (Part.runDelivery p bus).lineSeat = p.lineSeat ∧ (Part.runDelivery p bus).lineEnd = p.lineEnd ∧
    (Part.runDelivery p bus).lineDoor = p.lineDoor ∧ (Part.runDelivery p bus).swp = p.swp ∧
    (Part.runDelivery p bus).free = p.free ∧ (Part.runDelivery p bus).ed.boundary = p.ed.boundary ∧
    (Part.runDelivery p bus).ed.owed = p.ed.owed ∧ (Part.runDelivery p bus).ed.profile = p.ed.profile ∧
    (Part.runDelivery p bus).ed.stops = p.ed.stops ∧ (Part.runDelivery p bus).ed.reservations = p.ed.reservations ∧
    (Part.runDelivery p bus).ed.notices = p.ed.notices ∧ (Part.runDelivery p bus).ed.content = p.ed.content ∧
    (Part.runDelivery p bus).rep.writing = p.rep.writing ∧
    (Part.runDelivery p bus).rep.boundaries = p.rep.boundaries := by
  refine ⟨?_, ?_, ?_, ?_, ?_, ?_, ?_, ?_, ?_, ?_, ?_, ?_, ?_, ?_, ?_, ?_, ?_, ?_, ?_, ?_, ?_, ?_⟩ <;>
    (unfold Part.runDelivery; (repeat' split) <;> simp)

/-- What `Part.cutRun` leaves as it was. -/
@[simp] theorem Part.cutRun_keeps (p : Part) :
    (Part.cutRun p).mem = p.mem ∧ (Part.cutRun p).regs = p.regs ∧ (Part.cutRun p).pins = p.pins ∧
    (Part.cutRun p).spi = p.spi ∧ (Part.cutRun p).odo = p.odo ∧ (Part.cutRun p).trk = p.trk ∧
    (Part.cutRun p).res = p.res ∧ (Part.cutRun p).ntc = p.ntc ∧ (Part.cutRun p).cmp = p.cmp ∧
    (Part.cutRun p).lineSeat = p.lineSeat ∧ (Part.cutRun p).lineEnd = p.lineEnd ∧
    (Part.cutRun p).lineDoor = p.lineDoor ∧ (Part.cutRun p).swp = p.swp ∧ (Part.cutRun p).rep = p.rep ∧
    (Part.cutRun p).free = p.free ∧ (Part.cutRun p).ed.take = p.ed.take ∧ (Part.cutRun p).ed.seq = p.ed.seq ∧
    (Part.cutRun p).ed.boundary = p.ed.boundary ∧ (Part.cutRun p).ed.profile = p.ed.profile ∧
    (Part.cutRun p).ed.stops = p.ed.stops ∧ (Part.cutRun p).ed.reservations = p.ed.reservations ∧
    (Part.cutRun p).ed.notices = p.ed.notices ∧ (Part.cutRun p).ed.content = p.ed.content := by
  refine ⟨?_, ?_, ?_, ?_, ?_, ?_, ?_, ?_, ?_, ?_, ?_, ?_, ?_, ?_, ?_, ?_, ?_, ?_, ?_, ?_, ?_, ?_, ?_⟩ <;>
    (unfold Part.cutRun; (repeat' split) <;> simp)

/-- What `Part.reachField` leaves as it was. -/
@[simp] theorem Part.reachField_keeps (bus : Bus) (p : Part) (f : PageField) :
    (Part.reachField bus p f).regs = p.regs ∧ (Part.reachField bus p f).pins = p.pins ∧
    (Part.reachField bus p f).spi = p.spi ∧ (Part.reachField bus p f).odo = p.odo ∧
    (Part.reachField bus p f).trk = p.trk ∧ (Part.reachField bus p f).res = p.res ∧
    (Part.reachField bus p f).ntc = p.ntc ∧ (Part.reachField bus p f).cmp = p.cmp ∧
    (Part.reachField bus p f).lineSeat = p.lineSeat ∧ (Part.reachField bus p f).lineEnd = p.lineEnd ∧
    (Part.reachField bus p f).lineDoor = p.lineDoor ∧ (Part.reachField bus p f).swp = p.swp ∧
    (Part.reachField bus p f).ed = p.ed ∧ (Part.reachField bus p f).free = p.free ∧
    (Part.reachField bus p f).rep.writing = p.rep.writing ∧
    (Part.reachField bus p f).rep.boundaries = p.rep.boundaries := by
  refine ⟨?_, ?_, ?_, ?_, ?_, ?_, ?_, ?_, ?_, ?_, ?_, ?_, ?_, ?_, ?_, ?_⟩ <;>
    (unfold Part.reachField; dsimp only; (repeat' split) <;> simp)

/-- What `Part.reachFields` leaves as it was. -/
@[simp] theorem Part.reachFields_keeps (p : Part) (bus : Bus) (fs : List PageField) :
    (Part.reachFields p bus fs).regs = p.regs ∧ (Part.reachFields p bus fs).pins = p.pins ∧
    (Part.reachFields p bus fs).spi = p.spi ∧ (Part.reachFields p bus fs).odo = p.odo ∧
    (Part.reachFields p bus fs).trk = p.trk ∧ (Part.reachFields p bus fs).res = p.res ∧
    (Part.reachFields p bus fs).ntc = p.ntc ∧ (Part.reachFields p bus fs).cmp = p.cmp ∧
    (Part.reachFields p bus fs).lineSeat = p.lineSeat ∧ (Part.reachFields p bus fs).lineEnd = p.lineEnd ∧
    (Part.reachFields p bus fs).lineDoor = p.lineDoor ∧ (Part.reachFields p bus fs).swp = p.swp ∧
    (Part.reachFields p bus fs).ed = p.ed ∧ (Part.reachFields p bus fs).free = p.free ∧
    (Part.reachFields p bus fs).rep.writing = p.rep.writing ∧
    (Part.reachFields p bus fs).rep.boundaries = p.rep.boundaries := by
  refine ⟨?_, ?_, ?_, ?_, ?_, ?_, ?_, ?_, ?_, ?_, ?_, ?_, ?_, ?_, ?_, ?_⟩
  · unfold Part.reachFields; exact foldl_keeps (fun q : Part => q.regs) _ (by intro q x; simp) _ _
  · unfold Part.reachFields; exact foldl_keeps (fun q : Part => q.pins) _ (by intro q x; simp) _ _
  · unfold Part.reachFields; exact foldl_keeps (fun q : Part => q.spi) _ (by intro q x; simp) _ _
  · unfold Part.reachFields; exact foldl_keeps (fun q : Part => q.odo) _ (by intro q x; simp) _ _
  · unfold Part.reachFields; exact foldl_keeps (fun q : Part => q.trk) _ (by intro q x; simp) _ _
  · unfold Part.reachFields; exact foldl_keeps (fun q : Part => q.res) _ (by intro q x; simp) _ _
  · unfold Part.reachFields; exact foldl_keeps (fun q : Part => q.ntc) _ (by intro q x; simp) _ _
  · unfold Part.reachFields; exact foldl_keeps (fun q : Part => q.cmp) _ (by intro q x; simp) _ _
  · unfold Part.reachFields; exact foldl_keeps (fun q : Part => q.lineSeat) _ (by intro q x; simp) _ _
  · unfold Part.reachFields; exact foldl_keeps (fun q : Part => q.lineEnd) _ (by intro q x; simp) _ _
  · unfold Part.reachFields; exact foldl_keeps (fun q : Part => q.lineDoor) _ (by intro q x; simp) _ _
  · unfold Part.reachFields; exact foldl_keeps (fun q : Part => q.swp) _ (by intro q x; simp) _ _
  · unfold Part.reachFields; exact foldl_keeps (fun q : Part => q.ed) _ (by intro q x; simp) _ _
  · unfold Part.reachFields; exact foldl_keeps (fun q : Part => q.free) _ (by intro q x; simp) _ _
  · unfold Part.reachFields; exact foldl_keeps (fun q : Part => q.rep.writing) _ (by intro q x; simp) _ _
  · unfold Part.reachFields; exact foldl_keeps (fun q : Part => q.rep.boundaries) _ (by intro q x; simp) _ _

/-- What `Part.pageBoundary` leaves as it was. -/
@[simp] theorem Part.pageBoundary_keeps (p : Part) (bus : Bus) (reach : Nat) :
    (Part.pageBoundary p bus reach).regs = p.regs ∧ (Part.pageBoundary p bus reach).pins = p.pins ∧
    (Part.pageBoundary p bus reach).spi = p.spi ∧ (Part.pageBoundary p bus reach).odo = p.odo ∧
    (Part.pageBoundary p bus reach).trk = p.trk ∧ (Part.pageBoundary p bus reach).res = p.res ∧
    (Part.pageBoundary p bus reach).ntc = p.ntc ∧ (Part.pageBoundary p bus reach).cmp = p.cmp ∧
    (Part.pageBoundary p bus reach).lineSeat = p.lineSeat ∧ (Part.pageBoundary p bus reach).lineEnd = p.lineEnd ∧
    (Part.pageBoundary p bus reach).lineDoor = p.lineDoor ∧ (Part.pageBoundary p bus reach).swp = p.swp ∧
    (Part.pageBoundary p bus reach).ed = p.ed ∧ (Part.pageBoundary p bus reach).free = p.free := by
  refine ⟨?_, ?_, ?_, ?_, ?_, ?_, ?_, ?_, ?_, ?_, ?_, ?_, ?_, ?_⟩ <;>
    (unfold Part.pageBoundary; dsimp only; (repeat' split) <;> simp)

/-- What `Part.pageSequence` leaves as it was. -/
@[simp] theorem Part.pageSequence_keeps (p : Part) (bus : Bus) :
    (Part.pageSequence p bus).regs = p.regs ∧ (Part.pageSequence p bus).pins = p.pins ∧
    (Part.pageSequence p bus).spi = p.spi ∧ (Part.pageSequence p bus).odo = p.odo ∧
    (Part.pageSequence p bus).trk = p.trk ∧ (Part.pageSequence p bus).res = p.res ∧
    (Part.pageSequence p bus).ntc = p.ntc ∧ (Part.pageSequence p bus).cmp = p.cmp ∧
    (Part.pageSequence p bus).lineSeat = p.lineSeat ∧ (Part.pageSequence p bus).lineEnd = p.lineEnd ∧
    (Part.pageSequence p bus).lineDoor = p.lineDoor ∧ (Part.pageSequence p bus).swp = p.swp ∧
    (Part.pageSequence p bus).ed = p.ed ∧ (Part.pageSequence p bus).free = p.free ∧
    (Part.pageSequence p bus).rep.writing = p.rep.writing ∧
    (Part.pageSequence p bus).rep.boundaries = p.rep.boundaries := by
  refine ⟨?_, ?_, ?_, ?_, ?_, ?_, ?_, ?_, ?_, ?_, ?_, ?_, ?_, ?_, ?_, ?_⟩ <;>
    (unfold Part.pageSequence; dsimp only; (repeat' split) <;> simp)

/-- What `Report.nextPage` leaves as it was. -/
@[simp] theorem Report.nextPage_keeps (r : Report) :
    r.nextPage.attention = r.attention ∧ r.nextPage.memoryError = r.memoryError ∧
    r.nextPage.contentFault = r.contentFault ∧ r.nextPage.pageImage = r.pageImage ∧ r.nextPage.pageSeq = r.pageSeq ∧
    r.nextPage.boundaries = r.boundaries := ⟨rfl, rfl, rfl, rfl, rfl, rfl⟩

/-- Without a deferred write the page is at rest. -/
@[simp] theorem Report.nextPage_last {r : Report} (h : r.deferred = 0) :
    r.nextPage.writing = none ∧ r.nextPage.deferred = 0 := by simp [Report.nextPage, h]

/-- Each deferred write is one write of its own. -/
@[simp] theorem Report.nextPage_more {r : Report} {n : Nat} (h : r.deferred = n + 1) :
    r.nextPage.writing = some 0 ∧ r.nextPage.deferred = n := by simp [Report.nextPage, h]

/-- What `Part.endPage` leaves as it was. -/
@[simp] theorem Part.endPage_keeps (p : Part) (bus : Bus) :
    (Part.endPage p bus).regs = p.regs ∧ (Part.endPage p bus).pins = p.pins ∧
    (Part.endPage p bus).spi = p.spi ∧ (Part.endPage p bus).odo = p.odo ∧
    (Part.endPage p bus).trk = p.trk ∧ (Part.endPage p bus).res = p.res ∧ (Part.endPage p bus).ntc = p.ntc ∧
    (Part.endPage p bus).cmp = p.cmp ∧ (Part.endPage p bus).lineSeat = p.lineSeat ∧
    (Part.endPage p bus).lineEnd = p.lineEnd ∧ (Part.endPage p bus).lineDoor = p.lineDoor ∧
    (Part.endPage p bus).swp = p.swp ∧ (Part.endPage p bus).ed = p.ed ∧ (Part.endPage p bus).free = p.free ∧
    (Part.endPage p bus).rep.boundaries = p.rep.boundaries := by
  unfold Part.endPage; split <;> simp

/-- What `Part.stopLoads` leaves as it was. -/
@[simp] theorem Part.stopLoads_keeps (p : Part) :
    (Part.stopLoads p).mem = p.mem ∧ (Part.stopLoads p).regs = p.regs ∧ (Part.stopLoads p).pins = p.pins ∧
    (Part.stopLoads p).spi = p.spi ∧ (Part.stopLoads p).odo = p.odo ∧
    (Part.stopLoads p).cmp = p.cmp ∧ (Part.stopLoads p).lineSeat = p.lineSeat ∧
    (Part.stopLoads p).lineEnd = p.lineEnd ∧ (Part.stopLoads p).lineDoor = p.lineDoor ∧
    (Part.stopLoads p).swp = p.swp ∧ (Part.stopLoads p).rep = p.rep ∧ (Part.stopLoads p).free = p.free ∧
    (Part.stopLoads p).ntc.active = p.ntc.active ∧ (Part.stopLoads p).ed.take = p.ed.take ∧
    (Part.stopLoads p).ed.seq = p.ed.seq ∧ (Part.stopLoads p).ed.boundary = p.ed.boundary ∧
    (Part.stopLoads p).ed.run = p.ed.run ∧ (Part.stopLoads p).ed.owed = p.ed.owed ∧
    (Part.stopLoads p).trk.phase = p.trk.phase ∧ (Part.stopLoads p).trk.view = p.trk.view ∧
    (Part.stopLoads p).res.seats = p.res.seats := by
  simp [Part.stopLoads]

/-- What `Part.dropBoundaries` leaves as it was. -/
@[simp] theorem Part.dropBoundaries_keeps (p : Part) :
    (Part.dropBoundaries p).mem = p.mem ∧ (Part.dropBoundaries p).regs = p.regs ∧
    (Part.dropBoundaries p).pins = p.pins ∧ (Part.dropBoundaries p).spi = p.spi ∧
    (Part.dropBoundaries p).odo = p.odo ∧ (Part.dropBoundaries p).trk = p.trk ∧ (Part.dropBoundaries p).res = p.res ∧
    (Part.dropBoundaries p).ntc = p.ntc ∧ (Part.dropBoundaries p).swp = p.swp ∧ (Part.dropBoundaries p).ed = p.ed ∧
    (Part.dropBoundaries p).rep = p.rep ∧ (Part.dropBoundaries p).free = p.free ∧
    (Part.dropBoundaries p).cmp = p.cmp := by
  simp [Part.dropBoundaries]

/-- What `Part.stopRun` leaves as it was. -/
@[simp] theorem Part.stopRun_keeps (p : Part) :
    (Part.stopRun p).mem = p.mem ∧ (Part.stopRun p).pins = p.pins ∧ (Part.stopRun p).spi = p.spi ∧
    (Part.stopRun p).odo = p.odo ∧ (Part.stopRun p).free = p.free ∧
    (Part.stopRun p).ntc.active = p.ntc.active ∧ (Part.stopRun p).trk.phase = p.trk.phase ∧
    (Part.stopRun p).trk.view = p.trk.view ∧ (Part.stopRun p).res.seats = p.res.seats := by
  simp [Part.stopRun]

/-- What `Part.startRunning` leaves as it was. -/
@[simp] theorem Part.startRunning_keeps (p : Part) :
    (Part.startRunning p).mem = p.mem ∧ (Part.startRunning p).pins = p.pins ∧
    (Part.startRunning p).spi = p.spi ∧ (Part.startRunning p).odo = p.odo ∧
    (Part.startRunning p).free = p.free ∧ (Part.startRunning p).ntc.active = p.ntc.active ∧
    (Part.startRunning p).ed.take = p.ed.take ∧ (Part.startRunning p).ed.seq = p.ed.seq ∧
    (Part.startRunning p).ed.run = p.ed.run ∧ (Part.startRunning p).ed.owed = p.ed.owed ∧
    (Part.startRunning p).cmp.slots = p.cmp.slots ∧ (Part.startRunning p).cmp.refreshSeat = p.cmp.refreshSeat ∧
    (Part.startRunning p).cmp.refreshEnd = p.cmp.refreshEnd ∧
    (Part.startRunning p).cmp.refreshDoor = p.cmp.refreshDoor ∧ (Part.startRunning p).cmp.comp = p.cmp.comp ∧
    (Part.startRunning p).trk.phase = p.trk.phase ∧ (Part.startRunning p).trk.view = p.trk.view ∧
    (Part.startRunning p).trk.load = p.trk.load ∧ (Part.startRunning p).res.load = p.res.load ∧
    (Part.startRunning p).ntc.load = p.ntc.load ∧ (Part.startRunning p).ed.profile = p.ed.profile ∧
    (Part.startRunning p).ed.stops = p.ed.stops ∧ (Part.startRunning p).ed.reservations = p.ed.reservations ∧
    (Part.startRunning p).ed.notices = p.ed.notices ∧ (Part.startRunning p).ed.content = p.ed.content ∧
    (Part.startRunning p).res.seats = p.res.seats ∧ (Part.startRunning p).swp.us = p.swp.us ∧
    (Part.startRunning p).swp.ms = p.swp.ms ∧ (Part.startRunning p).rep.writing = p.rep.writing ∧
    (Part.startRunning p).trk.told = p.trk.told := by
  simp [Part.startRunning]

/-- What `Part.writeRun` leaves as it was. -/
@[simp] theorem Part.writeRun_keeps (p : Part) (v : Bool) :
    (Part.writeRun p v).mem = p.mem ∧ (Part.writeRun p v).pins = p.pins ∧
    (Part.writeRun p v).spi = p.spi ∧ (Part.writeRun p v).odo = p.odo ∧
    (Part.writeRun p v).free = p.free ∧ (Part.writeRun p v).ntc.active = p.ntc.active ∧
    (Part.writeRun p v).trk.phase = p.trk.phase ∧ (Part.writeRun p v).trk.view = p.trk.view ∧
    (Part.writeRun p v).res.seats = p.res.seats := by
  refine ⟨?_, ?_, ?_, ?_, ?_, ?_, ?_, ?_, ?_⟩ <;> (unfold Part.writeRun; (repeat' split) <;> simp)

/-- What `Part.writeFreeze` leaves as it was. -/
@[simp] theorem Part.writeFreeze_keeps (p : Part) (v : Bool) :
    (Part.writeFreeze p v).mem = p.mem ∧ (Part.writeFreeze p v).pins = p.pins ∧
    (Part.writeFreeze p v).spi = p.spi ∧ (Part.writeFreeze p v).odo = p.odo ∧
    (Part.writeFreeze p v).trk = p.trk ∧ (Part.writeFreeze p v).res = p.res ∧ (Part.writeFreeze p v).ntc = p.ntc ∧
    (Part.writeFreeze p v).cmp = p.cmp ∧ (Part.writeFreeze p v).lineSeat = p.lineSeat ∧
    (Part.writeFreeze p v).lineEnd = p.lineEnd ∧ (Part.writeFreeze p v).lineDoor = p.lineDoor ∧
    (Part.writeFreeze p v).swp = p.swp ∧ (Part.writeFreeze p v).ed = p.ed ∧ (Part.writeFreeze p v).free = p.free ∧
    (Part.writeFreeze p v).rep.boundaries = p.rep.boundaries := by
  refine ⟨?_, ?_, ?_, ?_, ?_, ?_, ?_, ?_, ?_, ?_, ?_, ?_, ?_, ?_, ?_⟩ <;>
    (unfold Part.writeFreeze; (repeat' split) <;> rfl)

/-- What `Part.powerOn` leaves as it was. -/
@[simp] theorem Part.powerOn_keeps (p : Part) :
    (Part.powerOn p).mem = p.mem ∧ (Part.powerOn p).pins = p.pins ∧ (Part.powerOn p).free = p.free := by
  simp [Part.powerOn]

/-- What `Part.engineReset` leaves as it was. -/
@[simp] theorem Part.engineReset_keeps (p : Part) :
    (Part.engineReset p).mem = p.mem ∧ (Part.engineReset p).pins = p.pins ∧ (Part.engineReset p).free = p.free := by
  simp [Part.engineReset]

/-- What `Part.writeControl` leaves as it was. -/
@[simp] theorem Part.writeControl_keeps (p : Part) (v : Word) :
    (Part.writeControl p v).mem = p.mem ∧ (Part.writeControl p v).pins = p.pins ∧
    (Part.writeControl p v).free = p.free := by
  unfold Part.writeControl; split <;> simp

/-- What `Part.writeWindowBase` leaves as it was. -/
@[simp] theorem Part.writeWindowBase_keeps (p : Part) (v : Word) :
    (Part.writeWindowBase p v).mem = p.mem ∧ (Part.writeWindowBase p v).pins = p.pins ∧
    (Part.writeWindowBase p v).odo = p.odo ∧ (Part.writeWindowBase p v).trk = p.trk ∧
    (Part.writeWindowBase p v).res = p.res ∧ (Part.writeWindowBase p v).ntc = p.ntc ∧
    (Part.writeWindowBase p v).cmp = p.cmp ∧ (Part.writeWindowBase p v).lineSeat = p.lineSeat ∧
    (Part.writeWindowBase p v).lineEnd = p.lineEnd ∧ (Part.writeWindowBase p v).lineDoor = p.lineDoor ∧
    (Part.writeWindowBase p v).swp = p.swp ∧ (Part.writeWindowBase p v).ed = p.ed ∧
    (Part.writeWindowBase p v).rep = p.rep ∧ (Part.writeWindowBase p v).free = p.free := by
  refine ⟨?_, ?_, ?_, ?_, ?_, ?_, ?_, ?_, ?_, ?_, ?_, ?_, ?_, ?_⟩ <;>
    (unfold Part.writeWindowBase; dsimp only; (repeat' split) <;> simp)

/-- What `Part.writeAttention` leaves as it was. -/
@[simp] theorem Part.writeAttention_keeps (p : Part) (v : Word) :
    (Part.writeAttention p v).mem = p.mem ∧ (Part.writeAttention p v).regs = p.regs ∧
    (Part.writeAttention p v).pins = p.pins ∧ (Part.writeAttention p v).odo = p.odo ∧
    (Part.writeAttention p v).trk = p.trk ∧ (Part.writeAttention p v).res = p.res ∧
    (Part.writeAttention p v).ntc = p.ntc ∧ (Part.writeAttention p v).cmp = p.cmp ∧
    (Part.writeAttention p v).lineSeat = p.lineSeat ∧ (Part.writeAttention p v).lineEnd = p.lineEnd ∧
    (Part.writeAttention p v).lineDoor = p.lineDoor ∧ (Part.writeAttention p v).swp = p.swp ∧
    (Part.writeAttention p v).ed = p.ed ∧ (Part.writeAttention p v).free = p.free ∧
    (Part.writeAttention p v).rep.writing = p.rep.writing ∧
    (Part.writeAttention p v).rep.boundaries = p.rep.boundaries := by
  simp [Part.writeAttention]

/-- What `Part.writeAttentionEnable` leaves as it was. -/
@[simp] theorem Part.writeAttentionEnable_keeps (p : Part) (v : Word) :
    (Part.writeAttentionEnable p v).mem = p.mem ∧ (Part.writeAttentionEnable p v).pins = p.pins ∧
    (Part.writeAttentionEnable p v).odo = p.odo ∧ (Part.writeAttentionEnable p v).trk = p.trk ∧
    (Part.writeAttentionEnable p v).res = p.res ∧ (Part.writeAttentionEnable p v).ntc = p.ntc ∧
    (Part.writeAttentionEnable p v).cmp = p.cmp ∧ (Part.writeAttentionEnable p v).lineSeat = p.lineSeat ∧
    (Part.writeAttentionEnable p v).lineEnd = p.lineEnd ∧ (Part.writeAttentionEnable p v).lineDoor = p.lineDoor ∧
    (Part.writeAttentionEnable p v).swp = p.swp ∧ (Part.writeAttentionEnable p v).ed = p.ed ∧
    (Part.writeAttentionEnable p v).rep = p.rep ∧ (Part.writeAttentionEnable p v).free = p.free := by
  simp [Part.writeAttentionEnable]

/-- What `Part.writeRegister` leaves as it was. -/
@[simp] theorem Part.writeRegister_keeps (p : Part) (n : Nat) (v : Word) :
    (Part.writeRegister p n v).mem = p.mem ∧ (Part.writeRegister p n v).pins = p.pins ∧
    (Part.writeRegister p n v).free = p.free := by
  unfold Part.writeRegister; split <;> simp

/-- What `Part.tick` leaves as it was. -/
@[simp] theorem Part.tick_keeps (p : Part) :
    (Part.tick p).mem = p.mem ∧ (Part.tick p).regs = p.regs ∧ (Part.tick p).pins = p.pins ∧
    (Part.tick p).spi = p.spi ∧ (Part.tick p).trk = p.trk ∧ (Part.tick p).res = p.res ∧
    (Part.tick p).ntc = p.ntc ∧ (Part.tick p).cmp = p.cmp ∧ (Part.tick p).lineSeat = p.lineSeat ∧
    (Part.tick p).lineEnd = p.lineEnd ∧ (Part.tick p).lineDoor = p.lineDoor ∧ (Part.tick p).ed = p.ed ∧
    (Part.tick p).rep = p.rep ∧ (Part.tick p).free = p.free := by
  simp [Part.tick]

end Sys2Proof.Machine
end

