-- ==== Sys2Proof/Laws/Glyph.lean ====
section
/-! SUPPORT. What the run decoder's reading of a stream can do: the bits it takes and the bit position it leaves. -/

namespace Sys2Proof.Machine

/-- The bits of a stream from one bit position up to another can all be taken (R127). -/
def View.bitsTaken (v : View) (a len p q : Nat) : Prop :=
  p ≤ q ∧ ∀ i, p ≤ i → i < q → ∃ b, v.streamBit a len i = .ok b

/-- No bit is taken between a bit position and itself. -/
theorem View.bitsTaken_refl (v : View) (a len p : Nat) : v.bitsTaken a len p p :=
  ⟨Nat.le_refl p, fun i h1 h2 => by omega⟩

/-- Bits taken one stretch after the other. -/
theorem View.bitsTaken_trans {v : View} {a len p q r : Nat} (h1 : v.bitsTaken a len p q) (h2 : v.bitsTaken a len q r) :
    v.bitsTaken a len p r := by
  refine ⟨Nat.le_trans h1.1 h2.1, fun i hp hr => ?_⟩
  by_cases hq : i < q
  · exact h1.2 i hp hq
  · exact h2.2 i (by omega) hr

/-- One bit taken moves the bit position by 1. -/
theorem View.bitsTaken_one {v : View} {a len p : Nat} {b : Bool} (h : v.streamBit a len p = .ok b) :
    v.bitsTaken a len p (p + 1) :=
  ⟨by omega, fun i h1 h2 => ⟨b, by rwa [show i = p by omega]⟩⟩

/-- A bit that can be taken lies in the stream. -/
theorem View.streamBit_inside {v : View} {a len p : Nat} {b : Bool} (h : v.streamBit a len p = .ok b) : p < 8 * len := by
  unfold View.streamBit at h
  split at h
  · cases h
  · omega

/-- A bit that is a LENGTH fault lies at or beyond the end of the stream. -/
theorem View.streamBit_beyond {v : View} {a len p : Nat} (h : v.streamBit a len p = .error (.fault .lengthFault)) :
    8 * len ≤ p := by
  unfold View.streamBit at h
  split at h
  · assumption
  · split at h <;> cases h

/-- The tail takes its bits, or stops at the first that it cannot take (R127, R129). -/
theorem View.streamTail_takes (v : View) (a len n value pos : Nat) :
    match v.streamTail a len n value pos with
    | .ok (_, q) => q = pos + n ∧ v.bitsTaken a len pos q
    | .error e => v.bitsTaken a len pos e.bitPos ∧ v.streamBit a len e.bitPos = .error e.stop := by
  induction n generalizing value pos with
  | zero => exact ⟨rfl, v.bitsTaken_refl a len pos⟩
  | succ n ih =>
    simp only [View.streamTail]
    cases hb : v.streamBit a len pos with
    | error e => exact ⟨v.bitsTaken_refl a len pos, hb⟩
    | ok b =>
      have h := ih (2 * value + if b then 1 else 0) (pos + 1)
      dsimp only
      cases ht : v.streamTail a len n (2 * value + if b then 1 else 0) (pos + 1) with
      | error e =>
        rw [ht] at h
        exact ⟨View.bitsTaken_trans (View.bitsTaken_one hb) h.1, h.2⟩
      | ok x =>
        rw [ht] at h
        obtain ⟨tail, q⟩ := x
        dsimp only at h ⊢
        exact ⟨by omega, View.bitsTaken_trans (View.bitsTaken_one hb) h.2⟩

/-- The prefix takes its bits, or stops at the first that it cannot take, or after 32 prefix bits (R127, R128). -/
theorem View.streamPrefix_takes (v : View) (a len : Nat) (t : RunTable) (n count pos : Nat) (hc : count ≤ 32)
    (hn : count + n = 33) :
    match v.streamPrefix a len t n count pos with
    | .ok (_, q) => v.bitsTaken a len pos q
    | .error e => v.bitsTaken a len pos e.bitPos ∧
        ((e.stop = .fault .prefixFault ∧ e.bitPos + count = pos + 32) ∨ (v.streamBit a len e.bitPos = .error e.stop)) := by
  induction n generalizing count pos with
  | zero => omega
  | succ n ih =>
    unfold View.streamPrefix
    by_cases he : t.endIndex = some count
    · rw [if_pos he]
      exact v.bitsTaken_refl a len pos
    · rw [if_neg he]
      by_cases h32 : 32 ≤ count
      · rw [if_pos h32]
        exact ⟨v.bitsTaken_refl a len pos, .inl ⟨rfl, by dsimp only; omega⟩⟩
      · rw [if_neg h32]
        cases hb : v.streamBit a len pos with
        | error e => exact ⟨v.bitsTaken_refl a len pos, .inr hb⟩
        | ok b =>
          dsimp only
          by_cases hz : b = t.zeros
          · rw [if_pos hz]
            exact View.bitsTaken_one hb
          · rw [if_neg hz]
            have h := ih (count + 1) (pos + 1) (by omega) (by omega)
            cases hp : v.streamPrefix a len t n (count + 1) (pos + 1) with
            | error e =>
              rw [hp] at h
              refine ⟨View.bitsTaken_trans (View.bitsTaken_one hb) h.1, ?_⟩
              rcases h.2 with h2 | h2
              · exact .inl ⟨h2.1, by omega⟩
              · exact .inr h2
            | ok x =>
              rw [hp] at h
              exact View.bitsTaken_trans (View.bitsTaken_one hb) h

/-- A symbol moves the bit position over the bits it takes, one that stops short too: it stops at the first bit that cannot
be taken, or after 32 prefix bits (R127 to R129). -/
theorem View.streamSymbol_takes (v : View) (a len : Nat) (t : RunTable) (pos : Nat) :
    match v.streamSymbol a len t pos with
    | .ok (_, q) => v.bitsTaken a len pos q
    | .error e => v.bitsTaken a len pos e.bitPos ∧
        ((e.stop = .fault .prefixFault ∧ e.bitPos = pos + 32) ∨ v.streamBit a len e.bitPos = .error e.stop) := by
  have hp := v.streamPrefix_takes a len t 33 0 pos (by omega) (by omega)
  unfold View.streamSymbol
  cases hq : v.streamPrefix a len t 33 0 pos with
  | error e => rw [hq] at hp; exact hp
  | ok x =>
    obtain ⟨r, q⟩ := x
    rw [hq] at hp
    have ht := v.streamTail_takes a len (t.tailBits r) 0 q
    dsimp only at hp ⊢
    cases hw : v.streamTail a len (t.tailBits r) 0 q with
    | error e => rw [hw] at ht; exact ⟨View.bitsTaken_trans hp ht.1, .inr ht.2⟩
    | ok y => rw [hw] at ht; exact View.bitsTaken_trans hp ht.2

/-- The decoding of a glyph keeps the working copy, and its bit position has moved over the bits taken and no others, however
it ends: a LENGTH fault and a memory error are those of the bit it stands at (R127, R131, R133). -/
theorem View.decodeRuns_takes (v : View) (a len : Nat) (t : RunTable) (n fuel : Nat) (d : Decoder) :
    let r := v.decodeRuns a len t n fuel d
    r.1.table = d.table ∧ v.bitsTaken a len d.bitPos r.1.bitPos ∧
      ∀ e, r.2 = some e → e = .fault .prefixFault ∨ v.streamBit a len r.1.bitPos = .error e := by
  induction fuel generalizing d with
  | zero => exact ⟨rfl, v.bitsTaken_refl a len _, fun e h => by cases h⟩
  | succ fuel ih =>
    have hs := v.streamSymbol_takes a len t d.bitPos
    simp only [View.decodeRuns]
    split
    · exact ⟨rfl, v.bitsTaken_refl a len _, fun e h => by cases h⟩
    · cases hq : v.streamSymbol a len t d.bitPos with
      | error e =>
        rw [hq] at hs
        refine ⟨rfl, hs.1, fun e' h => ?_⟩
        cases h
        exact hs.2.imp And.left id
      | ok x =>
        obtain ⟨length, q⟩ := x
        rw [hq] at hs
        have h := ih (d.run n length q)
        exact ⟨h.1, View.bitsTaken_trans hs h.2.1, h.2.2⟩

/-- The bits taken of a stream end where the next one is a LENGTH fault only at the stream's end. -/
theorem View.bitsTaken_length {v : View} {a len q : Nat} (h : v.bitsTaken a len 0 q)
    (he : v.streamBit a len q = .error (.fault .lengthFault)) : q = 8 * len := by
  refine Nat.le_antisymm (Nat.le_of_not_lt fun hlt => ?_) (View.streamBit_beyond he)
  obtain ⟨b, hb⟩ := h.2 (8 * len) (Nat.zero_le _) hlt
  exact absurd (View.streamBit_inside hb) (Nat.lt_irrefl _)

/-- A glyph's decoding that ends in a LENGTH fault leaves the bit position at the end of the stream (R127, log 75). -/
theorem View.decodeGlyph_length (v : View) (d : Decoder) (t : RunTable) (a len n : Nat)
    (h : (v.decodeGlyph d t a len n).2 = some (.fault .lengthFault)) :
    (v.decodeGlyph d t a len n).1.bitPos = 8 * len := by
  obtain ⟨-, taken, stopped⟩ := v.decodeRuns_takes a len t n n d.start
  unfold View.decodeGlyph at h ⊢
  split at h
  · cases h
  · next d' f hd =>
    cases h
    rw [hd] at taken stopped
    rcases stopped _ rfl with hf | hf
    · cases hf
    · exact View.bitsTaken_length taken hf
  · cases h

end Sys2Proof.Machine
end

