-- ==== Sys2Proof/Laws/Lists.lean ====
section
/-! SUPPORT. The shared list operations: insertion, sorting, changing a place, finding one; and the pixels of an image. -/

namespace Sys2Proof.Machine

/-! ### Sorting -/

/-- Insertion adds one element. -/
theorem insertBy_perm {α : Type} (before : α → α → Bool) (x : α) (xs : List α) :
    List.Perm (insertBy before x xs) (x :: xs) := by
  induction xs with
  | nil => exact List.Perm.refl _
  | cons y ys ih =>
    unfold insertBy
    split
    · exact List.Perm.refl _
    · exact (List.Perm.cons y ih).trans (List.Perm.swap x y ys)

/-- The fold of insertions holds what it began with and the elements. -/
theorem foldl_insertBy_perm {α : Type} (before : α → α → Bool) (xs acc : List α) :
    List.Perm (xs.foldl (fun a x => insertBy before x a) acc) (xs ++ acc) := by
  induction xs generalizing acc with
  | nil => exact List.Perm.refl _
  | cons x rest ih =>
    simp only [List.foldl_cons, List.cons_append]
    exact (ih _).trans ((List.Perm.append_left rest (insertBy_perm before x acc)).trans List.perm_middle)

/-- Sorting rearranges. -/
theorem sortBy_perm {α : Type} (before : α → α → Bool) (xs : List α) : List.Perm (sortBy before xs) xs := by
  have h := foldl_insertBy_perm before xs []
  rw [List.append_nil] at h
  exact h

/-- Sorting keeps the members. -/
@[simp] theorem mem_sortBy {α : Type} (before : α → α → Bool) (xs : List α) (x : α) :
    x ∈ sortBy before xs ↔ x ∈ xs := (sortBy_perm before xs).mem_iff

/-- Insertion into an ordered list leaves it ordered by a rank that `before` compares strictly. -/
theorem insertBy_sorted {α : Type} (rank : α → Nat) (x : α) (xs : List α)
    (h : xs.Pairwise (fun a b => rank a ≤ rank b)) :
    (insertBy (fun a b => decide (rank a < rank b)) x xs).Pairwise (fun a b => rank a ≤ rank b) := by
  induction xs with
  | nil => exact List.pairwise_singleton _ _
  | cons y ys ih =>
    rw [List.pairwise_cons] at h
    unfold insertBy
    by_cases hxy : rank x < rank y
    · rw [if_pos (by simpa using hxy), List.pairwise_cons, List.pairwise_cons]
      refine ⟨?_, h.1, h.2⟩
      intro b hb
      rcases List.mem_cons.mp hb with hb | hb
      · subst hb; omega
      · have := h.1 b hb; omega
    · rw [if_neg (by simpa using hxy), List.pairwise_cons]
      refine ⟨?_, ih h.2⟩
      intro b hb
      rcases List.mem_cons.mp ((insertBy_perm _ x ys).mem_iff.mp hb) with hb | hb
      · subst hb; omega
      · exact h.1 b hb

/-- The sort by a rank is ordered by it. -/
theorem sortBy_sorted {α : Type} (rank : α → Nat) (xs : List α) :
    (sortBy (fun a b => decide (rank a < rank b)) xs).Pairwise (fun a b => rank a ≤ rank b) := by
  unfold sortBy
  suffices h : ∀ acc : List α, acc.Pairwise (fun a b => rank a ≤ rank b) →
      (xs.foldl (fun acc x => insertBy (fun a b => decide (rank a < rank b)) x acc) acc).Pairwise
        (fun a b => rank a ≤ rank b) from h [] List.Pairwise.nil
  induction xs with
  | nil => intro acc h; exact h
  | cons x rest ih => intro acc h; exact ih _ (insertBy_sorted rank x acc h)

/-! ### A place of a list -/

/-- Insertion into an ordered list puts an element after those of its own rank. -/
theorem insertBy_filter {α : Type} (rank : α → Nat) (n : Nat) (x : α) (xs : List α)
    (h : xs.Pairwise (fun a b => rank a ≤ rank b)) :
    (insertBy (fun a b => decide (rank a < rank b)) x xs).filter (fun a => decide (rank a = n))
      = xs.filter (fun a => decide (rank a = n)) ++ (if rank x = n then [x] else []) := by
  induction xs with
  | nil => by_cases hx : rank x = n <;> simp [insertBy, hx]
  | cons y ys ih =>
    rw [List.pairwise_cons] at h
    unfold insertBy
    by_cases hxy : rank x < rank y
    · rw [if_pos (by simpa using hxy)]
      by_cases hx : rank x = n
      · have none : (y :: ys).filter (fun a => decide (rank a = n)) = [] := by
          rw [List.filter_eq_nil_iff]
          intro a ha
          have : rank y ≤ rank a := by
            rcases List.mem_cons.mp ha with rfl | ha
            · exact Nat.le_refl _
            · exact h.1 a ha
          simp; omega
        rw [List.filter_cons_of_pos (by simpa using hx), none, if_pos hx]
        rfl
      · rw [List.filter_cons_of_neg (by simpa using hx), if_neg hx, List.append_nil]
    · rw [if_neg (by simpa using hxy), List.filter_cons, List.filter_cons, ih h.2]
      split <;> rfl

/-- Sorting by a rank keeps the order of the elements of each rank. -/
theorem sortBy_stable {α : Type} (rank : α → Nat) (n : Nat) (xs : List α) :
    (sortBy (fun a b => decide (rank a < rank b)) xs).filter (fun a => decide (rank a = n))
      = xs.filter (fun a => decide (rank a = n)) := by
  unfold sortBy
  suffices h : ∀ acc : List α, acc.Pairwise (fun a b => rank a ≤ rank b) →
      (xs.foldl (fun acc x => insertBy (fun a b => decide (rank a < rank b)) x acc) acc).filter
        (fun a => decide (rank a = n)) = acc.filter (fun a => decide (rank a = n)) ++ xs.filter (fun a => decide (rank a = n))
    from h [] List.Pairwise.nil
  induction xs with
  | nil => intro acc _; simp
  | cons x rest ih =>
    intro acc h
    rw [List.foldl_cons, ih _ (insertBy_sorted rank x acc h), insertBy_filter rank n x acc h, List.filter_cons]
    by_cases hx : rank x = n <;> simp [hx]

/-- Changing a place keeps the length. -/
@[simp] theorem length_changeAt {α : Type} (f : α → α) (n : Nat) (xs : List α) :
    (changeAt f n xs).length = xs.length := by
  induction xs generalizing n with
  | nil => simp [changeAt]
  | cons x rest ih =>
    cases n with
    | zero => simp [changeAt]
    | succ n => simp [changeAt, ih]

/-- The elements after a place is changed. -/
theorem getElem?_changeAt {α : Type} (f : α → α) (n i : Nat) (xs : List α) :
    (changeAt f n xs)[i]? = if i = n then (xs[i]?).map f else xs[i]? := by
  induction xs generalizing n i with
  | nil => simp [changeAt]
  | cons x rest ih =>
    cases n with
    | zero => cases i <;> simp [changeAt]
    | succ n =>
      cases i with
      | zero => simp [changeAt]
      | succ i => simp [changeAt, ih]

/-- Changing a place is setting it. -/
theorem changeAt_eq_set {α : Type} (f : α → α) (n : Nat) (xs : List α) (x : α) (h : xs[n]? = some x) :
    changeAt f n xs = xs.set n (f x) := by
  induction xs generalizing n with
  | nil => simp at h
  | cons y rest ih =>
    cases n with
    | zero =>
      simp only [List.getElem?_cons_zero, Option.some.injEq] at h
      subst h; rfl
    | succ n => simp [changeAt, ih n (by simpa using h)]

/-- The place that `findIndex` finds: the first of which the test holds. -/
theorem findIndex_some {α : Type} (test : α → Bool) (xs : List α) (i : Nat) :
    findIndex test xs = some i ↔
      (∃ x, xs[i]? = some x ∧ test x = true) ∧ ∀ j, j < i → ∀ y, xs[j]? = some y → test y = false := by
  induction xs generalizing i with
  | nil => simp [findIndex]
  | cons x rest ih =>
    unfold findIndex
    by_cases h : test x = true
    · rw [if_pos h]
      constructor
      · intro e
        simp only [Option.some.injEq] at e
        subst e
        exact ⟨⟨x, rfl, h⟩, fun j hj => absurd hj (Nat.not_lt_zero j)⟩
      · rintro ⟨_, h2⟩
        cases i with
        | zero => rfl
        | succ i =>
          have := h2 0 (Nat.succ_pos i) x rfl
          rw [h] at this; exact absurd this (by decide)
    · rw [if_neg h]
      have hf : test x = false := by simpa using h
      cases i with
      | zero =>
        simp only [Option.map_eq_some_iff]
        constructor
        · rintro ⟨a, _, ha⟩; omega
        · rintro ⟨⟨y, hy, ht⟩, _⟩
          simp only [List.getElem?_cons_zero, Option.some.injEq] at hy
          subst hy; exact absurd ht h
      | succ i =>
        have e : (Option.map (· + 1) (findIndex test rest) = some (i + 1)) ↔ findIndex test rest = some i := by
          cases findIndex test rest <;> simp
        rw [e, ih i]
        constructor
        · rintro ⟨h1, h2⟩
          refine ⟨by simpa using h1, ?_⟩
          intro j hj y hy
          cases j with
          | zero => simp only [List.getElem?_cons_zero, Option.some.injEq] at hy; subst hy; exact hf
          | succ j => exact h2 j (by omega) y (by simpa using hy)
        · rintro ⟨h1, h2⟩
          refine ⟨by simpa using h1, ?_⟩
          intro j hj y hy
          exact h2 (j + 1) (by omega) y (by simpa using hy)

/-- Nothing is found where the test holds of no element. -/
theorem findIndex_none {α : Type} (test : α → Bool) (xs : List α) :
    findIndex test xs = none ↔ ∀ x ∈ xs, test x = false := by
  induction xs with
  | nil => simp [findIndex]
  | cons x rest ih =>
    unfold findIndex
    by_cases h : test x = true
    · rw [if_pos h]
      simp [h]
    · rw [if_neg h]
      simp only [Option.map_eq_none_iff, ih, List.mem_cons, forall_eq_or_imp]
      simp [h]

/-! ### Groups of a line -/

/-- Changing every group by its number keeps the count. -/
@[simp] theorem length_mapGroups (f : Nat → Group → Group) (n : Nat) (xs : List Group) :
    (mapGroups f n xs).length = xs.length := by
  induction xs generalizing n with
  | nil => rfl
  | cons x rest ih => simp [mapGroups, ih]

/-- The groups after every one is changed by its number. -/
theorem getElem?_mapGroups (f : Nat → Group → Group) (n i : Nat) (xs : List Group) :
    (mapGroups f n xs)[i]? = (xs[i]?).map (f (n + i)) := by
  induction xs generalizing n i with
  | nil => simp [mapGroups]
  | cons x rest ih =>
    cases i with
    | zero => simp [mapGroups]
    | succ i =>
      simp only [mapGroups, List.getElem?_cons_succ, ih]
      rw [Nat.add_assoc, Nat.add_comm 1 i]

/-! ### Pixels -/

/-- Changing pixels keeps their count. -/
@[simp] theorem length_mapPixels (w : Nat) (f : Nat → Nat → Byte → Byte) (n : Nat) (bs : List Byte) :
    (mapPixels w f n bs).length = bs.length := by
  induction bs generalizing n with
  | nil => rfl
  | cons b rest ih => simp [mapPixels, ih]

/-- The pixels after every one is changed by its column and row. -/
theorem getElem?_mapPixels (w : Nat) (f : Nat → Nat → Byte → Byte) (n i : Nat) (bs : List Byte) :
    (mapPixels w f n bs)[i]? = (bs[i]?).map (f ((n + i) % w) ((n + i) / w)) := by
  induction bs generalizing n i with
  | nil => simp [mapPixels]
  | cons b rest ih =>
    cases i with
    | zero => simp [mapPixels]
    | succ i =>
      simp only [mapPixels, List.getElem?_cons_succ, ih]
      rw [Nat.add_assoc, Nat.add_comm 1 i]

/-- What painting does to an image. -/
theorem Composition.paint_painted (c : Composition) (area r : Rect) (f : Nat → Nat → Byte → Byte) :
    c.painted (c.paint area r f) area r f := by
  refine ⟨by simp [Composition.paint], ?_⟩
  intro i b h
  simp only [Composition.paint, getElem?_mapPixels, h]
  simp

/-- Painting changes the image alone. -/
theorem Composition.paint_keeps (c : Composition) (area r : Rect) (f : Nat → Nat → Byte → Byte) :
    { c.paint area r f with image := c.image } = c := rfl

end Sys2Proof.Machine
end

