-- ==== Sys2Proof/Laws/Memory.lean ====
section
/-! SUPPORT. Memory: every operation keeps the canonical form; what a byte reads after a write. -/

namespace Sys2Proof.Machine

/-! ### The canonical form -/

/-- A weaker bound holds too. -/
theorem Memory.wfFrom_weaken {m : Memory} {lo lo' : Nat} (h : Memory.wfFrom lo m = true) (hle : lo' ≤ lo) :
    Memory.wfFrom lo' m = true := by
  cases m with
  | nil => rfl
  | cons c rest =>
    obtain ⟨k, v⟩ := c
    simp only [Memory.wfFrom, Bool.and_eq_true, decide_eq_true_eq] at h ⊢
    exact ⟨⟨Nat.le_trans hle h.1.1, h.1.2⟩, h.2⟩

/-- A write at or above the bound keeps the form above the bound. -/
theorem Memory.wfFrom_write {m : Memory} {lo : Nat} (h : Memory.wfFrom lo m = true) (a : Nat) (v : Byte)
    (ha : lo ≤ a) : Memory.wfFrom lo (Memory.write m a v) = true := by
  induction m generalizing lo with
  | nil =>
    unfold Memory.write
    by_cases hv : v = Memory.unlisted
    · rw [if_pos hv]; rfl
    · rw [if_neg hv]; simp [Memory.wfFrom, ha, hv]
  | cons c rest ih =>
    obtain ⟨k, w⟩ := c
    simp only [Memory.wfFrom, Bool.and_eq_true, decide_eq_true_eq] at h
    unfold Memory.write
    by_cases h1 : a < k
    · rw [if_pos h1]
      by_cases hv : v = Memory.unlisted
      · rw [if_pos hv]; simp [Memory.wfFrom, h]
      · rw [if_neg hv]
        have h2 : a + 1 ≤ k := h1
        simp [Memory.wfFrom, ha, hv, h2, h]
    · rw [if_neg h1]
      by_cases h2 : a = k
      · rw [if_pos h2]; subst h2
        by_cases hv : v = Memory.unlisted
        · rw [if_pos hv]; exact Memory.wfFrom_weaken h.2 (by omega)
        · rw [if_neg hv]; simp [Memory.wfFrom, ha, hv, h]
      · rw [if_neg h2]
        have h3 : k + 1 ≤ a := by omega
        simp only [Memory.wfFrom, Bool.and_eq_true, decide_eq_true_eq]
        exact ⟨h.1, ih h.2 h3⟩

/-- A write of one byte keeps the canonical form. -/
theorem Memory.wf_write {m : Memory} (h : Memory.wf m = true) (a : Nat) (v : Byte) :
    Memory.wf (Memory.write m a v) = true :=
  Memory.wfFrom_write h a v (Nat.zero_le a)

/-- The host's writes keep the canonical form. -/
theorem Memory.wf_writeAll {m : Memory} (h : Memory.wf m = true) (cells : List Host.Cell) :
    Memory.wf (Memory.writeAll m cells) = true := by
  unfold Memory.writeAll
  induction cells generalizing m with
  | nil => exact h
  | cons c rest ih => exact ih (Memory.wf_write h c.1 c.2)

/-- Bytes written keep the canonical form, whether or not a bus error ends them. -/
theorem wf_writeBytes (base : Word) (bus : Bus) {m : Memory} (h : Memory.wf m = true) (offset : Nat) (bs : List Byte) :
    Memory.wf (writeBytes base bus m offset bs).1 = true := by
  induction bs generalizing m offset with
  | nil => exact h
  | cons b rest ih =>
    unfold writeBytes
    split
    · exact h
    · exact ih (Memory.wf_write h _ _) _

/-- Fields written keep the canonical form, whether or not a bus error ends them. -/
theorem wf_writeFields (base : Word) (bus : Bus) {m : Memory} (h : Memory.wf m = true) (fs : List FieldWrite) :
    Memory.wf (writeFields base bus m fs).1 = true := by
  induction fs generalizing m with
  | nil => exact h
  | cons f rest ih =>
    have hb := wf_writeBytes base bus h f.offset (toBytes f.size f.value)
    unfold writeFields
    split
    · next m' heq => rw [heq] at hb; exact ih hb
    · next m' a heq => rw [heq] at hb; exact hb

/-- The memory right after reset has the canonical form. -/
theorem reset_memory_wf : Memory.wf State.reset.part.mem = true := rfl

/-! ### Reading after a write -/

/-- Below the bound of a canonical memory nothing is listed. -/
theorem Memory.read_below {m : Memory} {lo : Nat} (h : Memory.wfFrom lo m = true) {a : Nat} (ha : a < lo) :
    Memory.read m a = Memory.unlisted := by
  induction m generalizing lo with
  | nil => rfl
  | cons c rest ih =>
    obtain ⟨k, w⟩ := c
    simp only [Memory.wfFrom, Bool.and_eq_true, decide_eq_true_eq] at h
    have hk : k ≠ a := by omega
    simp only [Memory.read, if_neg hk]
    exact ih h.2 (by omega)

/-- The byte written reads as written, where the memory above the bound is canonical. -/
theorem Memory.read_write_from {m : Memory} {lo : Nat} (h : Memory.wfFrom lo m = true) (a : Nat) (v : Byte) :
    Memory.read (Memory.write m a v) a = v := by
  induction m generalizing lo with
  | nil =>
    unfold Memory.write
    by_cases hv : v = Memory.unlisted
    · rw [if_pos hv, hv]; rfl
    · rw [if_neg hv]; simp [Memory.read]
  | cons c rest ih =>
    obtain ⟨k, w⟩ := c
    simp only [Memory.wfFrom, Bool.and_eq_true, decide_eq_true_eq] at h
    unfold Memory.write
    by_cases h1 : a < k
    · rw [if_pos h1]
      by_cases hv : v = Memory.unlisted
      · rw [if_pos hv, hv]
        have hk : k ≠ a := by omega
        simp only [Memory.read, if_neg hk]
        exact Memory.read_below h.2 (by omega)
      · rw [if_neg hv]; simp [Memory.read]
    · rw [if_neg h1]
      by_cases h2 : a = k
      · rw [if_pos h2]; subst h2
        by_cases hv : v = Memory.unlisted
        · rw [if_pos hv, hv]; exact Memory.read_below h.2 (by omega)
        · rw [if_neg hv]; simp [Memory.read]
      · rw [if_neg h2]
        have hk : k ≠ a := fun e => h2 e.symm
        simp only [Memory.read, if_neg hk]
        exact ih h.2

/-- In a canonical memory the byte written reads as written. -/
theorem Memory.read_write_same {m : Memory} (h : Memory.wf m = true) (a : Nat) (v : Byte) :
    Memory.read (Memory.write m a v) a = v := Memory.read_write_from h a v

/-- Any other byte reads as before, in every memory. -/
theorem Memory.read_write_other (m : Memory) {a b : Nat} (v : Byte) (h : b ≠ a) :
    Memory.read (Memory.write m a v) b = Memory.read m b := by
  induction m with
  | nil =>
    unfold Memory.write
    split
    · rfl
    · simp [Memory.read, Ne.symm h]
  | cons c rest ih =>
    obtain ⟨k, w⟩ := c
    unfold Memory.write
    split
    · split
      · rfl
      · simp [Memory.read, Ne.symm h]
    · split
      · next hk =>
        have hb : k ≠ b := by rw [← hk]; exact Ne.symm h
        split
        · simp [Memory.read, hb]
        · simp [Memory.read, hb, Ne.symm h]
      · simp only [Memory.read, ih]

/-- A byte that the host's writes do not name reads as before. -/
theorem Memory.read_writeAll_other (m : Memory) (cells : List Host.Cell) {b : Nat} (h : ∀ c ∈ cells, b ≠ c.1) :
    Memory.read (Memory.writeAll m cells) b = Memory.read m b := by
  unfold Memory.writeAll
  induction cells generalizing m with
  | nil => rfl
  | cons c rest ih =>
    simp only [List.foldl_cons]
    rw [ih _ (fun d hd => h d (List.mem_cons_of_mem _ hd)),
      Memory.read_write_other _ _ (h c List.mem_cons_self)]

/-- Distinct offsets below 2^32 stand at distinct bus addresses. -/
theorem busAddress_inj (base : Word) {x y : Nat} (hx : x < 4294967296) (hy : y < 4294967296)
    (h : busAddress base x = busAddress base y) : x = y := by
  unfold busAddress at h
  have := base.isLt
  omega

/-- A byte outside those that `writeBytes` names reads as before. -/
theorem read_writeBytes_other (base : Word) (bus : Bus) (m : Memory) (offset : Nat) (bs : List Byte) {a : Nat}
    (h : ∀ i, i < bs.length → a ≠ busAddress base (offset + i)) :
    Memory.read (writeBytes base bus m offset bs).1 a = Memory.read m a := by
  induction bs generalizing m offset with
  | nil => rfl
  | cons b rest ih =>
    unfold writeBytes
    split
    · rfl
    · rw [ih _ _ (fun i hi => by
        have := h (i + 1) (by simpa using hi)
        rwa [Nat.add_comm i 1, ← Nat.add_assoc] at this)]
      exact Memory.read_write_other _ _ (by simpa using h 0 (by simp))

/-- The number of bytes of a field. -/
@[simp] theorem toBytes_length (n value : Nat) : (toBytes n value).length = n := by
  induction n generalizing value with
  | zero => rfl
  | succ n ih => simp [toBytes, ih]

/-- Byte i of a field. -/
theorem toBytes_get (n value i : Nat) (h : i < n) : (toBytes n value)[i]? = some (BitVec.ofNat 8 (value / 256 ^ i)) := by
  induction n generalizing value i with
  | zero => omega
  | succ n ih =>
    cases i with
    | zero => simp [toBytes]
    | succ i =>
      simp only [toBytes, List.getElem?_cons_succ]
      rw [ih (value / 256) i (by omega), Nat.div_div_eq_div_mul, Nat.pow_succ, Nat.mul_comm]

/-- A byte outside the fields reads as before. -/
theorem read_writeFields_other (base : Word) (bus : Bus) (m : Memory) (fs : List FieldWrite) {a : Nat}
    (h : ∀ f ∈ fs, ∀ i, i < f.size → a ≠ busAddress base (f.offset + i)) :
    Memory.read (writeFields base bus m fs).1 a = Memory.read m a := by
  induction fs generalizing m with
  | nil => rfl
  | cons f rest ih =>
    have hb := read_writeBytes_other base bus m f.offset (toBytes f.size f.value) (a := a)
      (fun i hi => h f List.mem_cons_self i (by simpa using hi))
    unfold writeFields
    split
    · next m' heq =>
      rw [heq] at hb
      rw [ih m' (fun g hg => h g (List.mem_cons_of_mem _ hg))]
      exact hb
    · next m' b heq => rw [heq] at hb; exact hb

/-- With no bus error, `writeBytes` ends without one, and each byte reads as written. -/
theorem read_writeBytes (base : Word) (bus : Bus) {m : Memory} (hm : Memory.wf m = true) (offset : Nat)
    (bs : List Byte) (hbus : ∀ i, i < bs.length → busAddress base (offset + i) ∉ bus.writeErrors)
    (hlen : offset + bs.length ≤ 4294967296) :
    (writeBytes base bus m offset bs).2 = none ∧
      ∀ i b, bs[i]? = some b → Memory.read (writeBytes base bus m offset bs).1 (busAddress base (offset + i)) = b := by
  induction bs generalizing m offset with
  | nil => exact ⟨rfl, by intro i b h; simp at h⟩
  | cons b rest ih =>
    have h0 : bus.writeErrors.contains (busAddress base offset) = false := by
      simpa using hbus 0 (by simp)
    have hr := ih (Memory.wf_write hm (busAddress base offset) b) (offset + 1)
      (fun i hi => by
        have := hbus (i + 1) (by simpa using hi)
        rwa [Nat.add_comm i 1, ← Nat.add_assoc] at this)
      (by simp at hlen; omega)
    unfold writeBytes
    simp only [h0]
    refine ⟨hr.1, ?_⟩
    intro i x hx
    cases i with
    | zero =>
      simp only [List.getElem?_cons_zero, Option.some.injEq] at hx
      subst hx
      simp only [Nat.add_zero, Bool.false_eq_true, if_false]
      rw [read_writeBytes_other]
      · exact Memory.read_write_same hm _ _
      · intro i hi he
        simp at hlen
        have := busAddress_inj base (by omega) (by omega) he
        omega
    | succ i =>
      have := hr.2 i x (by simpa using hx)
      simp only [Bool.false_eq_true, if_false]
      rwa [Nat.add_assoc, Nat.add_comm 1 i] at this

/-! ### Head-block writes and page fields -/

/-- A head-block write keeps the canonical form. -/
theorem Part.headWrite_canonical {p : Part} (h : p.memoryCanonical) (bus : Bus) (fields : List FieldWrite) :
    (p.headWrite bus fields).memoryCanonical := by
  have h1 := wf_writeFields p.regs.windowBase bus h fields
  unfold Part.headWrite
  split
  · next m a heq => rw [heq] at h1; exact h1
  · next m heq =>
    rw [heq] at h1
    have h2 := wf_writeFields p.regs.windowBase bus h1 [sequenceField (p.ed.seq + 1#32)]
    dsimp only
    split
    · next m' heq' => rw [heq'] at h2; exact h2
    · next m' a heq' => rw [heq'] at h2; exact h2

/-- A byte that is neither one of the fields nor of the sequence word reads as before. -/
theorem Part.headWrite_read_other (p : Part) (bus : Bus) (fields : List FieldWrite) {a : Nat}
    (h : ∀ f ∈ fields, ∀ i, i < f.size → a ≠ busAddress p.regs.windowBase (f.offset + i))
    (hs : ∀ i, i < 4 → a ≠ busAddress p.regs.windowBase (4 + i)) :
    Memory.read (p.headWrite bus fields).mem a = Memory.read p.mem a := by
  have h1 := read_writeFields_other p.regs.windowBase bus p.mem fields h
  unfold Part.headWrite
  split
  · next m b heq => rw [heq] at h1; exact h1
  · next m heq =>
    rw [heq] at h1
    have h2 := read_writeFields_other p.regs.windowBase bus m [sequenceField (p.ed.seq + 1#32)] (a := a)
      (by intro f hf i hi; simp only [List.mem_singleton] at hf; subst hf; exact hs i hi)
    dsimp only
    split
    · next m' heq' => rw [heq'] at h2; exact h2.trans h1
    · next m' b heq' => rw [heq'] at h2; exact h2.trans h1

/-- A page field reached keeps the canonical form. -/
theorem Part.reachField_canonical {p : Part} (h : p.memoryCanonical) (bus : Bus) (f : PageField) :
    (Part.reachField bus p f).memoryCanonical := by
  have h1 := wf_writeFields p.regs.windowBase bus h
    [{ offset := pageBase + f.offset, size := f.size, value := f.value p }]
  unfold Part.reachField
  dsimp only
  split
  · exact h
  · split
    · next m a heq => rw [heq] at h1; exact h1
    · next m heq => rw [heq] at h1; exact h1

/-- The host's writes keep the canonical form. -/
theorem Part.hostWrites_canonical {p : Part} (h : p.memoryCanonical) (bus : Bus) :
    (p.hostWrites bus).memoryCanonical := Memory.wf_writeAll h bus.host

/-- The host's late writes keep the canonical form. -/
theorem Part.lateWrites_canonical {p : Part} (h : p.memoryCanonical) (bus : Bus) :
    (p.lateWrites bus).memoryCanonical := Memory.wf_writeAll h bus.late

/-! ### A head-block write, byte by byte -/

/-- The bytes of fields, in the order in which a write takes them, each with its offset. -/
def fieldBytes (fields : List FieldWrite) : List (Nat × Byte) :=
  fields.flatMap (fun f => (List.range f.size).map (fun i => (f.offset + i, BitVec.ofNat 8 (f.value / 256 ^ i))))

/-- Bytes written one after another, up to the first that the bus refuses: the memory left, and that byte's offset. -/
def putBytes (base : Word) (bus : Bus) : Memory → List (Nat × Byte) → Memory × Option Nat
  | m, [] => (m, none)
  | m, x :: xs =>
    if bus.writeErrors.contains (busAddress base x.1) then (m, some x.1)
    else putBytes base bus (Memory.write m (busAddress base x.1) x.2) xs

theorem writeBytes_eq_putBytes (base : Word) (bus : Bus) (n value offset : Nat) (m : Memory) :
    writeBytes base bus m offset (toBytes n value)
      = putBytes base bus m ((List.range n).map (fun i => (offset + i, BitVec.ofNat 8 (value / 256 ^ i)))) := by
  induction n generalizing value offset m with
  | zero => simp [toBytes, writeBytes, putBytes]
  | succ n ih =>
    rw [List.range_succ_eq_map]
    simp only [toBytes, writeBytes, List.map_cons, List.map_map, putBytes, Nat.add_zero, Nat.pow_zero, Nat.div_one]
    split
    · rfl
    · rw [ih]
      congr 1
      apply List.map_congr_left
      intro i _
      simp [Nat.pow_succ', Nat.div_div_eq_div_mul]
      omega

theorem putBytes_append (base : Word) (bus : Bus) (xs ys : List (Nat × Byte)) (m : Memory) :
    putBytes base bus m (xs ++ ys) = match putBytes base bus m xs with
      | (m', none) => putBytes base bus m' ys
      | (m', some a) => (m', some a) := by
  induction xs generalizing m with
  | nil => rfl
  | cons x xs ih =>
    simp only [List.cons_append, putBytes]
    split <;> simp_all

/-- A write of fields is the write of their bytes in turn. -/
theorem writeFields_eq_putBytes (base : Word) (bus : Bus) (fields : List FieldWrite) (m : Memory) :
    writeFields base bus m fields = putBytes base bus m (fieldBytes fields) := by
  induction fields generalizing m with
  | nil => rfl
  | cons f fs ih =>
    simp only [writeFields, fieldBytes, List.flatMap_cons, writeBytes_eq_putBytes, putBytes_append]
    split <;> simp_all [fieldBytes]

/-- With no byte refused, every byte is written. -/
theorem putBytes_done (base : Word) (bus : Bus) (xs : List (Nat × Byte))
    (h : ∀ y ∈ xs, busAddress base y.1 ∉ bus.writeErrors) (m : Memory) :
    putBytes base bus m xs = (Memory.writeAll m (xs.map (fun x => (busAddress base x.1, x.2))), none) := by
  induction xs generalizing m with
  | nil => rfl
  | cons x xs ih =>
    have hx := h x (by simp)
    simp [putBytes, hx, ih (fun y hy => h y (by simp [hy])), Memory.writeAll]

/-- The first byte refused ends the write: those before it are written, the rest is not. -/
theorem putBytes_cut (base : Word) (bus : Bus) (xs ys : List (Nat × Byte)) (x : Nat × Byte)
    (h : ∀ y ∈ xs, busAddress base y.1 ∉ bus.writeErrors) (hx : busAddress base x.1 ∈ bus.writeErrors) (m : Memory) :
    putBytes base bus m (xs ++ x :: ys)
      = (Memory.writeAll m (xs.map (fun y => (busAddress base y.1, y.2))), some x.1) := by
  rw [putBytes_append, putBytes_done _ _ _ h]
  simp [putBytes, hx]

end Sys2Proof.Machine
end

