-- ==== Sys2Proof/Laws/Ops.lean ====
section
/-! SUPPORT. What each shared operation of the blocks can do, said once. -/

namespace Sys2Proof.Machine

/-! ### Odometer and tracker -/

/-- An arm request at or below Leg Distance fires at once (R15). -/
theorem Part.armMark_fires (p : Part) (tag : MarkTag) (mm : Nat) (h : mm ≤ p.odo.legDistance) :
    p.armMark tag mm = p.fireMark tag := by
  unfold Part.armMark
  rw [if_pos h]

/-- An arm request above Leg Distance enters the set while the owner's share has a place (R15). -/
theorem Part.armMark_enters (p : Part) (tag : MarkTag) (mm : Nat) (h : p.odo.legDistance < mm)
    (hs : (marksOf p.odo.marks tag.owner).length < markShare tag.owner) :
    p.armMark tag mm = { p with odo := { p.odo with marks := p.odo.marks ++ [{ tag := tag, distance := mm }] } } := by
  unfold Part.armMark
  rw [if_neg (Nat.not_le.mpr h), if_pos hs]

/-- An arm request above Leg Distance with the owner's share full enters nothing (log 12). -/
theorem Part.armMark_full (p : Part) (tag : MarkTag) (mm : Nat) (h : p.odo.legDistance < mm)
    (hs : markShare tag.owner ≤ (marksOf p.odo.marks tag.owner).length) : p.armMark tag mm = p := by
  unfold Part.armMark
  rw [if_neg (Nat.not_le.mpr h), if_neg (Nat.not_lt.mpr hs)]

/-- The marks of an owner after one more mark. -/
theorem marksOf_append (ms : List Mark) (m : Mark) (o : Owner) :
    marksOf (ms ++ [m]) o = marksOf ms o ++ if m.tag.owner = o then [m] else [] := by
  unfold marksOf
  by_cases h : m.tag.owner = o <;> simp [h]

/-- Removing marks removes from every owner's. -/
theorem marksOf_filter_le (ms : List Mark) (test : Mark → Bool) (o : Owner) :
    (marksOf (ms.filter test) o).length ≤ (marksOf ms o).length := by
  unfold marksOf
  rw [List.filter_filter]
  simp only [← List.countP_eq_length_filter]
  exact List.countP_mono_left (fun x _ h => by
    simp only [Bool.and_eq_true] at h
    exact h.1)

/-- An arm request keeps the shares and the limit of Leg Distance (R7, R15). -/
theorem Part.armMark_odometerLaw {p : Part} (h : p.odometerLaw) (tag : MarkTag) (mm : Nat) :
    (p.armMark tag mm).odometerLaw := by
  by_cases h1 : mm ≤ p.odo.legDistance
  · rw [Part.armMark_fires p tag mm h1]
    unfold Part.odometerLaw at h ⊢
    cases tag <;> exact h
  · by_cases h2 : (marksOf p.odo.marks tag.owner).length < markShare tag.owner
    · rw [Part.armMark_enters p tag mm (by omega) h2]
      refine ⟨h.1, ?_, ?_⟩
      · show (marksOf (p.odo.marks ++ _) _).length ≤ _
        rw [marksOf_append]
        by_cases h3 : tag.owner = .tracker
        · rw [h3] at h2; simp [h3]; omega
        · simp [h3]; exact h.2.1
      · show (marksOf (p.odo.marks ++ _) _).length ≤ _
        rw [marksOf_append]
        by_cases h3 : tag.owner = .notices
        · rw [h3] at h2; simp [h3]; omega
        · simp [h3]; exact h.2.2
    · rw [Part.armMark_full p tag mm (by omega) (by omega)]
      exact h

/-- A clear request keeps the shares and the limit of Leg Distance (R7, R15, R17). -/
theorem Part.clearOwner_odometerLaw {p : Part} (h : p.odometerLaw) (o : Owner) : (p.clearOwner o).odometerLaw :=
  ⟨h.1, Nat.le_trans (marksOf_filter_le _ _ _) h.2.1, Nat.le_trans (marksOf_filter_le _ _ _) h.2.2⟩

/-- A journey event goes to the reservation engine, the notice scheduler and the composer, at the end of each queue. -/
theorem Part.publish_queues (p : Part) (cause : Cause) (code : Option Nat) :
    let e : JourneyEvent := { cause := cause, phase := p.trk.phase, code := code, view := p.trk.view }
    (p.publish cause code).res = { p.res with journeys := p.res.journeys ++ [e] } ∧
    (p.publish cause code).ntc = { p.ntc with journeys := p.ntc.journeys ++ [e] } ∧
    (p.publish cause code).cmp = { p.cmp with events := p.cmp.events ++ [.journey e] } :=
  ⟨rfl, rfl, rfl⟩

/-! ### Pins and loads -/

/-- A pin taken, by kind and copy (R178). -/
theorem Part.pins_pin (p : Part) (k j : Kind) (c d : Copy) :
    ((p.pin k c).ed.kind j).pins d = (p.ed.kind j).pins d + if j = k ∧ c = d then 1 else 0 := by
  by_cases h : j = k
  · subst h
    simp [Part.pin, KindState.pins_pin]
  · simp [Part.pin, Edition.kind_setKind_of_ne _ _ h, h]

/-- A pin dropped, by kind and copy (R178). -/
theorem Part.pins_unpin (p : Part) (k j : Kind) (c d : Copy) :
    ((p.unpin k c).ed.kind j).pins d = (p.ed.kind j).pins d - if j = k ∧ c = d then 1 else 0 := by
  by_cases h : j = k
  · subst h
    simp [Part.unpin, KindState.pins_unpin]
  · simp [Part.unpin, Edition.kind_setKind_of_ne _ _ h, h]

/-- A load begins on the live copy while RUN is 1, under its own pin (R22, R65, R87). -/
theorem Part.beginLoad_running (p : Part) (k : Kind) (l : LoadState) (hr : p.regs.run = true) (c : Copy) (a : Nat)
    (hl : ((p.dropLoadPin k l).ed.kind k).live = some c)
    (ha : ((p.dropLoadPin k l).ed.kind k).liveAddress = some a) :
    p.beginLoad k l
      = ((p.dropLoadPin k l).pin k c, .loading c a ((p.dropLoadPin k l).ed.kind k).liveEdition) := by
  have hr' : (p.dropLoadPin k l).regs.run = true := by
    unfold Part.dropLoadPin
    split <;> exact hr
  unfold Part.beginLoad
  simp only [hr', hl, ha, if_true]

/-- A load told while RUN is 0 is owed (R46, R67, R104). -/
theorem Part.beginLoad_stopped (p : Part) (k : Kind) (l : LoadState) (hr : p.regs.run = false) :
    p.beginLoad k l = (p.dropLoadPin k l, .owed) := by
  have hr' : (p.dropLoadPin k l).regs.run = false := by
    unfold Part.dropLoadPin
    split <;> exact hr
  unfold Part.beginLoad
  simp only [hr', Bool.false_eq_true, if_false]

/-! ### Refresh lists -/

/-- A mark enters the panel at the tail of its line's list, where it is configured, its health is drawn and it is not
listed (R114). -/
theorem Part.markPanel_eq (p : Part) (l : Line) (a : Nat) :
    p.markPanel l a
      = if a ∉ p.cmp.refresh l ∧ ((p.line l).health a).drawn = true ∧ p.cmp.configured l a = true then
          { p with cmp := p.cmp.setRefresh l (p.cmp.refresh l ++ [a]) }
        else p := by
  unfold Part.markPanel
  by_cases h : a ∈ p.cmp.refresh l
  · simp [h]
  · by_cases h2 : ((p.line l).health a).drawn = true <;> by_cases h3 : p.cmp.configured l a = true <;> simp [h, h2, h3]

/-- A mark leaves the configured panels. -/
@[simp] theorem Part.markPanel_panels (p : Part) (l : Line) (a : Nat) : (p.markPanel l a).cmp.panels = p.cmp.panels := by
  rw [Part.markPanel_eq]
  split <;> cases l <;> rfl

/-- A mark leaves every line's controller. -/
@[simp] theorem Part.markPanel_line (p : Part) (l k : Line) (a : Nat) : (p.markPanel l a).line k = p.line k := by
  rw [Part.markPanel_eq]
  split <;> cases k <;> rfl

/-- A mark never lists a panel twice (R114). -/
theorem Part.markPanel_composerLaw {p : Part} (h : p.composerLaw) (l : Line) (a : Nat) :
    (p.markPanel l a).composerLaw := by
  rw [Part.markPanel_eq]
  split
  · next hc =>
    obtain ⟨h1, h2, h3, h4, h5, h6, h7⟩ := h
    have add : ∀ r : List Nat, r.Nodup → a ∉ r → (r ++ [a]).Nodup := by
      intro r hr ha
      rw [List.nodup_append]
      exact ⟨hr, by simp, by intro x hx y hy e; simp at hy; subst hy; subst e; exact ha hx⟩
    have listed : ∀ r : List Nat, (∀ b ∈ r, p.cmp.configured l b = true) →
        ∀ b ∈ r ++ [a], p.cmp.configured l b = true := by
      intro r hr b hb
      rcases List.mem_append.mp hb with hb | hb
      · exact hr b hb
      · rw [List.mem_singleton.mp hb]; exact hc.2.2
    cases l
    · exact ⟨add _ h1 hc.1, h2, h3, h4, listed _ h5, h6, h7⟩
    · exact ⟨h1, add _ h2 hc.1, h3, h4, h5, listed _ h6, h7⟩
    · exact ⟨h1, h2, add _ h3 hc.1, h4, h5, h6, listed _ h7⟩
  · exact h

/-- Marks made one after another never list a panel twice (R114, R115). -/
theorem Part.markWhere_composerLaw {p : Part} (h : p.composerLaw) (test : PanelDraw → Bool) :
    (p.markWhere test).composerLaw :=
  foldl_law Part.composerLaw _ (fun _ x hq => Part.markPanel_composerLaw hq x.line x.address) _ p h

/-! ### Head-block writes of the edition unit -/

/-- A completion's full write keeps the canonical form (R176). -/
theorem Part.completionWrite_canonical {p : Part} (h : p.memoryCanonical) (bus : Bus) (k : Kind) (request : Nat) :
    (p.completionWrite bus k request).memoryCanonical := by
  unfold Part.completionWrite Part.fullWrite
  apply Part.headWrite_canonical
  apply Part.lateWrites_canonical
  unfold Part.requestBack
  split <;> exact h

/-- An amendment's result write keeps the canonical form (R181). -/
theorem Part.resultWrite_canonical {p : Part} (h : p.memoryCanonical) (bus : Bus) (slot code : Nat) :
    (p.resultWrite bus slot code).memoryCanonical := by
  have h1 := wf_writeFields p.regs.windowBase bus h [{ offset := slot + 16, size := 1, value := code }]
  unfold Part.resultWrite
  split
  · next m heq => rw [heq] at h1; exact h1
  · next m a heq => rw [heq] at h1; exact h1

/-- A record's result and take write keep the canonical form (R181). -/
theorem Part.takeRecord_canonical {p : Part} (h : p.memoryCanonical) (bus : Bus) (slot : Nat) (r : AmendResult) :
    (p.takeRecord bus slot r).memoryCanonical := by
  have h1 := Part.resultWrite_canonical h bus slot r.code
  unfold Part.takeRecord Part.advanceTake Part.takeWrite
  apply Part.headWrite_canonical
  exact h1

/-- An owed write keeps the canonical form (R188). -/
theorem Part.makeOwed_canonical {p : Part} (h : p.memoryCanonical) (bus : Bus) (w : OwedWrite) :
    (Part.makeOwed bus p w).memoryCanonical := by
  cases w with
  | full k r => exact Part.completionWrite_canonical h bus k r
  | amend slot r => exact Part.takeRecord_canonical h bus slot r
  | position r => exact Part.headWrite_canonical h bus _

/-! ### Lines and sweep timer -/

/-- A group whose SHOW is begun: its open round is ready by R151's law, as it stands. -/
theorem LineCtl.dueGroup_ready {c : LineCtl} {g : Nat} (h : c.dueGroup = some g) :
    g < 4 ∧ c.isGrouped g = true ∧ (c.group g).showDue = true ∧
      ∃ r, (c.group g).round = some r ∧ r.ready (c.hold g) = true := by
  have hs := List.find?_some h
  have hm := List.mem_range.1 (List.mem_of_find?_eq_some h)
  simp only [Bool.and_eq_true, Group.sendable] at hs
  obtain ⟨hg, hd⟩ := hs
  split at hd
  · cases hd
  · rename_i r hr
    simp only [Bool.and_eq_true] at hd
    exact ⟨hm, hg, hd.1, r, hr, hd.2⟩

/-- R160: a boundary never ends a lead pulse before the end it already had, as times are compared here. -/
theorem Sweep.leadEnd_keeps {w : Sweep} {number : Nat} {e : Word} (h : w.leadPulse = some e) :
    w.leadEnd number = w.us + leadPulseLength number ∧ reached (w.us + leadPulseLength number) e = true ∨
      w.leadEnd number = e := by
  simp only [Sweep.leadEnd, h]
  split <;> simp_all

/-- R147: after an outcome, a sweep and a probe's beginning the flag of a QUERY due by count is what the counts say. -/
theorem Panel.after_judged (q : Panel) (o : ExchangeOutcome) : (q.after o).queryDue = (q.after o).countedOut := rfl

theorem Panel.sweep_judged {q : Panel} (h : q.queryDue = q.countedOut) : q.sweep.queryDue = q.sweep.countedOut := by
  unfold Panel.sweep
  split <;> first | rfl | exact h

theorem Panel.probed_judged {q : Panel} (h : q.queryDue = q.countedOut) : q.probed.queryDue = q.probed.countedOut := by
  unfold Panel.probed
  split <;> first | rfl | exact h

theorem Panel.idleFull_judged {q : Panel} (h : q.queryDue = q.countedOut) : q.idleFull = q := by
  unfold Panel.idleFull
  split
  · next c =>
    have : q.countedOut = true := by simp [Panel.countedOut, c.1, c.2]
    rw [← this, ← h]
  · rfl

theorem Panel.probeEnd_judged {q : Panel} (h : q.queryDue = q.countedOut) : q.probeEnd = q := by
  unfold Panel.probeEnd
  split
  · next c =>
    have : q.countedOut = true := by rcases c.1 with e | e <;> simp [Panel.countedOut, e, c.2]
    rw [← this, ← h]
  · rfl

end Sys2Proof.Machine
end

