-- ==== Sys2Proof/Laws/Port.lean ====
section
/-! SUPPORT. The SPI target port: what a whole transaction does (R193). -/

namespace Sys2Proof.Machine

/-- The port with its state replaced. -/
def Part.setSpi (p : Part) (x : Port) : Part := { p with spi := x }

/-! ### No register write reads the port -/

theorem Part.line_setSpi (p : Part) (x : Port) (l : Line) : (p.setSpi x).line l = p.line l := by cases l <;> rfl

theorem Part.setLine_setSpi (p : Part) (x : Port) (l : Line) (c : LineCtl) :
    (p.setSpi x).setLine l c = (p.setLine l c).setSpi x := by cases l <;> rfl

theorem Part.markPanel_setSpi (p : Part) (x : Port) (l : Line) (a : Nat) :
    (p.setSpi x).markPanel l a = (p.markPanel l a).setSpi x := by
  unfold Part.markPanel
  rw [Part.line_setSpi]
  rw [apply_ite (fun q : Part => q.setSpi x), apply_ite (fun q : Part => q.setSpi x)]
  rfl

theorem Part.dropLoadPin_setSpi (p : Part) (x : Port) (k : Kind) (l : LoadState) :
    (p.setSpi x).dropLoadPin k l = (p.dropLoadPin k l).setSpi x := by cases l <;> rfl

theorem Part.dropComposition_setSpi (p : Part) (x : Port) :
    (p.setSpi x).dropComposition = p.dropComposition.setSpi x := by
  cases h : p.cmp.comp with
  | none => simp [Part.dropComposition, Part.setSpi, h]
  | some c => cases h2 : c.pin <;> simp [Part.dropComposition, Part.setSpi, h, h2, Part.unpin, Part.changeKind]

theorem Part.stopComposition_setSpi (p : Part) (x : Port) :
    (p.setSpi x).stopComposition = p.stopComposition.setSpi x := by
  have e : (p.setSpi x).cmp.comp = p.cmp.comp := rfl
  unfold Part.stopComposition
  rw [e, Part.dropComposition_setSpi]
  split
  · rfl
  · exact Part.markPanel_setSpi _ _ _ _

theorem Part.cutRun_setSpi (p : Part) (x : Port) : (p.setSpi x).cutRun = p.cutRun.setSpi x := by
  cases h : p.ed.run with
  | none => simp [Part.cutRun, Part.setSpi, h]
  | some run => cases h2 : run.stage <;> simp [Part.cutRun, Part.setSpi, h, h2, Part.setRun, Part.owe]

theorem Part.stopLoads_setSpi (p : Part) (x : Port) : (p.setSpi x).stopLoads = p.stopLoads.setSpi x := by
  unfold Part.stopLoads
  simp only [Part.dropLoadPin_setSpi]
  rfl

theorem Part.ownBoundary_setSpi (p : Part) (x : Port) : (p.setSpi x).ownBoundary = p.ownBoundary.setSpi x := by
  unfold Part.ownBoundary
  rw [apply_ite (fun q : Part => q.setSpi x)]
  rfl

theorem Part.sweepRun_setSpi (p : Part) (x : Port) : (p.setSpi x).sweepRun = p.sweepRun.setSpi x := by
  unfold Part.sweepRun
  rw [apply_ite (fun q : Part => q.setSpi x), ← Part.ownBoundary_setSpi]
  rfl

theorem Part.startRunning_setSpi (p : Part) (x : Port) : (p.setSpi x).startRunning = p.startRunning.setSpi x :=
  Part.sweepRun_setSpi { p with regs := { p.regs with run := true } } x

theorem Part.stopRun_setSpi (p : Part) (x : Port) : (p.setSpi x).stopRun = p.stopRun.setSpi x := by
  let q : Part := { p with
    regs := { p.regs with run := false }
    swp := p.swp.stop
    ed := p.ed.abandonSwitches
    rep := { p.rep.cutPage with boundaries := 0 } }
  show ((q.setSpi x).cutRun.stopLoads.stopComposition).dropBoundaries
    = (q.cutRun.stopLoads.stopComposition.dropBoundaries).setSpi x
  rw [Part.cutRun_setSpi, Part.stopLoads_setSpi, Part.stopComposition_setSpi]
  rfl

theorem Part.writeRun_setSpi (p : Part) (x : Port) (v : Bool) : (p.setSpi x).writeRun v = (p.writeRun v).setSpi x := by
  unfold Part.writeRun
  rw [apply_ite (fun q : Part => q.setSpi x), apply_ite (fun q : Part => q.setSpi x), Part.startRunning_setSpi,
    Part.stopRun_setSpi]
  rfl

theorem Part.writeFreeze_setSpi (p : Part) (x : Port) (v : Bool) :
    (p.setSpi x).writeFreeze v = (p.writeFreeze v).setSpi x := by
  unfold Part.writeFreeze
  rw [apply_ite (fun q : Part => q.setSpi x), apply_ite (fun q : Part => q.setSpi x)]
  rfl

/-- What a register write does to everything but the port does not depend on the port. -/
theorem Part.writeRegister_setSpi (p : Part) (x y : Port) (n : Nat) (v : Word) :
    ((p.setSpi x).writeRegister n v).setSpi y = (p.writeRegister n v).setSpi y := by
  unfold Part.writeRegister
  split
  · unfold Part.writeControl
    rw [apply_ite (fun q : Part => q.setSpi y), apply_ite (fun q : Part => q.setSpi y), Part.writeRun_setSpi,
      Part.writeFreeze_setSpi]
    rfl
  · unfold Part.writeWindowBase
    rw [apply_ite (fun q : Part => q.setSpi y), apply_ite (fun q : Part => q.setSpi y)]
    rfl
  · rfl
  · rfl
  · rfl

/-! ### The bits of a transaction -/

/-- The value of the bits of a byte. -/
theorem bitsValue_byteBits (b : Byte) : bitsValue (byteBits b.toNat) = b.toNat := by
  revert b; decide

theorem bitsValue_byteBits_lt {n : Nat} (h : n < 256) : bitsValue (byteBits n) = n := by
  have := bitsValue_byteBits (BitVec.ofNat 8 n)
  rwa [BitVec.toNat_ofNat, Nat.mod_eq_of_lt h] at this

theorem byteBits_length (n : Nat) : (byteBits n).length = 8 := rfl

/-- The data bits that a register's value gives, byte by byte. -/
theorem serialReply_eq (v : Word) :
    serialReply v = byteBits (v.toNat % 256) ++ (byteBits (v.toNat / 256 % 256) ++
      (byteBits (v.toNat / 65536 % 256) ++ byteBits (v.toNat / 16777216 % 256))) := by
  simp [serialReply, toBytes, BitVec.toNat_ofNat, Nat.div_div_eq_div_mul]

theorem serialReply_length (v : Word) : (serialReply v).length = 32 := by
  simp [serialReply_eq, byteBits_length]

/-- The data bits read back the value. -/
theorem serialData_serialReply (v : Word) : serialData (serialReply v) = v := by
  have hv : v.toNat < 4294967296 := v.isLt
  rw [serialReply_eq]
  unfold serialData
  have l := byteBits_length
  simp only [List.take_append, List.drop_append, l, List.take_of_length_le, List.drop_eq_nil_of_le, Nat.le_refl,
    Nat.reduceSub, List.take_zero, List.drop_zero, List.append_nil, List.nil_append, Nat.reduceLeDiff]
  rw [bitsValue_byteBits_lt (by omega), bitsValue_byteBits_lt (by omega), bitsValue_byteBits_lt (by omega),
    bitsValue_byteBits_lt (by omega)]
  apply BitVec.eq_of_toNat_eq
  rw [BitVec.toNat_ofNat]
  omega

/-- A register number is read back from a command byte. -/
theorem bitsValue_command {n : Nat} (h : n < 8) (write : Bool) :
    bitsValue (((byteBits ((if write then 128 else 0) + n % 8)).drop 5).take 3) = n := by
  revert write
  interval_cases n <;> decide

/-- R193: the bits of a write give its register and value. -/
theorem serialWrite_writeBits {n : Nat} (h : n < 8) (v : Word) : serialWrite (writeBits n v) = some (n, v) := by
  have hn := bitsValue_command h true
  have hl : (writeBits n v).length = 40 := by simp [writeBits, byteBits_length, serialReply_length]
  have hh : (writeBits n v).head? = some true := by
    interval_cases n <;> rfl
  have h5 : ((writeBits n v).drop 5).take 3 = ((byteBits (128 + n % 8)).drop 5).take 3 := by
    unfold writeBits
    rw [List.drop_append_of_le_length (by rw [byteBits_length]; omega),
      List.take_append_of_le_length (by rw [List.length_drop, byteBits_length])]
  have h8 : ((writeBits n v).drop 8).take 32 = serialReply v := by
    unfold writeBits
    rw [List.drop_append, byteBits_length, List.drop_of_length_le (by rw [byteBits_length])]
    rw [List.nil_append, Nat.sub_self, List.drop_zero, List.take_of_length_le (by rw [serialReply_length])]
  unfold serialWrite
  rw [if_neg (by rw [hl, hh]; simp), h5, h8, serialData_serialReply]
  simpa using hn

/-! ### Whole transactions -/

/-- A falling edge of SCK moves SDO and nothing else. -/
theorem Part.clockFall_eq (p : Part) : ∃ level : Option Bool, p.clockFall = p.setSpi { p.spi with sending := level } := by
  unfold Part.clockFall Port.shift
  split
  · exact ⟨_, rfl⟩
  · exact ⟨p.spi.sending, rfl⟩

/-- The port while a transaction that captures nothing is in progress, after some bits. -/
def Port.during (bits : List Bool) : Port :=
  { selected := true, awaitHigh := false, bits := bits, captured := none, sending := none }

/-- With nothing captured, SDO has no level to change to. -/
theorem Part.clockFall_during (p : Part) (bs : List Bool) :
    (p.setSpi (Port.during bs)).clockFall = p.setSpi (Port.during bs) := rfl

/-- A bit that nothing acts on is only taken. -/
theorem Part.clockBit_quiet (p : Part) (bs : List Bool) (b : Bool)
    (h : bs.length < 39) (hr : bs.length = 7 → (bs ++ [b]).head? ≠ some false) :
    (p.setSpi (Port.during bs)).clockBit b = p.setSpi (Port.during (bs ++ [b])) := by
  have hlen : (bs ++ [b]).length = bs.length + 1 := by simp
  unfold Part.clockBit
  rw [if_pos ⟨rfl, rfl, show bs.length < 40 by omega⟩]
  unfold Part.actOnBits
  show (if (bs ++ [b]).length = 8 then _ else if (bs ++ [b]).length = 40 then _ else _) = _
  rw [hlen]
  by_cases h7 : bs.length = 7
  · have hs : serialRead (bs ++ [b]) = none := by
      unfold serialRead
      rw [if_pos (Or.inr (hr h7))]
    rw [if_pos (by omega)]
    show (match serialRead (bs ++ [b]) with | some n => _ | none => _) = _
    rw [hs]; rfl
  · rw [if_neg (by omega), if_neg (by omega)]; rfl

/-- Bits of a write before its 40th are only taken. -/
theorem Part.clockBits_write (p : Part) (more : List Bool) :
    ∀ bs : List Bool, bs.length + more.length < 40 → (bs ++ more).head? = some true →
      more.foldl Part.clockCycle (p.setSpi (Port.during bs)) = p.setSpi (Port.during (bs ++ more)) := by
  induction more with
  | nil => intro bs _ _; simp
  | cons b more ih =>
    intro bs hl hh
    rw [List.length_cons] at hl
    rw [List.foldl_cons, Part.clockCycle, Part.clockFall_during, Part.clockBit_quiet p bs b (by omega), ih (bs ++ [b]) (by simp; omega) (by simpa using hh)]
    · simp
    · intro h7
      cases bs with
      | nil => simp at h7
      | cons x xs => simpa using (by simpa using hh : x = true)

/-- R193, R185: a register write on the port is the register's write, and leaves the port idle. -/
theorem Part.portWrite_eq (p : Part) {n : Nat} (h : n < 8) (v : Word) :
    p.portWrite n v = { p.writeRegister n v with spi := Port.idle } := by
  have hl : (writeBits n v).length = 40 := by simp [writeBits, byteBits_length, serialReply_length]
  have hw := serialWrite_writeBits h v
  obtain ⟨front, last, hb⟩ : ∃ front last, writeBits n v = front ++ [last] :=
    ⟨(writeBits n v).dropLast, (writeBits n v).getLast (by intro e; rw [e] at hl; simp at hl),
      (List.dropLast_append_getLast _).symm⟩
  have hf : front.length = 39 := by rw [hb] at hl; simpa using hl
  have hh : front.head? = some true := by
    have : (writeBits n v).head? = some true := by interval_cases n <;> rfl
    rw [hb] at this
    cases front with
    | nil => simp at hf
    | cons x xs => simpa using this
  have hstart : p.selectRise.selectFall = p.setSpi (Port.during []) := rfl
  unfold Part.portWrite Part.transact
  rw [hstart, hb, List.foldl_append, List.foldl_cons, List.foldl_nil,
    Part.clockBits_write p front [] (by simp; omega) (by simpa using hh), List.nil_append]
  have hlast : (p.setSpi (Port.during front)).clockCycle last
      = (p.setSpi (Port.during (writeBits n v))).writeRegister n v := by
    rw [hb] at hw hl ⊢
    rw [Part.clockCycle, Part.clockFall_during]
    unfold Part.clockBit
    rw [if_pos ⟨rfl, rfl, show front.length < 40 by omega⟩]
    unfold Part.actOnBits
    show (if (front ++ [last]).length = 8 then _ else if (front ++ [last]).length = 40 then _ else _) = _
    rw [hl, if_neg (by decide), if_pos rfl]
    show (match serialWrite (front ++ [last]) with | some (n, v) => _ | none => _) = _
    rw [hw]
    rfl
  rw [hlast]
  exact Part.writeRegister_setSpi p _ Port.idle n v

/-- What a register write on the port leaves as it was. -/
@[simp] theorem Part.portWrite_keeps (p : Part) (n : Nat) (v : Word) (h : n < 8) :
    (p.portWrite n v).mem = p.mem ∧ (p.portWrite n v).pins = p.pins ∧ (p.portWrite n v).free = p.free := by
  rw [Part.portWrite_eq p h v]
  exact ⟨(Part.writeRegister_keeps p n v).1, (Part.writeRegister_keeps p n v).2.1, (Part.writeRegister_keeps p n v).2.2⟩

end Sys2Proof.Machine
end

