-- ==== Sys2Proof/Tests/Slice0.lean ====
section
/-! SUPPORT. Own tests: ill-formed operands, the premises of the statements met, and the spec's worked examples. -/

section

open Sys2Proof Sys2Proof.Machine

namespace Sys2Proof.Tests

/-! ### Operands out of range are turned away -/

theorem test_wf_host_address : (Instr.placeAtStop { host := [(2 ^ 32, 0)] }).wf = false := by decide
theorem test_wf_late_address : (Instr.unplace { late := [(2 ^ 32, 0)] }).wf = false := by decide
theorem test_wf_read_error_address : (Instr.compositionBegin { readErrors := [2 ^ 32] }).wf = false := by decide
theorem test_wf_write_error_address : (Instr.boundaryOperation { writeErrors := [2 ^ 32] }).wf = false := by decide
theorem test_wf_last_address : (Instr.boundaryOperation { host := [(2 ^ 32 - 1, 0)] }).wf = true := by decide
theorem test_wf_notice_id_zero : (Instr.armMark (.notice 0 0) 5).wf = false := by decide
theorem test_wf_notice_id_256 : (Instr.armMark (.notice 256 0) 5).wf = false := by decide
theorem test_wf_panel_address_zero : (Instr.idleCountFull .seat 0).wf = false := by decide
theorem test_wf_panel_address_64 : (Instr.probeCountdownEnd .door 64).wf = false := by decide
theorem test_wf_group_four : (Instr.holdLimitReached .end_ 4).wf = false := by decide
theorem test_wf_reply_of_eight : (Instr.reply .seat (List.replicate 8 ⟨0, false, true⟩)).wf = false := by decide
theorem test_wf_reply_of_nine : (Instr.reply .seat (List.replicate 9 ⟨0, false, true⟩)).wf = true := by decide
theorem test_wf_short_reply_of_nine : (Instr.replyTimeout .seat (List.replicate 9 ⟨0, false, true⟩)).wf = false := by
  decide
theorem test_wf_register_with_an_effect :
    (Instr.ignoredRegisterWrite 1 0).wf = false ∧ (Instr.ignoredRegisterWrite 4 0).wf = false := by decide
theorem test_wf_register_number_eight : (Instr.ignoredRegisterWrite 8 0).wf = false := by decide

/-! ### Small states -/

/-- A part with an empty queue. -/
def stateOf (p : Part) : State := { pending := [], part := p }

/-- The right side of an equation: the state after a command, the reset state where it gives none. -/
def after (o : Answer) : State :=
  match o with
  | .next t => t
  | .fault _ => State.reset
  | .refused _ => State.reset

/-- What a read gives, and what it fails with. -/
def valueOf {ε α : Type} (x : Except ε α) : Option α :=
  match x with
  | .ok v => some v
  | .error _ => none
def failureOf {ε α : Type} (x : Except ε α) : Option ε :=
  match x with
  | .ok _ => none
  | .error e => some e

/-- The wheel of 1.9: C = 2890 mm, P = 100, D = 4. -/
def wheel : WheelParams := { rising := true, d := 4, c := 2890, p := 100 }

/-- An ACTIVE odometer, one edge short of a capture. -/
def rolling : Odometer :=
  { Odometer.reset with wheel := some wheel, workingP := some 100, edgeCount := 3, legDistance := 15999900 }

/-- Reset with this odometer, or tracker, engine, scheduler, composer, sweep timer, edition unit, report unit. -/
def withOdo (o : Odometer) : State := stateOf { Part.reset with odo := o }
def withTrk (t : Tracker) : State := stateOf { Part.reset with trk := t }
def withRes (r : Reservations) : State := stateOf { Part.reset with res := r }
def withNtc (n : Notices) : State := stateOf { Part.reset with ntc := n }
def withCmp (c : Composer) : State := stateOf { Part.reset with cmp := c }
def withSeat (c : LineCtl) : State := stateOf { Part.reset with lineSeat := c }
def withSwp (w : Sweep) : State := stateOf { Part.reset with swp := w }
def withEd (e : Edition) : State := stateOf { Part.reset with ed := e }
def withRep (r : Report) : State := stateOf { Part.reset with rep := r }

/-- The same with RUN 1. -/
def running (s : State) : State := { s with part := { s.part with regs := { s.part.regs with run := true } } }

/-- A served stop. -/
def stop (code index legLength : Nat) : ServedStop :=
  { code := code, mapX := 10 * index, index := index, divide := false, join := false, legLength := legLength }

/-- Two and three served stops. -/
def view2 : List ServedStop := [stop 11 0 18000, stop 12 1 0]
def view3 : List ServedStop := [stop 11 0 18000, stop 12 1 7000, stop 13 2 0]

/-- A line of one panel, and a coach profile with it on each line. -/
def lineConfig : LineConfig :=
  { rate := 0, panels := [{ address := 5, group := 0 }], groups := List.replicate 4 { grouped := false, hold := 15 }
    thresholds := [10, 20, 30, 40, 50, 60, 70, 80], levels := [0, 1, 2, 3, 4, 5, 6, 7, 15] }
def profile : Profile :=
  { wheel := wheel, motion := { vMove := 30, vStop := 10, nMove := 4, nStill := 3, nDoor := 5 }
    portion := 1, a := 2000, w := 300, o := 500, period := 200, wrap := 3000, role := .alone
    outs := List.replicate 4 { source := .off, invert := false }
    endPage := 1, doorPage := 2, seatPages := [3, 4, 5, 6, 7, 8]
    seat := lineConfig, end_ := lineConfig, door := lineConfig
    seatMap := [{ number := 21, address := 5, half := .left }] }

/-! ### Premises met: the queue, the resets and the laws -/

theorem test_premises_EmptyQueueRunsWhatIsDue :
    (State.reset.pending = [] ∧ State.reset.part.due = none) ∧
    State.reset.part.swp.usInMs + 1 ≠ 1000 ∧
    (withSwp { Sweep.reset with usInMs := 999 }).part.due = none ∧
    (withOdo { Odometer.reset with doorStepDue := true }).part.due = some (.doorSample false) := by decide

/-- The last us of a ms, with this many ms of the door step passed. -/
def lastUs (doorMs : Nat) : State :=
  stateOf { Part.reset with swp := { Sweep.reset with usInMs := 999 }, odo := { Odometer.reset with doorMs := doorMs } }

theorem test_premises_EmptyQueueRunsWhatIsDue_at_a_ms : ∀ n, n ∈ [0, 8, 9] →
    (lastUs n).pending = [] ∧ (lastUs n).part.due = none ∧ (lastUs n).part.swp.usInMs + 1 = 1000 ∧
      (decide ((lastUs n).part.odo.doorMs + 1 = 10) = decide (n = 9)) := by decide

/-- A line that sends a QUERY, to be cut off by a reset. -/
def sending : LineCtl :=
  let query : Exchange :=
    { kind := .query, address := 5, group := 0, frame := [], rate := 0, awaiting := false, due := 9 }
  { LineCtl.reset with exchange := some query }

theorem test_premises_ResetsLeaveStoppedPart :
    (((withSeat sending).part.line .end_).exchange = none ∧ ((withSeat sending).part.line .end_).quiet = none) ∧
    ((withSeat sending).part.line .seat).exchange ≠ none := by decide

theorem test_premises_StepKeepsMemoryCanonical :
    ∃ s t : State, step s = .next t ∧ s.part.memoryCanonical ∧ s.part.mem ≠ [] :=
  ⟨stateOf { Part.reset with mem := [(3, 7)] }, _, rfl, by unfold Part.memoryCanonical; decide, by decide⟩

/-- Leg Distance at its limit, and both owners' shares full, one capture short. -/
def saturated : Odometer :=
  { rolling with
    legDistance := 4294967295
    marks := List.replicate 2 { tag := .pass 1, distance := 4294967296 } ++
      List.replicate 6 { tag := .notice 1 1, distance := 4294967296 } }

theorem test_premises_StepKeepsBlockLimits :
    (∃ s t : State, step s = .next t ∧ s.part.odometerLaw ∧ s.part.odo.legDistance = 4294967295) ∧
    (∃ s t : State, step s = .next t ∧ s.part.noticeLaw ∧ s.part.ntc.active.length = 8) ∧
    (∃ s t : State, step s = .next t ∧ s.part.composerLaw ∧ s.part.cmp.refreshSeat ≠ []) ∧
    ∃ s t : State, step s = .next t ∧ s.part.windowLaw ∧ s.part.ed.take = 63 := by
  refine ⟨⟨withOdo saturated, _, rfl, by unfold Part.odometerLaw; decide, rfl⟩,
    ⟨withNtc { Notices.reset with active := (List.range 8).map (fun i => { id := i + 1, phase := .showing, countdown := 9 }) },
      _, rfl, by unfold Part.noticeLaw; decide, rfl⟩,
    ⟨withCmp { Composer.reset with
        refreshSeat := [1, 63], panels := [{ line := .seat, address := 1, moving := false, strip := false, bars := [] },
          { line := .seat, address := 63, moving := false, strip := false, bars := [] }] },
      _, rfl, by unfold Part.composerLaw; decide, by decide⟩,
    ⟨withEd { Edition.reset with take := 63 }, _, rfl, by unfold Part.windowLaw; decide, rfl⟩⟩

theorem test_premises_StepKeepsTrackerLaw :
    ∃ s t : State, step s = .next t ∧ s.part.trackerLaw ∧ s.part.trk.phase = .running 1 :=
  ⟨withTrk { Tracker.reset with view := view3, phase := .running 1 }, _, rfl,
    by unfold Part.trackerLaw; exact ⟨fun _ h => (by cases h), fun k h => (by cases h; decide)⟩, rfl⟩

theorem test_premises_StepKeepsPinLaw :
    ∃ s t : State, step s = .next t ∧ s.part.pinLaw ∧ s.part.ed.stops.pinsA = 1 :=
  ⟨stateOf { Part.reset with
      trk := { Tracker.reset with load := .loading .a 512 7 }
      ed := { Edition.reset with stops := { KindState.reset with pinsA := 1 } } }, _, rfl,
    fun k c => by cases k <;> cases c <;> rfl, rfl⟩

theorem test_premises_StepKeepsStoppedLaw :
    ∃ s t : State, step s = .next t ∧ s.part.stoppedLaw ∧ s.part.regs.run = false :=
  ⟨State.reset, _, rfl, fun _ => ⟨rfl, fun k c => by cases k <;> cases c <;> rfl, fun k => by cases k <;> rfl, rfl, rfl,
    rfl, fun _ h => nomatch h⟩, rfl⟩

/-! ### Premises met: the odometer -/

theorem test_premises_WheelEdgeCountsActiveEdges :
    State.reset.part.odo.wheel = none ∧
    (withOdo rolling).part.odo.wheel = some wheel ∧ false ≠ wheel.rising ∧ true = wheel.rising ∧
    wheel.d ≤ (withOdo rolling).part.odo.edgeCount + 1 ∧
    (withOdo { rolling with edgeCount := 2 }).part.odo.edgeCount + 1 < wheel.d := by decide

theorem test_premises_CaptureUpdatesDistanceAndSpeed :
    (withOdo rolling).part.odo.wheel = some wheel ∧ (withOdo rolling).part.odo.workingP = some 100 ∧
    wheel.d ≤ (withOdo rolling).part.odo.edgeCount + 1 ∧ (withOdo rolling).part.odo.speedRef = none ∧
    (withOdo { rolling with speedRef := some 4294967295#32 }).part.odo.speedRef = some 4294967295#32 := by decide

theorem test_premises_CaptureFiresReachedMarks :
    (withOdo rolling).part.odo.wheel = some wheel ∧ wheel.d ≤ (withOdo rolling).part.odo.edgeCount + 1 := by decide

/-- One moving sample short of MOVING, and one still sample short of STILL. -/
def almostMoving : Odometer := { rolling with movingRun := 3 }
def almostStill : Odometer := { rolling with motion := .moving, stillRun := 2 }

theorem test_premises_MotionDetectorCounts :
    (almostMoving.motion = .still ∧ almostMoving.motionParams.vMove ≤ 30 ∧
      almostMoving.motionParams.nMove ≤ min (almostMoving.movingRun + 1) 31) ∧
    (rolling.motion = .still ∧ min (rolling.movingRun + 1) 31 < rolling.motionParams.nMove) ∧
    (almostStill.motion = .moving ∧ ¬ almostStill.motionParams.vMove ≤ 9 ∧ 9 < almostStill.motionParams.vStop ∧
      almostStill.motionParams.nStill ≤ min (almostStill.stillRun + 1) 7) ∧
    (almostStill.motion = .moving ∧ ¬ 10 < almostStill.motionParams.vStop ∧ 0 < almostStill.motionParams.nStill) := by
  decide

/-- Silence due; DOOR one sample short of RELEASED; one sample before that. -/
def silent : Odometer := { rolling with silence := some 0 }
def almostReleased : Odometer := { rolling with doorRun := 4 }

theorem test_premises_SilenceAndDoorSamples :
    ((withOdo silent).part.odo.silence = some 0#32 ∧ reached (withOdo silent).part.swp.ms 0#32 = true) ∧
    false = decide ((withOdo rolling).part.odo.door = .released) ∧
    (true ≠ decide ((withOdo rolling).part.odo.door = .released) ∧
      (withOdo { rolling with doorRun := 3 }).part.odo.doorRun + 1 < rolling.motionParams.nDoor) ∧
    (withOdo almostReleased).part.odo.motionParams.nDoor ≤ (withOdo almostReleased).part.odo.doorRun + 1 := by decide

/-- Marks of both owners: one place left to each. -/
def marked : Odometer :=
  { rolling with marks := { tag := .pass 4, distance := 18500000 } ::
      List.replicate 5 { tag := .notice 7 2, distance := 17000000 } }

theorem test_premises_ArmAndClearRequests :
    (15999900#40).toNat ≤ (withOdo marked).part.odo.legDistance ∧
    (withOdo marked).part.odo.legDistance < (15999901#40).toNat ∧
    (MarkTag.approach 4 = .approach 4 ∧ MarkTag.pass 4 = .pass 4) ∧
    ((withOdo marked).part.odo.marks.filter (fun m => decide (m.tag.owner = .tracker))).length < 2 ∧
    ((withOdo marked).part.odo.marks.filter (fun m => decide (m.tag.owner = .notices))).length < 6 ∧
    (withTrk { Tracker.reset with inbox := [.cleared] }).part.trk.inbox = [.cleared] ∧
    (withNtc { Notices.reset with inbox := [.cleared] }).part.ntc.inbox = [.cleared] := by decide

theorem test_premises_ProfileLoadAtOdometer :
    ((withOdo { Odometer.reset with profiles := [profile] }).part.odo.profiles = [profile] ∧
      (withOdo { Odometer.reset with profiles := [profile] }).part.odo.wheel = none) ∧
    ((withOdo { rolling with profiles := [profile] }).part.odo.profiles = [profile] ∧
      (withOdo { rolling with profiles := [profile] }).part.odo.wheel = some wheel) := by decide

/-! ### Premises met: the tracker -/

theorem test_premises_ServedViewOfPortion :
    ∃ (stops : List StopRecord) (v w : ServedStop), (servedView stops (some 2))[0]? = some v ∧
      (servedView stops (some 2))[0 + 1]? = some w :=
  let r (code mask : Nat) : StopRecord :=
    { code := code, name := none, shortName := none, mask := mask, divide := false, join := false, legLength := 5
      mapX := code, arrival := none, departure := none }
  ⟨[r 1 2, r 2 1, r 3 2], { stop 1 0 10 with mapX := 1 }, { stop 3 2 0 with mapX := 3 }, by decide, by decide⟩

theorem test_premises_ServedViewOfPortion_last :
    let r (code mask : Nat) : StopRecord :=
      { code := code, name := none, shortName := none, mask := mask, divide := false, join := false, legLength := 5
        mapX := code, arrival := none, departure := none }
    (servedView [r 1 2, r 2 1, r 3 2, r 4 1] (some 2)).getLast?.map (·.code) = some 3 := by decide

/-- A tracker in a state over the served view of three. -/
def tracking (phase : Phase) : Tracker := { Tracker.reset with view := view3, phase := phase }
def trackingAt (phase : Phase) (mm : Nat) (f : Tracker → Tracker) : State :=
  stateOf { Part.reset with odo := { rolling with legDistance := mm }, trk := f (tracking phase) }

/-- The motion, or the door, has changed and the tracker has still to hear of it. -/
def hearsMotion (m : Motion) (d : Door) (t : Tracker) : Tracker := { t with motionIn := [m], door := d }
def hearsDoor (d : Door) (m : Motion) (t : Tracker) : Tracker := { t with doorIn := [d], motion := m }

theorem test_premises_ServedStopsAreLeftAndReached :
    (let s := trackingAt (.atStop 0) 0 (hearsMotion .moving .locked)
     s.part.trk.phase = .atStop 0 ∧ s.part.trk.motionIn = [.moving] ∧ s.part.trk.door = .locked) ∧
    (let s := trackingAt (.atStop 2) 0 (hearsDoor .locked .moving)
     s.part.trk.phase = .atStop 2 ∧ s.part.trk.doorIn = [.locked] ∧ s.part.trk.motion = .moving) ∧
    (let s := trackingAt (.running 0) 17700000 (hearsMotion .still .released)
     s.part.trk.phase.runLeg = some 0 ∧
      legAt s.part.trk.view 0 * 1000 ≤ s.part.odo.legDistance + s.part.trk.w * 1000 ∧
      s.part.trk.motionIn = [.still] ∧ s.part.trk.door = .released) ∧
    (let s := trackingAt (.halted 1) 6700000 (hearsDoor .released .still)
     s.part.trk.phase.runLeg = some 1 ∧
      legAt s.part.trk.view 1 * 1000 ≤ s.part.odo.legDistance + s.part.trk.w * 1000 ∧
      s.part.trk.doorIn = [.released] ∧ s.part.trk.motion = .still) ∧
    (let s := trackingAt (.doubt 1) 6700000 (fun t => { t with inbox := [.advanced 6700000], door := .released })
     s.part.trk.phase.runLeg = some 1 ∧
      legAt s.part.trk.view 1 * 1000 ≤ s.part.odo.legDistance + s.part.trk.w * 1000 ∧
      s.part.trk.inbox = [.advanced 6700000] ∧ s.part.trk.motion = .still ∧ s.part.trk.door = .released) := by decide

theorem test_premises_HaltDoubtAndResume :
    (let s := trackingAt (.running 0) 17699999 (hearsMotion .still .locked)
     s.part.odo.legDistance + s.part.trk.w * 1000 < legAt s.part.trk.view 0 * 1000 ∧
      s.part.trk.phase = .running 0 ∧ s.part.trk.motionIn = [.still] ∧ s.part.trk.door = .locked) ∧
    (let s := trackingAt (.approaching 0) 17699999 (hearsMotion .still .released)
     s.part.odo.legDistance + s.part.trk.w * 1000 < legAt s.part.trk.view 0 * 1000 ∧
      s.part.trk.phase = .approaching 0 ∧ s.part.trk.motionIn = [.still] ∧ s.part.trk.door = .released) ∧
    (let s := trackingAt (.running 0) 5 (hearsDoor .released .still)
     s.part.trk.phase = .running 0 ∧ s.part.trk.doorIn = [.released] ∧ s.part.trk.motion = .still) ∧
    (let s := trackingAt (.running 0) 5 (hearsDoor .released .moving)
     s.part.trk.phase = .running 0 ∧ s.part.trk.doorIn = [.released] ∧ s.part.trk.motion = .moving) ∧
    (let s := trackingAt (.halted 0) 5 (hearsDoor .released .still)
     s.part.trk.phase = .halted 0 ∧ s.part.trk.doorIn = [.released]) ∧
    (let s := trackingAt (.halted 0) 5 (hearsMotion .moving .locked)
     s.part.trk.phase = .halted 0 ∧ s.part.trk.motionIn = [.moving] ∧ s.part.trk.passDue = false) ∧
    (let s := trackingAt (.doubt 0) 5 (hearsDoor .locked .still)
     s.part.trk.phase = .doubt 0 ∧ s.part.trk.doorIn = [.locked] ∧ s.part.trk.motion = .still) ∧
    (let s := trackingAt (.doubt 0) 5 (hearsDoor .locked .moving)
     s.part.odo.legDistance + s.part.trk.w * 1000 < legAt s.part.trk.view 0 * 1000 ∧
      s.part.trk.phase = .doubt 0 ∧ s.part.trk.doorIn = [.locked] ∧ s.part.trk.motion = .moving ∧
      s.part.trk.passDue = false) := by decide

/-- The window of leg 0 begins at 17,700,000 mm: inside it a resume and DOUBT to HALTED have their premises too. -/
theorem test_premises_HaltDoubtAndResume_in_the_window :
    let inside (s : State) : Prop :=
      ¬ s.part.odo.legDistance + s.part.trk.w * 1000 < legAt s.part.trk.view 0 * 1000 ∧ s.part.trk.passDue = false
    (let s := trackingAt (.halted 0) 17700000 (hearsMotion .moving .locked)
     inside s ∧ s.part.trk.phase = .halted 0 ∧ s.part.trk.motionIn = [.moving] ∧
      (after (exec .motionChange s)).part.trk.phase = .approaching 0) ∧
    (let s := trackingAt (.doubt 0) 17700000 (hearsDoor .locked .moving)
     inside s ∧ s.part.trk.phase = .doubt 0 ∧ s.part.trk.doorIn = [.locked] ∧ s.part.trk.motion = .moving ∧
      (after (exec .doorChange s)).part.trk.phase = .approaching 0) ∧
    (let s := trackingAt (.doubt 0) 17700000 (hearsDoor .locked .still)
     inside s ∧ s.part.trk.phase = .doubt 0 ∧ s.part.trk.doorIn = [.locked] ∧ s.part.trk.motion = .still ∧
      (after (exec .doorChange s)).part.trk.phase = .halted 0) ∧
    (let s := trackingAt (.halted 0) 17700000 (hearsDoor .released .moving)
     inside s ∧ s.part.trk.phase = .halted 0 ∧ s.part.trk.doorIn = [.released] ∧ s.part.trk.motion = .moving) := by
  decide

theorem test_premises_ReportsThatKeepTheState :
    (let s := trackingAt .lost 5 (fun t => { t with inbox := [.advanced 5] })
     s.part.trk.inbox = [.advanced 5] ∧ s.part.trk.phase.runLeg = none) ∧
    (let s := trackingAt (.running 0) 17699999 (fun t => { t with inbox := [.advanced 5], door := .released })
     s.part.trk.inbox = [.advanced 5] ∧ s.part.trk.phase.runLeg = some 0 ∧
      s.part.odo.legDistance + s.part.trk.w * 1000 < legAt s.part.trk.view 0 * 1000) ∧
    (let s := trackingAt (.running 0) 17999999 (fun t => { t with inbox := [.advanced 5], motion := .moving })
     s.part.trk.phase.runLeg = some 0 ∧ s.part.trk.motion = .moving) ∧
    (let s := trackingAt .ended 0 (hearsMotion .moving .locked)
     s.part.trk.phase = .ended ∧ s.part.trk.motionIn = [.moving]) ∧
    (let s := trackingAt (.atStop 1) 0 (hearsMotion .still .released)
     s.part.trk.phase = .atStop 1 ∧ s.part.trk.motionIn = [.still]) ∧
    (let s := trackingAt (.doubt 0) 17699999 (hearsMotion .still .released)
     s.part.trk.phase = .doubt 0 ∧ s.part.trk.motionIn = [.still] ∧
      s.part.odo.legDistance + s.part.trk.w * 1000 < legAt s.part.trk.view 0 * 1000) ∧
    (let s := trackingAt (.running 0) 9 (hearsMotion .moving .locked)
     s.part.trk.phase = .running 0 ∧ s.part.trk.motionIn = [.moving] ∧ s.part.trk.passDue = false) ∧
    (let s := trackingAt (.approaching 0) 17700000 (hearsMotion .still .locked)
     s.part.trk.phase = .approaching 0 ∧ s.part.trk.motionIn = [.still] ∧ s.part.trk.door = .locked ∧
      legAt s.part.trk.view 0 * 1000 ≤ s.part.odo.legDistance + s.part.trk.w * 1000) ∧
    (let s := trackingAt (.atStop 1) 0 (hearsDoor .locked .still)
     s.part.trk.phase = .atStop 1 ∧ s.part.trk.doorIn = [.locked] ∧ s.part.trk.motion = .still) ∧
    (let s := trackingAt (.running 1) 0 (hearsDoor .released .moving)
     s.part.trk.phase = .running 1 ∧ s.part.trk.doorIn = [.released] ∧ s.part.trk.motion = .moving) ∧
    (let s := trackingAt (.atStop 2) 0 (hearsDoor .released .still)
     s.part.trk.phase = .atStop 2 ∧ s.part.trk.doorIn = [.released]) ∧
    (let s := trackingAt (.halted 0) 18500000 (fun t => { hearsMotion .moving .locked t with passDue := true })
     s.part.trk.passDue = true ∧ s.part.trk.phase = .halted 0 ∧ s.part.trk.motionIn = [.moving]) ∧
    (let s := trackingAt (.doubt 0) 18500000 (fun t => { hearsDoor .locked .moving t with passDue := true })
     s.part.trk.passDue = true ∧ s.part.trk.phase = .doubt 0 ∧ s.part.trk.doorIn = [.locked] ∧
      s.part.trk.motion = .moving) := by decide

/-- The next event at the tracker is this mark. -/
def hearsMark (tag : MarkTag) (t : Tracker) : Tracker := { t with inbox := [.mark tag], gen := 65535 }

theorem test_premises_TrackerMarksActByState :
    (let s := trackingAt (.running 0) 0 (hearsMark (.approach 0))
     s.part.trk.inbox = [.mark (.approach 0)] ∧ 0 ≠ s.part.trk.gen) ∧
    (let s := trackingAt .ended 0 (hearsMark (.pass 65535))
     s.part.trk.inbox = [.mark (.pass 65535)] ∧ s.part.trk.phase.runLeg = none) ∧
    (let s := trackingAt (.running 0) 16000000 (hearsMark (.approach 65535))
     s.part.trk.inbox = [.mark (.approach 65535)] ∧ 65535 = s.part.trk.gen ∧ s.part.trk.phase = .running 0) ∧
    (let s := trackingAt (.halted 0) 16000000 (hearsMark (.approach 65535))
     s.part.trk.phase.runLeg = some 0 ∧ s.part.trk.phase ≠ .running 0) ∧
    (let s := trackingAt (.doubt 0) 18500000 (hearsMark (.pass 65535))
     s.part.trk.inbox = [.mark (.pass 65535)] ∧ 65535 = s.part.trk.gen ∧ s.part.trk.phase = .doubt 0) ∧
    (let s := trackingAt (.running 0) 18500000 (hearsMark (.pass 65535))
     s.part.trk.phase = .running 0 ∧ s.part.trk.motion = .still) ∧
    (let s := trackingAt (.running 0) 18500000 (fun t => { hearsMark (.pass 65535) t with motion := .moving })
     s.part.trk.inbox = [.mark (.pass s.part.trk.gen)] ∧ s.part.trk.phase = .running 0 ∧
      s.part.trk.motion = .moving ∧ 0 + 2 < s.part.trk.view.length) ∧
    (let s := trackingAt (.approaching 1) 7500000 (fun t => { hearsMark (.pass 65535) t with motion := .moving })
     s.part.trk.inbox = [.mark (.pass s.part.trk.gen)] ∧ s.part.trk.phase = .approaching 1 ∧
      s.part.trk.motion = .moving ∧ s.part.trk.view.length ≤ 1 + 2) := by decide

/-- A position request that waits at the tracker. -/
def asks (kind : PositionKind) (t : Tracker) : Tracker :=
  { t with request := some { kind := kind, code := 12, metres := 3 } }

theorem test_premises_PositionRequestsAreAnswered :
    (let view := (trackingAt .unplaced 0 id).part.trk.view
     2 ≤ view.length ∧ view.any (fun v => v.code == 12) = true ∧ view.any (fun v => v.code == 14) = false ∧
      indexOfCode view 12 = some 1 ∧ 1 + 1 < view.length ∧ indexOfCode view 13 = some 2 ∧ 2 + 1 = view.length) ∧
    State.reset.part.trk.view.length < 2 ∧
    (trackingAt .lost 0 (hearsMotion .still .locked)).part.trk.motionIn = [.still] ∧
    (trackingAt .lost 0 (hearsDoor .locked .still)).part.trk.doorIn = [.locked] ∧
    (let s := trackingAt .lost 0 (asks .placeInLeg)
     s.part.trk.request = some { kind := .placeInLeg, code := 12, metres := 3 } ∧ s.part.regs.run = false) ∧
    (let s := running (trackingAt .lost 0 (asks .unplace))
     s.part.trk.request = some { kind := .unplace, code := 12, metres := 3 } ∧ s.part.regs.run = true ∧
      ({} : Bus).wait = false ∧ ({} : Bus).writeErrors = [] ∧ Memory.wf s.part.mem = true) := by decide

theorem test_premises_TrackerTakesProfileAndRemaps :
    (let s := trackingAt .ended 0 (fun t => { t with profiles := [profile], portion := some 1 })
     s.part.trk.profiles = [profile] ∧ s.part.trk.portion = some profile.portion ∧ s.part.trk.phase.runLeg = none) ∧
    (let s := trackingAt (.running 1) 0 (fun t => { t with profiles := [profile], portion := some 1 })
     s.part.trk.a = profile.a ∧ s.part.trk.o = profile.o) ∧
    (let s := trackingAt (.running 1) 0 (fun t => { t with profiles := [profile], portion := some 1, a := 1999 })
     s.part.trk.portion = some profile.portion ∧ s.part.trk.a ≠ profile.a ∧ s.part.trk.phase.runLeg = some 1) ∧
    (let s := trackingAt (.running 1) 0 (fun t => { t with profiles := [profile], portion := some 8 })
     s.part.trk.profiles = [profile] ∧ s.part.trk.portion ≠ some profile.portion) ∧
    (trackingAt .unplaced 0 id).part.trk.phase = .unplaced ∧
    (let p := (withTrk { Tracker.reset with phase := .running 0 }).part
     p.trk.phase ≠ .unplaced ∧ p.trk.view.length < 2) ∧
    (let p := (trackingAt .lost 0 id).part
     2 ≤ p.trk.view.length ∧ p.trk.phase = .lost) ∧
    (let p := (trackingAt (.running 0) 0 id).part
     p.trk.phase.leg = some 0 ∧ indexOfCode p.trk.view (codeAt [stop 99 0 1, stop 12 1 0] 0) = none) ∧
    (let p := (trackingAt (.atStop 1) 0 id).part
     p.trk.phase.leg = some 1 ∧ indexOfCode p.trk.view (codeAt view2 1) = some 1 ∧ p.trk.phase = .atStop 1) ∧
    (let p := (trackingAt (.running 0) 0 id).part
     indexOfCode p.trk.view (codeAt [stop 13 0 1, stop 12 1 0] 0) = some 2 ∧ p.trk.phase.runLeg = some 0 ∧
      2 + 1 = p.trk.view.length) ∧
    (let p := (trackingAt (.halted 0) 0 id).part
     indexOfCode p.trk.view (codeAt [stop 12 0 1, stop 13 1 0] 0) = some 1 ∧ p.trk.phase = .halted 0 ∧
      1 + 1 < p.trk.view.length) ∧
    (let p := (trackingAt (.approaching 0) 0 id).part
     indexOfCode p.trk.view (codeAt view2 0) = some 0 ∧ p.trk.phase = .approaching 0 ∧ 0 + 1 < p.trk.view.length) ∧
    (let p := (trackingAt (.doubt 0) 0 id).part
     indexOfCode p.trk.view (codeAt view2 0) = some 0 ∧ p.trk.phase = .doubt 0 ∧ 0 + 1 < p.trk.view.length) := by
  decide

/-! ### Premises met: the loads and the reservation engine -/

/-- A kind whose copy A is live at offset 512. -/
def liveA : KindState := { KindState.reset with live := some .a, liveAddress := some 512 }

/-- RUN is 1 and the live copy of each kind is A; its loaders have been told, or owe a load at a boundary. -/
def loadsAsked : State :=
  stateOf { Part.reset with
    regs := { Part.reset.regs with run := true }
    ed := { Edition.reset with stops := liveA, reservations := liveA, notices := liveA }
    trk := { Tracker.reset with told := 1 }
    res := { Reservations.reset with told := 1 }
    ntc := { Notices.reset with told := 1 } }
def loadsOwed : State :=
  { loadsAsked with part := { loadsAsked.part with
    trk := { Tracker.reset with load := .owed, boundaries := 1 }
    res := { Reservations.reset with load := .owed, boundaries := 1 } } }

/-- The loads in flight, and the bytes of one record of each kind at offset 512, or a read error there. -/
def loadsReading : State :=
  { loadsAsked with part := { loadsAsked.part with
    trk := { Tracker.reset with load := .loading .a 512 3 }
    res := { Reservations.reset with load := .loading .a 512 3 }
    ntc := { Notices.reset with load := .loading .a 512 3 } } }
def oneStop : Bus := { host := [(524, 1), (528, 11), (534, 1)] }
def badRead : Bus := { readErrors := [524] }

theorem test_premises_LoadsPinAndReplaceTheStore :
    (loadsAsked.part.regs.run = true ∧ loadsAsked.part.ed.stops.live = some .a ∧
      loadsAsked.part.ed.stops.liveAddress = some 512 ∧ loadsAsked.part.trk.told ≠ 0 ∧
      loadsAsked.part.ed.reservations.live = some .a ∧ loadsAsked.part.ed.reservations.liveAddress = some 512 ∧
      loadsAsked.part.res.told ≠ 0 ∧ loadsAsked.part.ed.notices.live = some .a ∧
      loadsAsked.part.ed.notices.liveAddress = some 512 ∧ loadsAsked.part.ntc.told ≠ 0) ∧
    (loadsOwed.part.regs.run = true ∧ loadsOwed.part.ed.stops.live = some .a ∧ loadsOwed.part.trk.boundaries ≠ 0 ∧
      loadsOwed.part.trk.load = .owed ∧ loadsOwed.part.res.boundaries ≠ 0 ∧ loadsOwed.part.res.load = .owed) ∧
    (loadsReading.part.trk.load = .loading .a 512 3 ∧ loadsReading.part.res.load = .loading .a 512 3 ∧
      loadsReading.part.ntc.load = .loading .a 512 3) ∧
    (let view (bus : Bus) : View := { mem := Memory.writeAll [] bus.host, base := 0, bus := bus }
     failureOf ((view badRead).loadStops 512) = some { cause := .bus, address := 512 } ∧
      (valueOf ((view oneStop).loadStops 512)).map List.length = some 1 ∧
      failureOf ((view badRead).loadSeats 512) = some { cause := .bus, address := 512 } ∧ valueOf ((view {}).loadSeats 512) = some [] ∧
      failureOf ((view badRead).loadNotices 512) = some { cause := .bus, address := 512 } ∧
      valueOf ((view {}).loadNotices 512) = some []) := by decide

/-- Memory that the host has written at a window of base 0. -/
def viewOf (bus : Bus) : View := { mem := Memory.writeAll [] bus.host, base := 0, bus := bus }

/-- A table at 512 of this many records, whose record holds nothing. -/
def tableOf (count : Byte) : Bus := { host := [(524, count)] }

theorem test_premises_LoadsPinAndReplaceTheStore_records :
    ((valueOf ((viewOf oneStop).stop 528)).map (fun r => (r.code, r.mask)) = some (11, 1) ∧
      (valueOf ((viewOf { host := [(528, 7), (530, 1), (532, 2)] }).seatEntry 528)).map
        (fun e => (e.number, e.segments.map (·.kind))) = some (7, [2]) ∧
      (valueOf ((viewOf { host := [(530, 5)] }).seatEntry 528)).map (fun e => (e.count, e.segments)) = some (5, []) ∧
      (valueOf ((viewOf { host := [(528, 3)] }).notice 528)).map (·.id) = some 3) ∧
    failureOf ((viewOf badRead).u16 524) = some { cause := .bus, address := 524 } ∧
    (∀ n, n ∈ [0#8, 1#8, 32#8, 33#8, 64#8, 65#8, 96#8, 97#8] → valueOf ((viewOf (tableOf n)).u16 524) = some n.toNat) ∧
    ((valueOf ((viewOf oneStop).stops 512 1)).isSome ∧
      failureOf ((viewOf (tableOf 64)).stops 512 64) = some (528, .result .range)) ∧
    (valueOf ((viewOf (tableOf 0)).seatEntries 512 0) = some [] ∧
      failureOf ((viewOf (tableOf 96)).seatEntries 512 96) = some (528, .result .range)) ∧
    (valueOf ((viewOf (tableOf 0)).notices 512 0) = some [] ∧
      failureOf ((viewOf (tableOf 32)).notices 512 32) = some (528, .result .range)) := by decide +kernel

/-- A load whose count cannot be read, or that a check refuses, names the copy; one whose record fails, the record. -/
theorem test_address_of_a_failed_load :
    failureOf ((viewOf badRead).loadStops 512) = some { cause := .bus, address := 512 } ∧
    failureOf ((viewOf (tableOf 0)).loadStops 512) = some { cause := .check, address := 512 } ∧
    failureOf ((viewOf (tableOf 1)).loadStops 512) = some { cause := .check, address := 528 } := by decide +kernel

/-- A segment on stops 11 to 12, one on 12 to 13, and a seat that holds segments. -/
def segment (kind : SegKind) (f t fi ti : Nat) : Segment :=
  { kind := kind, fromCode := f, toCode := t, label := none, note := none, resolution := .resolved fi ti false false }
def seat (segments : List Segment) : Seat :=
  { number := 21, address := 5, half := .left, segments := segments, display := .free, shown := none
    reviewResolution := false, reviewLatched := false }

theorem test_premises_SeatStoreLoads :
    (∃ q : Seat, ({ Reservations.reset with seats := [seat []] } : Reservations).seats[0]? = some q ∧
      [({ number := 21, segments := [] } : SeatEntry)].find? (fun e => e.number == q.number)
        = some { number := 21, segments := [] } ∧
      ([] : List SeatEntry).find? (fun e => e.number == q.number) = none) ∧
    (({ Reservations.reset with seats := [seat []] } : Reservations).loaded
        [{ number := 3, segments := [] }, { number := 21, segments := [] }] 9).lowestSkipped = some 3 ∧
    (let s := withRes { Reservations.reset with profiles := [profile], seats := [seat []] }
     s.part.res.profiles = [profile] ∧ profile.seatMap[0]? = some { number := 21, address := 5, half := .left } ∧
      s.part.res.seats.find? (fun o => o.number == 21) = some (seat []) ∧
      State.reset.part.res.seats.find? (fun o => o.number == 21) = none) := by
  refine ⟨⟨seat [], ?_⟩, ?_⟩ <;> decide

theorem test_premises_SeatResolutionAndDisplay :
    ((11 ∉ [12, 13] ∧ 14 ∉ [12, 13]) ∧ 12 ∈ [12, 13]) ∧
    [segment .blocked 11 12 0 1].Pairwise (fun x y => x.rank ≤ y.rank) ∧
    (∃ g, g ∈ [segment .blocked 11 12 0 1] ∧ g.kind = .blocked ∧
      ∃ fi ti, g.span = some (fi, ti) ∧ fi ≤ 0 ∧ 0 < ti) ∧
    (∃ g, g ∈ [segment .reserved 11 12 0 1] ∧ g.kind = .reserved ∧
      ∃ fi ti, g.span = some (fi, ti) ∧ fi ≤ 0 ∧ 0 < ti) ∧
    (¬ ∃ g, g ∈ [segment .reserved 12 13 1 2] ∧ g.kind = .blocked ∧
      ∃ fi ti, g.span = some (fi, ti) ∧ fi ≤ 0 ∧ 0 < ti) ∧
    (∃ g, g ∈ [segment .reserved 12 13 1 2] ∧ g.kind = .reserved ∧
      ∃ fi ti, g.span = some (fi, ti) ∧ 0 < fi) ∧
    ¬ ∃ g : Segment, g ∈ ([] : List Segment) ∧ g.kind = .reserved ∧ ∃ fi ti, g.span = some (fi, ti) ∧ 0 < fi :=
  ⟨by decide, by decide, ⟨_, List.mem_singleton.2 rfl, rfl, 0, 1, rfl, by decide, by decide⟩,
    ⟨_, List.mem_singleton.2 rfl, rfl, 0, 1, rfl, by decide, by decide⟩,
    fun ⟨_, hm, hk, _⟩ => (by rw [List.mem_singleton.1 hm] at hk; exact absurd hk (by decide)),
    ⟨_, List.mem_singleton.2 rfl, rfl, 1, 2, rfl, by decide⟩, fun ⟨_, hm, _⟩ => nomatch hm⟩

/-- A journey event. -/
def journey (cause : Cause) (phase : Phase) (code : Option Nat) : JourneyEvent :=
  { cause := cause, phase := phase, code := code, view := view3 }

theorem test_premises_JourneyEventReevaluatesSeats :
    (let e := journey .depart (.running 1) (some 12)
     let s := withRes { Reservations.reset with journeys := [e], seats := [seat [segment .reserved 11 12 0 1]] }
     s.part.res.journeys = [e] ∧ e.phase.leg = some 1) ∧
    (journey .depart .ended (some 13)).phase = .ended ∧ (journey .overrun .lost (some 13)).phase = .lost := by decide

/-- The engine with a seat of three segments, one to the next stop, at an event that brings it into this state. -/
def reevaluated (phase : Phase) : State :=
  withRes { Reservations.reset with
    journeys := [journey .depart phase none]
    seats := [seat [segment .reserved 12 13 1 2, segment .reserved 11 12 0 1, segment .blocked 88 89 0 1]] }

theorem test_premises_JourneyEventReevaluatesSeats_by_state :
    (∀ phase, phase ∈ [Phase.atStop 0, .running 1, .ended, .unplaced, .lost] →
      (reevaluated phase).part.res.journeys = [journey .depart phase none] ∧
      (reevaluated phase).part.res.seats[0]?.isSome = true ∧
      (after (exec .reservationJourneyEvent (reevaluated phase))).part.res.seats[0]?.isSome = true) ∧
    (Phase.atStop 0).leg = some 0 ∧ (Phase.running 1).leg = some 1 ∧ Phase.ended.leg = none := by decide +kernel

/-- Leg 1 removes the segment that ends at its start, and keeps the one whose codes are not served, with the review
flag. -/
theorem test_cleanup_on_leg_1 :
    (after (exec .reservationJourneyEvent (reevaluated (.running 1)))).part.res.seats.map
      (fun q => (q.segments.map (fun g => (g.kind, g.fromCode)), q.display, q.reviewResolution))
        = [([(.reserved, 12), (.blocked, 88)], .reservedNow, true)] := by decide +kernel

/-- An amendment record as the engine holds it, in a delivery run with RUN 1, and a store of edition 9. -/
def record (edition seat action kind f t : Nat) : Amendment :=
  { edition := edition, seat := seat, action := action, kind := kind, fromCode := f, toCode := t, label := none
    note := none }
def holdingRun (stage : RunStage) : DeliveryRun :=
  { post := 2, count := 0, list := 4096, stage := stage, cut := false }
def engine (seats : List Seat) : Reservations :=
  { Reservations.reset with seats := seats, storeEdition := some 9, refView := [11, 12, 13], refLeg := some 1 }
def holding (seats : List Seat) (a : Amendment) : State :=
  running (stateOf { Part.reset with
    ed := { Edition.reset with run := some (holdingRun (.handed a)) }, res := engine seats })

theorem test_premises_AddPutsOneSegment :
    (let a := record 9 21 1 1 12 13
     let s := holding [seat []] a
     s.part.ed.run = some (holdingRun (.handed a)) ∧ (holdingRun (.handed a)).cut = false ∧ s.part.regs.run = true ∧
      a.action = 1 ∧ s.part.res.load = .idle ∧ s.part.res.storeEdition = some a.edition ∧
      segKindOf a.kind = some .reserved ∧ s.part.res.seats.find? (fun x => x.number == a.seat) = some (seat [])) ∧
    (let seen := (holding [seat []] (record 9 21 1 1 12 13)).part.readReference
     seen.res.cleanupLeg = none ∧ resolve [11, 12, 13] 40 41 = .unresolved ∧
      resolve [11, 12, 13] 12 13 = .resolved 1 2 false false) ∧
    (let s := holding [seat []] (record 9 21 1 1 11 12)
     let running := { s with part := { s.part with res := { s.part.res with refPhase := .running 1 } } }
     running.part.readReference.res.cleanupLeg = some 1 ∧
      (resolve [11, 12, 13] 11 12).endIndex = some 1 ∧ 1 ≤ 1) ∧
    4 ≤ ((List.replicate 4 (segment .reserved 11 12 0 1)).filter
      (fun g => !(segment .reserved 12 13 1 2).overlaps g)).length := by decide

theorem test_premises_AmendmentsAreAnsweredAndTaken :
    (∀ action, action ∈ [1, 2, 3, 4] →
      let a := record 9 21 action 1 12 13
      let s := holding [seat [segment .reserved 12 13 1 2]] a
      s.part.ed.run = some (holdingRun (.handed a)) ∧ s.part.res.load = .idle ∧
        s.part.res.storeEdition = some a.edition ∧
        s.part.res.seats.find? (fun x => x.number == a.seat) = some (seat [segment .reserved 12 13 1 2])) ∧
    (let a := record 9 22 2 3 12 13
     (holding [] a).part.res.seats.find? (fun x => x.number == a.seat) = none ∧ a.kind ≠ 1 ∧ a.kind ≠ 2) ∧
    (let a := record 8 21 3 1 12 13
     (holding [] a).part.res.storeEdition = some 9 ∧ a.edition < 9 ∧ 9 < (record 10 21 3 1 12 13).edition) ∧
    (let slot (stage : RunStage) : State := running (withEd { Edition.reset with run := some (holdingRun stage) })
     (slot .reading).part.ed.run = some (holdingRun .reading) ∧ (slot .reading).part.regs.run = true ∧
      valueOf (((slot .reading).part.view {}).bytes 4096 32) = some (List.replicate 32 0) ∧
      failureOf (((slot .reading).part.view { readErrors := [4100] }).bytes 4096 32)
        = some { cause := .bus, address := 4100 } ∧
      (slot (.answered .applied)).part.ed.run = some (holdingRun (.answered .applied)) ∧
      ({} : Bus).writeErrors = [] ∧ Memory.wf (slot (.answered .applied)).part.mem = true ∧
      ((slot (.answered .applied)).part.ed.take + 1) % 64 ≠ (holdingRun .reading).post ∧
      (holdingRun .reading).count + 1 < 16) ∧
    (running (withEd { Edition.reset with take := 1, run := some (holdingRun (.answered .stale)) })).part.ed.take + 1
      = (holdingRun (.answered .stale)).post ∧
    ∀ x, x ∈ [0x8E, 4, 5, 6, 7] → busAddress 0 (4096 + 16) ≠ busAddress 0 x := by decide

/-- A record whose answer comes after RUN has become 0, and one of a run that was cut off: it is owed. -/
theorem test_premises_AmendmentsAreAnsweredAndTaken_owed :
    let a := record 9 21 1 1 12 13
    let owing (run : Bool) (cut : Bool) : State :=
      let s := holding [seat []] a
      { s with part := { s.part with regs := { s.part.regs with run := run }
                                     res := { s.part.res with refPhase := .running 1 }
                                     ed := { s.part.ed with run := some { holdingRun (.handed a) with cut := cut } } } }
    [(true, false), (false, false), (true, true), (false, true)].map (fun x =>
        let e := (after (exec .add (owing x.1 x.2))).part.ed
        (e.run.isSome, e.owed))
      = [(true, []), (false, [.amend 4096 .applied]), (false, [.amend 4096 .applied]), (false, [.amend 4096 .applied])] := by
  decide

/-- The 32 bytes of a record. -/
theorem test_amendment_record :
    amendmentOf ([9, 1, 0, 0, 21, 1, 1, 2, 12, 0, 13, 0, 255, 255, 7, 0] ++ List.replicate 16 0)
      = { edition := 265, seat := 277, action := 1, kind := 2, fromCode := 12, toCode := 13, label := none
          note := some 7 } := by decide

/-- The codes of a segment and of a notice at the ends of their ranges. -/
theorem test_premises_LoadsPinAndReplaceTheStore_codes :
    let segment (kind : Nat) : RawSegment := { kind := kind, fromCode := 1, toCode := 2, label := none, note := none }
    let entry : RawEntry := { number := 3, count := 2, segments := [segment 1, segment 2] }
    let notice (trigger filter ending : Nat) : NoticeDef := RawNotice.toDef
      { id := 1, trigger := trigger, metres := 0, filter := filter, targets := 2, filterCode := 0, page := 0
        priority := 0, duration := 1, gap := 0, endCondition := ending, tones := 0 }
    entry.toEntry.segments.map (·.kind) = [.reserved, .blocked] ∧
    ((notice 0 0 0).trigger, (notice 0 0 0).filter, (notice 0 0 0).endCondition) = (.approach, .all, .timer) ∧
    ((notice 6 4 3).trigger, (notice 6 4 3).filter, (notice 6 4 3).endCondition) = (.halt, .joinAhead, .legChange) ∧
    ((notice 0 0 0).toEnd, (notice 0 0 0).toDoor) = (false, true) := by decide

/-- Of two segments with the same fi the earlier in store order is shown. -/
theorem test_tie_shows_the_earlier_segment :
    let tied := [segment .reserved 11 12 0 1, segment .reserved 11 13 0 2]
    tied.Pairwise (fun x y => x.rank ≤ y.rank) ∧ classify 0 tied = (.reservedNow, some (segment .reserved 11 12 0 1)) ∧
    classify 0 tied.reverse = (.reservedNow, some (segment .reserved 11 13 0 2)) := by decide

/-- An evaluation of seat 21 leaves seat 22, and marks the module of seat 21 alone, where it shows something else. -/
theorem test_premises_AddPutsOneSegment_evaluation :
    let booked : Seat := seat [segment .reserved 12 13 1 2]
    let other : Seat := { booked with number := 22, address := 6 }
    let p : Part := { Part.reset with res := { engine [other, booked] with refPhase := .running 1 } }
    let lost : Part := { p with res := { p.res with refPhase := .lost } }
    ((p.evaluateSeat 21).res.seats.map (·.display), (p.evaluateSeat 21).cmp.moduleMarks) = ([.free, .reservedNow], [5]) ∧
    ((p.evaluateSeat 9).res.seats = [other, booked] ∧ (p.evaluateSeat 9).cmp.moduleMarks = []) ∧
    (lost.evaluateSeat 21).res.refView = [] ∧ (lost.evaluateSeat 21).res.seats.map (·.display) = [.free, .free] ∧
    p.evaluateAll.cmp.moduleMarks = [6, 5] := by decide

/-! ### Premises met: the notice scheduler and the chime player -/

/-- A notice definition. -/
def notice (id : Nat) (trigger : Trigger) (metres priority gap tones : Nat) : NoticeDef :=
  { id := id, trigger := trigger, metres := metres, filter := .all, filterCode := 0, toEnd := true, toDoor := false
    page := 7, priority := priority, duration := 4, gap := gap, endCondition := .timer, tones := tones }

theorem test_premises_NoticeJourneyEventInOrder :
    (let e := journey .overrun .lost (some 13)
     (withNtc { Notices.reset with journeys := [e] }).part.ntc.journeys = [e] ∧ e.phase = .lost) ∧
    (let e := journey .arrive (.atStop 2) (some 13)
     (withNtc { Notices.reset with journeys := [e] }).part.ntc.journeys = [e] ∧ e.phase = .atStop 2) ∧
    (let e := journey .halt (.halted 1) none
     let s := withNtc { Notices.reset with journeys := [e], refPhase := .running 1 }
     e.phase.runLeg = some 1 ∧ s.part.ntc.refPhase.runLeg = some 1 ∧ e.cause ≠ .place ∧ e.cause ≠ .remap) ∧
    (let e := journey .depart (.running 1) (some 12)
     let s := withNtc { Notices.reset with journeys := [e], refPhase := .atStop 1 }
     e.phase.runLeg = some 1 ∧ s.part.ntc.refPhase.runLeg ≠ some 1) := by decide

theorem test_premises_DistancePlanAndItsMarks :
    (let s := withNtc { Notices.reset with inbox := [.mark 12 0], store := [notice 12 .distance 500 3 0 1] }
     s.part.ntc.inbox = [.mark 12 0] ∧ s.part.ntc.plan = none ∧
      noticeOf s.part.ntc.store 12 = some (notice 12 .distance 500 3 0 1) ∧ noticeOf s.part.ntc.store 13 = none) ∧
    (let plan : List PendingTrigger := [{ id := 12, distance := 17500000, status := .armed }]
     let s := withNtc { Notices.reset with inbox := [.mark 12 65535], planGen := 65535, plan := some plan }
     s.part.ntc.plan = some plan ∧ s.part.ntc.inbox = [.mark 12 65535] ∧ 65535 = s.part.ntc.planGen) := by decide

/-- A plan of two triggers on leg 1, the first fired; the odometer at 16 km. -/
def planned : Part :=
  { Part.reset with
    odo := { rolling with legDistance := 16000000 }
    ntc := { Notices.reset with
      plan := some [{ id := 12, distance := 5000, status := .fired },
        { id := 13, distance := 17500000, status := .waiting }]
      refPhase := .running 1, refView := view3, legFired := [12] } }

theorem test_premises_DistancePlanAndItsMarks_more :
    (let plan : List PendingTrigger := [{ id := 1, distance := 16000000, status := .waiting },
       { id := 2, distance := 16000001, status := .waiting }]
     ((planned.odo.marks.filter (fun m => decide (m.tag.owner = .notices))).length
      + ((((plan.filter (fun t => decide (t.status = .waiting))).take 6).filter
        (fun t => decide (planned.odo.legDistance < t.distance)))).length ≤ 6) ∧
      plan[0]? = some { id := 1, distance := 16000000, status := .waiting }) ∧
    (State.reset.part.ntc.plan = none ∧ planned.ntc.plan ≠ none ∧ planned.ntc.refPhase.runLeg = some 1) ∧
    ((journey .pass (.running 1) (some 12)).code = some 12 ∧ indexOfCode view3 12 = some 1) ∧
    (∀ filter, filter ∈ [StopFilter.divideAhead, .joinAhead, .terminusAhead, .code] →
      ({ notice 1 .arrive 0 0 0 0 with filter := filter } : NoticeDef).filter = filter) ∧
    (view3[2]? = some (stop 13 2 0) ∧ view3[3]? = none) := by decide

/-- R92 step 5: an id that fired on this leg stays fired though a table between did not hold it. -/
theorem test_fired_id_outlives_a_table_without_it :
    let d (id : Nat) : NoticeDef := notice id .distance 500 3 0 0
    let p := (planned.newNotices [d 13]).newNotices [d 12, d 13]
    p.ntc.plan.map (fun l => l.map (fun t => (t.id, t.status))) = some [(12, .fired), (13, .armed)] := by
  decide +kernel

/-- A list of this many entries, all showing. -/
def showing (n : Nat) : List NoticeEntry :=
  (List.range n).map (fun i => { id := i + 1, phase := .showing, countdown := 1 })

theorem test_premises_NoticesAreActivatedCountedAndSelected :
    (showing 3).find? (fun x => x.id == 2) = some { id := 2, phase := .showing, countdown := 1 } ∧
    ((showing 7).find? (fun x => x.id == 9) = none ∧ (showing 7).length < 8) ∧
    (8 ≤ (showing 8).length ∧ (showing 8).getLast? = some { id := 8, phase := .showing, countdown := 1 } ∧
      entryPriority [notice 8 .doors 0 2 0 0] { id := 8, phase := .showing, countdown := 1 } = 2 ∧ 2 < 3) ∧
    (let s := running (withNtc { Notices.reset with boundaries := 1, load := .owed })
     s.part.ntc.boundaries ≠ 0 ∧ s.part.ntc.load = .owed ∧ s.part.regs.run = true) ∧
    ((withNtc { Notices.reset with boundaries := 1 }).part.ntc.load ≠ .owed) ∧
    (withNtc { Notices.reset with profiles := [profile] }).part.ntc.profiles = [profile] := by decide

/-- A chime being played. -/
def chiming (left : Nat) (on : Bool) (pending : Option Nat) : State :=
  withSwp { Sweep.reset with ms := 4, chime :=
    { playing := some { left := left, on := on, until_ := 4 }, pending := pending, inbox := [2] } }

theorem test_premises_ChimePlayerPlays :
    ((withSwp { Sweep.reset with chime := { playing := none, pending := none, inbox := [3] } }).part.swp.chime.inbox
      = [3]) ∧
    (∀ on, ((chiming 1 on none).part.swp.chime.inbox = [2] ∧
      (chiming 1 on none).part.swp.chime.playing = some { left := 1, on := on, until_ := 4 } ∧
      reached (chiming 1 on none).part.swp.ms 4 = true ∧ (chiming 1 on none).part.swp.chime.pending = none)) ∧
    ((chiming 2 false none).part.swp.chime.playing = some { left := 2, on := false, until_ := 4 } ∧ 1 < 2) ∧
    (chiming 1 false (some 3)).part.swp.chime.pending = some 3 := by decide

/-! ### Premises met: the composer -/

/-- A position record on leg 1 of the view of three, and a panel of the END line drawn with a strip and a bar. -/
def position : PositionRecord :=
  { phase := .running 1, xNear := some 10, xFar := some 20, len := some 7000, distance := 3500000, marker := some 15 }
def drawn : PanelDraw := { line := .end_, address := 5, moving := true, strip := true, bars := [40] }

theorem test_premises_RoutePositionArithmetic :
    (position.xNear = some 10 ∧ position.xFar = some 20 ∧ position.len = some 7000 ∧ position.phase = .running 1 ∧
      10 ≤ 20 ∧ 1 ≤ 7000 ∧ position.stage2 = some 15) ∧
    ({ PositionRecord.reset with phase := .atStop 0 } : PositionRecord).phase = .atStop 0 ∧
    ({ PositionRecord.reset with phase := .ended } : PositionRecord).phase = .ended ∧
    PositionRecord.reset.phase = .unplaced ∧ (256 ≤ 256 ∧ 256 < 257) ∧ ((15 : Nat) ≤ 15 ∧ (0 : Nat) ≤ 15) := by decide

theorem test_premises_PositionRecordFollowsTheTracker :
    (∀ phase, phase ∈ [Phase.running 0, .atStop 2, .ended, .unplaced, .lost] →
      let e := journey .place phase none
      (withCmp { Composer.reset with events := [.journey e] }).part.cmp.events = [.journey e] ∧ e.phase = phase) ∧
    ((withCmp { Composer.reset with events := [.progress 5] }).part.cmp.events = [.progress 5] ∧
      State.reset.part.cmp.position.phase.runLeg = none) ∧
    (let s := withCmp { Composer.reset with events := [.progress 3500000], position := position, panels := [drawn] }
     s.part.cmp.events = [.progress 3500000] ∧ s.part.cmp.position.phase.runLeg = some 1 ∧
      s.part.cmp.position.distance ≤ 3500000 ∧ 3499999 < s.part.cmp.position.distance) := by decide

/-- The record of a panel in a health, and a line with it. -/
def panel (address : Nat) (health : Health) : Panel := { newPanel address 0 with health := health }
def lineOf (panels : List Panel) : LineCtl := { LineCtl.reset with config := some lineConfig, panels := panels }

theorem test_premises_MarksEnterRefreshListsOnce :
    (withCmp { Composer.reset with moduleMarks := [5] }).part.cmp.moduleMarks = [5] ∧
    (withCmp { Composer.reset with panelEvents := [.online .door 5] }).part.cmp.panelEvents = [.online .door 5] ∧
    (withCmp { Composer.reset with selectionMarks := [.doorGroup] }).part.cmp.selectionMarks = [.doorGroup] ∧
    (withCmp { Composer.reset with boundaries := 1 }).part.cmp.boundaries ≠ 0 := by decide

/-- A composer that draws panel 5 of the SEAT line, which is in this health. -/
def drawing (h : Health) (c : Composer) : Part :=
  { Part.reset with
    cmp := { c with panels := [{ line := .seat, address := 5, moving := false, strip := false, bars := [] }] }
    lineSeat := lineOf [panel 5 h] }

/-- A mark enters for an ONLINE configured panel, once; not for an OFFLINE one, nor where the composer has no such
panel. -/
theorem test_marks_enter_for_configured_panels :
    let marked : Composer := { Composer.reset with moduleMarks := [5] }
    (after (exec .seatModuleMark (stateOf (drawing .online marked)))).part.cmp.refreshSeat = [5] ∧
    (after (exec .seatModuleMark (stateOf (drawing .online { marked with refreshSeat := [5] })))).part.cmp.refreshSeat
      = [5] ∧
    (after (exec .seatModuleMark (stateOf (drawing .offline marked)))).part.cmp.refreshSeat = [] ∧
    (after (exec .seatModuleMark (stateOf { drawing .online marked with cmp := marked }))).part.cmp.refreshSeat = [] := by
  decide +kernel

/-- A composition of the END line's panel 5 in slot 0, with nothing left to draw. -/
def composition : Composition :=
  { line := .end_, address := 5, slot := 0, pin := some { copy := .a, address := 512 }
    items := some { pageCount := 9, poolLength := 100, strips := [{ width := 4, height := 1, pixels := 90 }], markerGlyph := 3 }
    areas := [], page := none, glyphs := [], image := List.replicate 4 7#8, overflowed := true, strip := true
    bars := [] }
def composing (c : Composition) : State :=
  running (withCmp { Composer.reset with
    comp := some c, position := position
    slots := { state := .rendering .end_ 5, image := [] } :: { state := .waiting .end_ 5, image := [1] } ::
      { state := .waiting .door 5, image := [2] } :: List.replicate 5 Slot.freed })

theorem test_premises_PanelsOutAreReleased :
    (let s := { composing composition with part := { (composing composition).part with
       cmp := { (composing composition).part.cmp with panelEvents := [.offline .end_ 5], profiles := [profile] } } }
     s.part.cmp.panelEvents = [.offline .end_ 5] ∧ s.part.cmp.comp = some composition ∧ composition.line = .end_ ∧
      composition.address = 5 ∧ s.part.cmp.profiles = [profile] ∧
      (∀ x ∈ s.part.cmp.slots, x.state = .waiting .door 5 → x.state.panel ≠ some (.end_, 5))) ∧
    (¬ ∀ q ∈ (profile.line .end_).panels, q.address ≠ 5) ∧
    (∀ q ∈ ({ profile with end_ := { lineConfig with panels := [] } } : Profile).end_.panels, q.address ≠ 5) ∧
    ((lineOf [panel 5 .online]).health 5).drawn = true := by decide

/-- An event, or a profile, that takes out panel 5 of the END line, at the composer that draws it. -/
def takesOut (c : Option Composition) : State :=
  { composing composition with part := { (composing composition).part with
    cmp := { (composing composition).part.cmp with
      comp := c, panelEvents := [.offline .end_ 5]
      profiles := [{ profile with end_ := { lineConfig with panels := [] } }]
      panels := [drawn, { drawn with line := .door }] } } }

theorem test_premises_PanelsOutAreReleased_compositions :
    ((takesOut (some composition)).part.cmp.comp = some composition ∧
      composition.pin = some { copy := .a, address := 512 } ∧
      (takesOut (some { composition with pin := none })).part.cmp.comp = some { composition with pin := none } ∧
      (takesOut none).part.cmp.comp = none ∧ ({ composition with address := 6 } : Composition).address ≠ 5) ∧
    ((takesOut none).part.cmp.slots[1]? = some { state := .waiting .end_ 5, image := [1] } ∧
      (takesOut none).part.cmp.slots[2]? = some { state := .waiting .door 5, image := [2] } ∧
      (takesOut none).part.cmp.slots[0]? = some { state := .rendering .end_ 5, image := [] } ∧ composition.slot = 0) ∧
    (takesOut none).part.cmp.panels.find? (fun o => decide (o.line = .door) && o.address == 5)
        = some { drawn with line := .door } ∧
    (takesOut none).part.cmp.panels.find? (fun o => decide (o.line = .seat) && o.address == 5) = none := by decide

/-- The composition of a panel that goes OFFLINE drops its pin on the content set. -/
theorem test_panel_offline_drops_the_pin :
    let s := takesOut (some composition)
    let p := { s.part with ed := { s.part.ed with content := { liveA with pinsA := 1 } } }
    let t := (after (exec .panelOffline (stateOf p))).part
    t.cmp.comp = none ∧ t.ed.content.pinsA = 0 ∧ t.cmp.slots.map (·.state) =
      [.free, .free, .waiting .door 5, .free, .free, .free, .free, .free] := by decide +kernel

/-- RUN 1, the END line's list holds panel 5, which is being loaded, and then panel 6; slot 1 is the lowest FREE one. -/
def readyToCompose (last : Line) : State :=
  running (stateOf { Part.reset with
    ed := { Edition.reset with content := liveA }
    cmp := { Composer.reset with
      lastLine := last, refreshEnd := [5, 6]
      slots := { state := .loading .end_ 5, image := [] } :: List.replicate 7 Slot.freed } })

theorem test_premises_CompositionBegins : ∀ last : Line,
    let s := readyToCompose last
    let cmp := s.part.cmp
    cmp.comp = none ∧ s.part.regs.run = true ∧ cmp.refresh .end_ = [5] ++ 6 :: [] ∧
      (∀ x ∈ cmp.slots, x.state ≠ .loading .end_ 6) ∧ (∀ b ∈ [5], ¬ ∀ x ∈ cmp.slots, x.state ≠ .loading .end_ b) ∧
      (∀ l, l ≠ .end_ → ∀ b ∈ cmp.refresh l, ¬ ∀ x ∈ cmp.slots, x.state ≠ .loading l b) ∧
      (∃ x, cmp.slots[1]? = some x ∧ x.state = .free) ∧
      (∀ j, j < 1 → ∀ x, cmp.slots[j]? = some x → x.state ≠ .free) ∧
      s.part.ed.content.live = some .a ∧ s.part.ed.content.liveAddress = some 512 := by
  intro last
  refine ⟨rfl, rfl, rfl, by cases last <;> decide, by cases last <;> decide, ?_, ⟨Slot.freed, rfl, rfl⟩, ?_, rfl, rfl⟩
  · intro l h; cases l <;> first | exact absurd rfl h | exact fun b hb => nomatch hb
  · intro j hj x hx; obtain rfl : j = 0 := by omega
    cases hx; decide

/-- The read of a composition's items from the copy at 512: two strips, the headers at 512, or a bus error at each item. -/
theorem test_premises_CompositionBegins_items :
    let v (bus : Bus) : View :=
      { mem := Memory.writeAll [] bus.host, base := (readyToCompose .seat).part.regs.windowBase, bus := bus }
    let items (bus : Bus) : Option (ContentItems × RunTable) := valueOf ((v bus).contentItems 512)
    (items { host := [(539, 3), (524, 9), (553, 5)] }).map
        (fun x => (x.1.strips.length, x.1.pageCount, x.2.commonX)) = some (2, 9, 5) ∧
    [524, 536, 539, 538, 552, 556].map (fun a => failureOf ((v { readErrors := [a] }).contentItems 512))
      = [524, 536, 539, 538, 552, 556].map (fun a => some { cause := .bus, address := a }) ∧
    failureOf ((v { host := [(539, 1)], readErrors := [564] }).contentItems 512) = some { cause := .bus, address := 564 } ∧
    ({ KindState.reset with live := some .a } : KindState).liveAddress = none ∧ KindState.reset.live = none := by
  decide +kernel

/-- The area of the END line, a page being drawn in it, and the job of a glyph. -/
def wholeArea : Area := { rect := { x := 0, y := 0, w := 256, h := 32 }, half := none }
def pageDraw : PageDraw :=
  { area := wholeArea, seat := none, address := 600, width := 8, height := 4, paper := 2, windows := 1, next := 0 }
def glyphJob : GlyphJob :=
  { glyph := 65, width := 2, height := 1, offset := 0, length := 1, pen := -1, top := 0, zoomH := 1, zoomV := 1, ink := 9
    win := { x := 0, y := 0, w := 8, h := 4 }, area := wholeArea.rect }

/-- The composition at an area whose page is selected, and at the window of its page. -/
def atArea : State :=
  let s := composing { composition with areas := [wholeArea] }
  { s with part := { s.part with ntc := { Notices.reset with selEnd := { id := none, page := some 3 } } } }
def atWindow : State := composing { composition with page := some pageDraw }

/-- The bytes of a window from (1, 1) to (1, 1), of a kind. -/
def windowBytes (code five eight : Byte) : Bus :=
  { host := [(608, code), (609, 1), (610, 1), (611, 1), (612, 1), (613, five), (616, eight)] }

theorem test_premises_ElementsAreDrawn :
    (let s := composing { composition with areas := [wholeArea] }
     s.part.cmp.comp = some { composition with areas := [wholeArea] } ∧
      (s.part.presentPage .end_ 5 wholeArea).1 = none) ∧
    (atArea.part.cmp.comp = some { composition with areas := [wholeArea] } ∧
      (atArea.part.presentPage .end_ 5 wholeArea).1 = some 3 ∧
      composition.items.map (·.pageCount) = some 9 ∧ 3 < 9 ∧ composition.pin = some { copy := .a, address := 512 } ∧
      (valueOf ((atArea.part.view {}).pageAt 512 3)).map (·.1) = some 824 ∧
      failureOf ((atArea.part.view { readErrors := [824] }).pageAt 512 3) = some { cause := .bus, address := 824 }) ∧
    (atWindow.part.cmp.comp = some { composition with page := some pageDraw } ∧ pageDraw.next < pageDraw.windows ∧
      failureOf ((atWindow.part.view { readErrors := [608] }).window 608) = some { cause := .bus, address := 608 }) ∧
    (let window (bus : Bus) : Option Window :=
       valueOf (({ atWindow.part with mem := Memory.writeAll atWindow.part.mem bus.host } : Part).view bus |>.window 608)
     let at11 (kind : WindowKind) : Window := { startCol := 1, stopCol := 1, startRow := 1, stopRow := 1, kind := kind }
     window (windowBytes 4 9 0) = some (at11 (.fill 9)) ∧ window (windowBytes 2 9 0) = some (at11 (.bar 9 0 0)) ∧
      window (windowBytes 3 0 1) = some (at11 (.strip 0 0 0 true)) ∧
      window (windowBytes 1 9 1) = some (at11 (.text 9 0 0 1 false false 0 0 (some 0))) ∧
      1 < pageDraw.width ∧ 1 < pageDraw.height ∧ (window { host := [(609, 8)] }).map (·.startCol) = some pageDraw.width) ∧
    (valueOf ((atWindow.part.view {}).stripOutput 512 { width := 4, height := 1, pixels := 90 }
        (scrollOffset position.marker 1 4) 0 0 0 0) = some 0 ∧
      atWindow.part.cmp.position.marker = some 15 ∧
      (valueOf ((atWindow.part.view {}).charRecord 512 3).record).isSome = true) := by decide

theorem test_premises_ElementsAreDrawn_page_paper :
    let v (bus : Bus) : View := { atArea.part.view bus with mem := Memory.writeAll [] bus.host }
    (failureOf ((v { readErrors := [828] }).pageAt 512 3) = some { cause := .bus, address := 828 } ∧
      (valueOf ((v { readErrors := [828] }).pagePaper 512 3)).map (fun x => (x.1, x.2.windows)) = some (824, 0)) ∧
    failureOf ((v { readErrors := [827] }).pagePaper 512 3) = some { cause := .bus, address := 827 } ∧
    ({ composition with page := some { pageDraw with next := 1 } } : Composition).page
        = some { pageDraw with next := 1 } ∧ pageDraw.windows ≤ 1 := by decide +kernel

/-- A strip pixel that cannot be read, at the first and at no pixel of a window; a strip that is not held; a window of no
named kind that is empty after clipping; a marker glyph whose record cannot be read. -/
theorem test_premises_ElementsAreDrawn_omitted :
    let strip : StripHeader := { width := 4, height := 1, pixels := 90 }
    let output (bus : Bus) := (atWindow.part.view bus).stripOutput 512 strip 0 0 0 (0 / 1) (0 % 1)
    failureOf (output { readErrors := [602] }) = some { cause := .bus, address := 602 } ∧
    valueOf (output { readErrors := [606] }) = some 0 ∧ ¬ (4 ≤ 0 % 1 ∧ 4 ≤ 1) ∧
    composition.items.map (fun x => x.strips[1]?) = some none ∧
    (valueOf (({ atWindow.part with mem := [(609, 1)] } : Part).view {} |>.window 608)).map
      (fun w => (decide (w.kind = .other), w.startCol, w.stopCol)) = some (true, 1, 0) ∧
    failureOf ((atWindow.part.view { readErrors := [540] }).charRecord 512 3).record
      = some { cause := .bus, address := 540 } := by decide +kernel

/-- Strings at the ends of the pool and of the lengths a string may have, and their reads' errors. -/
theorem test_premises_ElementsAreDrawn_strings :
    let text (bus : Bus) (o : Nat) : List Nat × Option MemFail :=
      View.sourceCodes { mem := Memory.writeAll [] bus.host, base := 0, bus := bus } 512 100 (.ref (some o))
    text { host := [(610, 1), (611, 65)] } 98 = ([65], none) ∧ text { host := [(610, 2), (611, 65)] } 98 = ([], none) ∧
    text {} 99 = ([], none) ∧ text { readErrors := [532] } 100 = ([], none) ∧
    (text { host := [(512, 48)] } 0).1.length = 48 ∧ text { host := [(512, 49)] } 0 = ([], none) ∧
    text { readErrors := [532] } 98 = ([], some { cause := .bus, address := 532 }) ∧
    text { readErrors := [610] } 98 = ([], some { cause := .bus, address := 610 }) ∧
    text { host := [(609, 2), (610, 65)], readErrors := [611] } 97 = ([65], some { cause := .bus, address := 611 }) := by
  decide +kernel

/-- A glyph record that is read, one whose advance is read, and one whose advance is not; pens at the ends of a window. -/
theorem test_premises_ElementsAreDrawn_glyphs :
    let char (bus : Bus) : Machine.Char :=
      View.charRecord { mem := Memory.writeAll [] [(1032, 2), (1034, 69)], base := 0, bus := bus } 512 65
    ((char {}).advance = 5 ∧ (valueOf (char {}).record).map (·.width) = some 2) ∧
    ((char { readErrors := [1036] }).advance = 5 ∧
      failureOf (char { readErrors := [1036] }).record = some { cause := .bus, address := 1036 }) ∧
    ((char { readErrors := [1033] }).advance = 0 ∧
      failureOf (char { readErrors := [1033] }).record = some { cause := .bus, address := 1033 }) ∧
    penStarts true true 5 7 8 8 = [0] ∧ penStarts true true 16 2 9 8 = [-2, 23] ∧ penStarts true false 5 7 9 8 = [0] ∧
    penStarts true false 5 7 5 8 = [1] := by decide +kernel

/-- A seat in the left half of module 5, shown on the page of its display state; what the fields of its page draw. -/
theorem test_premises_ElementsAreDrawn_fields :
    let shown : Shown := { kind := .reserved, fromCode := 11, toCode := 99, label := none, note := some 7 }
    let seat : Seat := { number := 999, address := 5, half := .left, segments := [], display := .blocked
                         shown := some shown, reviewResolution := false, reviewLatched := false }
    let named (code name : Nat) : StopRecord :=
      { code := code, name := some name, shortName := none, mask := 1, divide := false, join := false, legLength := 0
        mapX := 0, arrival := some 1439, departure := some 61 }
    let p (phase : Phase) : Part := { Part.reset with
      res := { Reservations.reset with seats := [seat], pages := some [3, 4, 5, 6, 7, 8] }
      trk := { tracking phase with stops := [named 11 40, named 12 50, named 13 60] } }
    let draws (phase : Phase) (field : Nat) : TextSource := (p phase).fieldSource (some 999) field none
    (p .lost).presentPage .seat 5 { wholeArea with half := some .left } = (some 7, some 999) ∧
    (p .lost).presentPage .seat 5 { wholeArea with half := some .right } = (none, none) ∧
    [1, 3, 4].map (draws (.running 1)) = [.ref (some 60), .ref (some 50), .ref (some 60)] ∧
    [1, 3, 9, 10].map (draws .ended) = [.ref none, .ref (some 60), .codes [], .codes [48, 49, 58, 48, 49]] ∧
    [1, 3, 9].map (draws (.atStop 2)) = [.ref none, .ref (some 60), .codes []] ∧
    draws (.atStop 0) 9 = .codes [50, 51, 58, 53, 57] ∧
    [5, 6, 7, 8, 11].map (draws .lost) = [.codes [57, 57, 57], .ref (some 40), .ref none, .ref (some 7), .codes []] ∧
    (p .lost).fieldSource (some 998) 5 none = .codes [] := by decide +kernel

theorem test_premises_GlyphsAreDecodedAndLaid :
    (let s := composing { composition with glyphs := [glyphJob] }
     s.part.cmp.comp = some { composition with glyphs := [glyphJob] } ∧
      composition.pin = some { copy := .a, address := 512 } ∧
      (((s.part.view {}).decodeJob s.part.cmp.decoder 512 glyphJob).2 = none)) ∧
    (let table : RunTable :=
       { short := false, commonX := 0, endMode := false, zeros := true, entries := List.replicate 8 { x := 0, endFlag := false } }
     let d : Decoder := { Decoder.reset with table := some table }
     (((composing composition).part.view {}).decodeJob d 512 glyphJob).2 = some (.fault .lengthFault)) ∧
    (let v := (composing composition).part.view { readErrors := [512 + 0x20] }
     let f : MemFail := { cause := .bus, address := 512 + 0x20 }
     failureOf (v.u32 (512 + 0x20)) = some f ∧ (v.decodeJob Decoder.reset 512 glyphJob).2 = some (.memory f)) := by decide

/-- A run table whose rows have these END flags, all of X 1. -/
def tableWith (endMode zeros : Bool) (flags : List Bool) : RunTable :=
  { short := false, commonX := 2, endMode := endMode, zeros := zeros
    entries := flags.map (fun f => { x := 1, endFlag := f }) }

theorem test_premises_GlyphsAreDecodedAndLaid_streams :
    let off := tableWith false false (List.replicate 8 false)
    let on := tableWith true true (true :: List.replicate 7 false)
    let v (bus : Bus) : View := viewOf bus
    (off.entries.length = 8 ∧ off.short = false ∧ off.entries[min 9 7]? = some { x := 1, endFlag := false } ∧
      ({ off with short := true } : RunTable).short = true ∧ off.endMode = false ∧ on.endIndex = some 0) ∧
    ((v {}).streamBit 0 1 8 |> failureOf) = some (.fault .lengthFault) ∧
    (valueOf ((v {}).byte 0) = some 0 ∧
      failureOf ((v { readErrors := [0] }).byte 0) = some { cause := .bus, address := 0 }) ∧
    valueOf ((v {}).streamSymbol 0 4 off 0) = some (1, 2) ∧ valueOf ((v {}).streamSymbol 0 4 on 0) = some (1, 1) ∧
    failureOf ((v {}).streamSymbol 0 4 (tableWith false true (List.replicate 8 false)) 0)
      = some { stop := .fault .prefixFault, bitPos := 32 } ∧
    failureOf ((v {}).streamSymbol 0 4 off 31) = some { stop := .fault .lengthFault, bitPos := 32 } ∧
    failureOf ((v { readErrors := [1] }).streamSymbol 0 4 off 7)
      = some { stop := .memory { cause := .bus, address := 1 }, bitPos := 8 } ∧
    (((v {}).decodeGlyph Decoder.reset off 0 4 3).2 = none ∧
      ((v {}).decodeGlyph Decoder.reset off 0 1 24).2 = some (.fault .lengthFault) ∧
      ((v { readErrors := [0] }).decodeGlyph Decoder.reset off 0 1 24).2
        = some (.memory { cause := .bus, address := 0 })) ∧
    (valueOf ((v {}).u32 0x20) = some 0 ∧ ({ Decoder.reset with table := some off } : Decoder).table = some off) := by
  decide +kernel

theorem test_premises_CompositionCompletes :
    let s := composing composition
    s.part.cmp.comp = some composition ∧ composition.glyphs = [] ∧ composition.areas = [] ∧ composition.page = none ∧
      composition.slot < s.part.cmp.slots.length ∧ composition.pin = some { copy := .a, address := 512 } := by decide

/-! ### Premises met: the panel lines -/

/-- Characters received without fault, and a reply of the SEAT line's panel 5. -/
def received (bs : List Byte) : List RxChar := bs.map (fun b => { data := b, parity := evenParity b, stop := true })
def replyOf (address kind : Nat) (status light size : Byte) : List RxChar :=
  received (frameOf address kind [status, light, size])

/-- One reply for each outcome; the last three are whole and addressed right. -/
theorem test_outcome_of_each_reply :
    outcomeOf .seat 5 [] = .failure .noReply ∧
    outcomeOf .seat 5 [{ data := 1, parity := false, stop := true }] = .failure .char ∧
    outcomeOf .seat 5 (received [5, 0x81]) = .failure .length ∧
    outcomeOf .seat 5 (received [5, 0x81, 3, 0, 0, 200, 1, 0, 0]) = .failure .check ∧
    outcomeOf .seat 5 (replyOf 6 0x81 0 200 1) = .failure .address ∧
    outcomeOf .seat 5 (replyOf 5 0x81 0 200 2) = .failure .length ∧
    outcomeOf .seat 5 (replyOf 5 0x81 1 200 1) = .failure .check ∧
    outcomeOf .seat 5 (replyOf 5 0x81 2 200 1) = .notReady 200 ∧
    outcomeOf .seat 5 (replyOf 5 0x81 0 200 1) = .good 200 := by decide +kernel

/-- Nine characters whose check, address or size is wrong meet the premises of the later rows alone. -/
theorem test_premises_FramesAndOutcomes :
    (∀ cs, cs ∈ [replyOf 5 0x81 0 200 1, replyOf 5 0x81 1 200 1, replyOf 5 0x81 2 200 1, replyOf 6 0x81 0 200 1,
        replyOf 5 0x81 3 200 1] →
      cs ≠ [] ∧ (¬ ∃ c ∈ cs, c.parity ≠ evenParity c.data ∨ c.stop = false) ∧ cs.length = 9 ∧
        replyByte cs 2 + 256 * replyByte cs 3 = 3 ∧
        (crc16 ((cs.take 7).map (·.data))).toNat = replyByte cs 7 + 256 * replyByte cs 8) := by decide +kernel

/-- The SEAT line with RUN 1, these panels and these slots. -/
def lineState (c : LineCtl) (slots : List Slot) : State :=
  running (stateOf { Part.reset with lineSeat := c, cmp := { Composer.reset with slots := slots } })

/-- Group 1 GROUPED with a hold limit of 2, its show due, and its round. -/
def groupedConfig : LineConfig :=
  { lineConfig with groups := [{ grouped := false, hold := 15 }, { grouped := true, hold := 2 },
                               { grouped := false, hold := 15 }, { grouped := false, hold := 15 }] }
def dueLine (round : Option Round) : LineCtl :=
  { LineCtl.reset with
    config := some groupedConfig
    groups := [Group.reset, { Group.reset with showDue := true, round := round }, Group.reset, Group.reset] }

/-- A round of panels 5 and 6, staged or not, of an age. -/
def roundOf (five six : Bool) (age : Nat) : Round :=
  { members := [{ address := 5, staged := five }, { address := 6, staged := six }], age := age }

/-- A SHOW is sent of a round all staged, or at its hold limit of 2, and of no other. -/
theorem test_show_is_sent_by_its_law :
    [roundOf true true 0, roundOf true false 2, roundOf true false 1].map (fun r => (dueLine (some r)).dueGroup)
      = [some 1, some 1, none] := by decide

theorem test_premises_ArbiterBeginsTheFirstWork :
    (let c := dueLine (some (roundOf true false 2))
     let s := lineState c []
     c.config = some groupedConfig ∧ c.exchange = none ∧ c.quiet = none ∧ s.part.regs.run = true ∧
      (groupedConfig.groups.getD 1 { grouped := false, hold := 0 }).grouped = true ∧
      (c.group 1).showDue = true ∧ (c.group 1).round = some (roundOf true false 2) ∧
      (groupedConfig.groups.getD 1 { grouped := false, hold := 0 }).hold ≤ (roundOf true false 2).age ∧
      (roundOf true true 0).members ≠ [] ∧ (∀ m ∈ (roundOf true true 0).members, m.staged = true) ∧
      (groupedConfig.groups.getD 0 { grouped := false, hold := 0 }).grouped = false) ∧
    (∀ g, g < 4 → (lineConfig.groups.getD g { grouped := false, hold := 0 }).grouped = false) ∧
    (let s := lineState { lineOf [panel 5 .online] with loadPtr := 5 } [{ state := .waiting .seat 5, image := [1] }]
     (∃ q ∈ s.part.lineSeat.panels, q.address = 5 ∧ (q.health = .online ∨ q.health = .failing)) ∧
      (∃ x ∈ s.part.cmp.slots, x.state = .waiting .seat 5) ∧ (∀ x ∈ s.part.cmp.slots, x.state ≠ .rendering .seat 5) ∧
      ∀ q ∈ s.part.lineSeat.panels, q.address ≤ s.part.lineSeat.loadPtr) ∧
    (let s := lineState (lineOf [{ panel 5 .failing with owed := true }]) [Slot.freed]
     (∃ q ∈ s.part.lineSeat.panels, q.address = 5 ∧ (q.health = .online ∨ q.health = .failing) ∧ q.owed = true) ∧
      (∀ x ∈ s.part.cmp.slots, x.state = .free) ∧ s.part.lineSeat.showPtr < 5 ∧
      ∀ q ∈ s.part.lineSeat.panels, 5 ≤ q.address) ∧
    (let s := lineState (lineOf [panel 5 .joining, panel 63 .offline]) [Slot.freed]
     (∃ q ∈ s.part.lineSeat.panels, q.address = 63 ∧ q.queryDue = true) ∧
      (∀ q ∈ s.part.lineSeat.panels, q.owed = false ∧ 5 ≤ q.address) ∧ s.part.lineSeat.queryPtr < 5) ∧
    (let c := lineOf [{ panel 5 .online with light := some 200 }]
     0 < c.groups.length ∧ (∃ q ∈ c.panels, q.group = 0 ∧ q.health = .online ∧ q.light = some 200) ∧
      (c.group 0).sentStep = none ∧ (c.group 0).candStep ≠ some 8) ∧
    ¬ ∃ q ∈ (lineOf [panel 5 .failing]).panels, q.group = 0 ∧ q.health = .online := by decide

/-- An exchange of the SEAT line with panel 5, or a broadcast SHOW to group 1. -/
def exchange (kind : ExchangeKind) (awaiting : Bool) : Exchange :=
  { kind := kind, address := 5, group := 1, frame := [], rate := 0, awaiting := awaiting, due := 0 }
def exchanging (kind : ExchangeKind) (awaiting : Bool) (q : Panel) : LineCtl :=
  { lineOf [q] with exchange := some (exchange kind awaiting) }

theorem test_premises_ExchangesEnd :
    (∀ kind, kind ∈ [ExchangeKind.showOne, .query, .load 7] →
      let c := exchanging kind false (panel 5 .online)
      c.exchange = some (exchange kind false) ∧ (exchange kind false).awaiting = false) ∧
    (let c := exchanging (.broadcast true) false (panel 5 .online)
     c.exchange = some (exchange (.broadcast true) false) ∧ (exchange (.broadcast true) false).group < c.groups.length) ∧
    (∀ kind, kind ∈ [ExchangeKind.showOne, .query, .load 7] →
      let q := { panel 5 .failing with group := 1, failRun := 3 }
      let c := exchanging kind true q
      c.exchange = some (exchange kind true) ∧ (exchange kind true).awaiting = true ∧ c.panel 5 = some q ∧
        q.group < c.groups.length ∧
        (Panel.after q (outcomeOf .seat 5 [])).health = .offline ∧ q.health ≠ .offline ∧
        outcomeOf .seat 5 (replyOf 5 0x81 0 200 1) = .good 200) ∧
    (let r : Round := { members := [{ address := 5, staged := false }, { address := 6, staged := true }], age := 0 }
     ({ Group.reset with round := some r } : Group).round = some r ∧ r.members ≠ [] ∧
      r.members.filter (fun m => decide (m.address ≠ 5)) ≠ [] ∧
      ([{ address := 5, staged := false }] : List Member).filter (fun m => decide (m.address ≠ 5)) = []) := by decide +kernel

theorem test_premises_HealthMovesByOutcome :
    (panel 5 .absent).health = .absent ∧ (panel 5 .offline).health = .offline ∧
    ((panel 5 .joining).health = .joining ∧ (panel 5 .joining).goodRun < 2) ∧
    2 ≤ ({ panel 5 .joining with goodRun := 2 } : Panel).goodRun ∧ (panel 5 .online).health = .online ∧
    ((panel 5 .failing).health = .failing ∧ (panel 5 .failing).failRun < 3) ∧
    3 ≤ ({ panel 5 .failing with failRun := 3 } : Panel).failRun ∧
    ((panel 5 .joining).health ≠ .absent ∧ (panel 5 .joining).health ≠ .offline) := by decide

/-- A probe countdown that has come to 0 during the probe makes the next probe due at its end; one that has not does not. -/
theorem test_probe_due_at_the_end_of_a_probe :
    let probed (health : Health) (probe : Nat) (o : ExchangeOutcome) : Bool :=
      ({ panel 5 health with probe := probe }.after o).askable
    (probed .absent 0 (.failure .noReply), probed .absent 1 (.failure .noReply)) = (true, false) ∧
    (probed .offline 0 (.notReady 9), probed .offline 1 (.notReady 9)) = (true, false) ∧
    (probed .online 0 (.good 9), probed .joining 0 (.good 9)) = (false, true) := by decide

/-- NOT_READY leaves an OFFLINE panel OFFLINE. -/
theorem test_premises_HealthMovesByOutcome_offline :
    (panel 5 .offline).health ≠ .absent ∧ ((panel 5 .offline).after (.notReady 9)).health = .offline := by decide

theorem test_premises_LineAgesAtSweepBoundary :
    (withSeat { lineOf [panel 5 .online] with boundaries := 1 }).part.lineSeat.boundaries ≠ 0 ∧
    (let r : Round := { members := [{ address := 5, staged := true }], age := 1 }
     let c := { dueLine none with groups := [Group.reset, { Group.reset with round := some r }, Group.reset, Group.reset]
                                  panels := [{ panel 6 .online with group := 1, owed := true }] }
     1 < c.groups.length ∧ (c.group 1).round = some r ∧ c.hold 1 = 2 ∧ ¬ c.hold 1 ≤ r.age ∧
      c.hold 1 ≤ ({ r with age := 2 } : Round).age ∧
      c.isGrouped 1 = true ∧ (c.group 0).round = none ∧ c.isGrouped 0 = false ∧
      ((dueLine none).group 1).round = none ∧ ∃ q ∈ c.panels, q.group = 1 ∧ q.owed = true) := by decide

/-- The profile with panel 6 in place of panel 5 on the SEAT line, and group 0 GROUPED. -/
def otherLine : LineConfig :=
  { lineConfig with panels := [{ address := 6, group := 0 }]
                    groups := { grouped := true, hold := 1 } :: List.replicate 3 { grouped := false, hold := 15 } }

theorem test_premises_LineTakesProfile :
    (let c := { exchanging .query false (panel 5 .online) with profiles := [{ profile with seat := otherLine }] }
     (withSeat c).part.lineSeat.profiles = [{ profile with seat := otherLine }] ∧
      c.exchange = some (exchange .query false) ∧ (∀ q ∈ otherLine.panels, q.address ≠ 5) ∧
      c.panel 6 = none ∧ c.config = some lineConfig ∧ 0 < c.groups.length ∧
      (lineConfig.groups.getD 0 { grouped := false, hold := 0 }).grouped
        ≠ (otherLine.groups.getD 0 { grouped := false, hold := 0 }).grouped) ∧
    (let c := { exchanging (.broadcast false) false (panel 5 .online) with profiles := [profile] }
     c.profiles = [profile] ∧ c.panel 5 = some (panel 5 .online) ∧
      c.exchange = some (exchange (.broadcast false) false) ∧ (exchange (.broadcast false) false).group = 1 ∧
      c.groups.length = 4) ∧
    (let r : Round := { members := [{ address := 5, staged := true }], age := 15 }
     let x : Group := { Group.reset with round := some r }
     let left (n : LineConfig) : List Member :=
       r.members.filter (fun m => n.panels.any (fun q => q.address == m.address && q.group == 0))
     x.round = some r ∧ left lineConfig = r.members ∧ r.members ≠ [] ∧ left otherLine = []) ∧
    (withSeat { LineCtl.reset with quiet := some 5 }).part.lineSeat.quiet = some 5 ∧
    State.reset.part.lineSeat.quiet = none := by decide

/-- A load that raises the hold limit above the age withdraws the SHOW of a round not fully staged, and of no other; one
that lowers it to the age makes the SHOW due. -/
theorem test_premises_LineTakesProfile_hold :
    let loaded (hold : Nat) (due staged : Bool) : LineCtl :=
      let f : LineConfig := { lineConfig with groups := List.replicate 4 { grouped := true, hold := hold } }
      let r : Round := { members := [{ address := 5, staged := staged }], age := 3 }
      let x : Group := { Group.reset with round := some r, showDue := due }
      let before : LineConfig := { f with groups := List.replicate 4 { grouped := true, hold := 3 } }
      let c := { lineOf [panel 5 .online] with config := some before, groups := x :: List.replicate 3 Group.reset,
                                               profiles := [{ profile with seat := f }] }
      (after (exec (.lineProfileLoad .seat) (withSeat c))).part.lineSeat
    [(4, true, false), (4, true, true), (3, true, false), (2, false, false), (4, false, false)].map
        (fun x => ((loaded x.1 x.2.1 x.2.2).group 0).showDue) = [false, true, true, true, false] ∧
    ((loaded 4 true false).group 0).round.isSome = true := by decide +kernel

/-- A frame of four characters at 500 kbit/s, begun at 0, with the profile that removes its panel, at a us value. -/
def sendsFour (awaiting : Bool) (us : Word) : State :=
  let x : Exchange :=
    { kind := .query, address := 5, group := 0, frame := [0, 1, 2, 3], rate := 0, awaiting := awaiting
      due := BitVec.ofNat 32 (sendingTime 0 4) }
  stateOf { Part.reset with
    swp := { Sweep.reset with us := us }
    lineSeat := { lineOf [panel 5 .online] with exchange := some x, profiles := [{ profile with seat := otherLine }] } }

/-- The character that begins at 22 us is in hand from then on, and none once the fourth has been sent. -/
theorem test_premises_LineTakesProfile_cut :
    [0#32, 21#32, 22#32, 87#32].map (fun us => 4 * (us - 0).toNat / (11 * 8) + 1) = [1, 1, 2, 4] ∧
    4 < 4 * (88#32 - 0).toNat / (11 * 8) + 1 ∧
    ((sendsFour true 3).part.lineSeat.exchange.map (·.awaiting) = some true) ∧
    (let cut (us : Word) : LineCtl := (after (exec (.lineProfileLoad .seat) (sendsFour false us))).part.lineSeat
     (cut 21).tail.map (·.bytes) = some [0] ∧ (cut 21).quiet = some 2022 ∧
      (cut 22).tail.map (·.bytes) = some [0, 1] ∧ (cut 22).quiet = some 2044 ∧
      (cut 22).transmitting 43 = true ∧ (cut 22).transmitting 44 = false ∧ (cut 22).txd 44 0 = true ∧
      (cut 22).txd 22 0 = false ∧ (cut 88).tail = none ∧ (cut 88).quiet = some 2088) := by decide +kernel

theorem test_premises_LineTakesProfile_quiet :
    let c := { LineCtl.reset with quiet := some 2022, tail := some { bytes := [0], rate := 0, start := 0 } }
    c.quiet = some 2022 ∧ (2022#32 - 2022#32).toNat < 2147483648 ∧ 2147483648 ≤ (2021#32 - 2022#32).toNat ∧
      2147483648 ≤ (21#32 - (0 + BitVec.ofNat 32 (sendingTime 0 1))).toNat ∧
      ¬ 2147483648 ≤ (22#32 - (0 + BitVec.ofNat 32 (sendingTime 0 1))).toNat := by decide +kernel

/-! ### Premises met: the sweep timer -/

/-- A sweep timer in a sync state, running. -/
def sweeping (w : Sweep) : State := running (withSwp w)

theorem test_premises_SweepBoundaryByPeriod :
    (∀ sync, sync ∈ [SyncState.alone, .leading, .freewheel] →
      let s := sweeping { Sweep.reset with sync := sync, ms := 4294967295, nextDue := some 4294967295 }
      s.part.regs.run = true ∧ s.part.swp.sync = sync ∧ s.part.swp.nextDue = some 4294967295 ∧
        (s.part.swp.ms - 4294967295).toNat < 2147483648 ∧ 2147483648 ≤ (s.part.swp.ms - 0).toNat) ∧
    (let s := withSwp { Sweep.reset with us := 5, sweepPulse := some 5, leadPulse := some 4 }
     s.part.swp.sweepPulse = some 5 ∧ (s.part.swp.us - 5).toNat < 2147483648 ∧ s.part.swp.leadPulse = some 4 ∧
      (s.part.swp.us - 4).toNat < 2147483648) := by decide

/-- A boundary within a lead pulse leaves the line at 1 to the later of the two ends, and TSYNC is driven by role and
pulse. -/
theorem test_premises_SweepBoundaryByPeriod_lead_pulse :
    let led (e : Option Word) (number : Nat) : State := sweeping { Sweep.reset with
      wrap := 3000, number := number, sync := .leading, us := 500, nextDue := some 0, leadPulse := e }
    let ends (s : State) : Option Word := (after (exec .sweepBoundary s)).part.swp.leadPulse
    [ends (led none 0), ends (led none 7), ends (led (some 3000) 7), ends (led (some 1000) 0), ends (led (some 1500) 7)]
      = [some 3500, some 1500, some 3000, some 3500, some 1500] ∧
    (led (some 3000) 7).part.tsyncDrive = some true ∧ (led none 7).part.tsyncDrive = some false ∧
    (sweeping { Sweep.reset with leadPulse := some 5 }).part.tsyncDrive = some true ∧
    State.reset.part.tsyncDrive = none ∧ State.reset.part.swp.sync ≠ .leading := by decide +kernel

/-- A pulse that began at 0 and ends now. -/
def pulsing (us : Word) (sync : SyncState) (last : Option Stamp) : Sweep :=
  { Sweep.reset with us := us, sync := sync, pulseStart := some 0, last := last }

theorem test_premises_TrainSyncFollowsTheLeader :
    ¬ (State.reset.part.regs.run = true) ∧
    (∀ us : Word,
      let s := sweeping (pulsing us .freewheel none)
      s.part.regs.run = true ∧ s.part.swp.sync = .freewheel ∧ s.part.swp.pulseStart = some 0 ∧ s.part.swp.us = us ∧
        s.part.swp.last = none) ∧
    ((249#32 - 0#32).toNat < 250 ∧ 250 ≤ (250#32 - 0#32).toNat ∧ (1999#32 - 0#32).toNat < 2000 ∧
      2000 ≤ (2000#32 - 0#32).toNat) ∧
    (let s := sweeping (pulsing 20000 .following (some { us := 1, ms := 0 }))
     s.part.swp.sync = .following ∧ s.part.swp.last = some { us := 1, ms := 0 } ∧ (20000#32 - 1#32).toNat < 20000) ∧
    (let s := sweeping { Sweep.reset with sync := .following, silence := some 0 }
     s.part.swp.silence = some 0 ∧ s.part.regs.run = true ∧ s.part.swp.sync = .following ∧
      (s.part.swp.ms - 0).toNat < 2147483648 ∧ 2147483648 ≤ (s.part.swp.ms - 1).toNat) :=
  ⟨by decide, fun _ => ⟨rfl, rfl, rfl, rfl, rfl⟩, by decide, by decide, by decide⟩

theorem test_premises_SweepTakesProfile :
    (∀ role, role ∈ [Role.alone, .lead, .follow] →
      let f := { profile with role := role, period := 201 }
      let s := sweeping { Sweep.reset with profiles := [f], silence := some 4 }
      s.part.swp.profiles = [f] ∧ s.part.regs.run = true ∧ f.period ≠ s.part.swp.period ∧
        (decide (f.role = s.part.swp.role) = decide (role = .alone))) ∧
    (let s := withSwp { Sweep.reset with profiles := [profile], role := .follow, sync := .freewheel }
     s.part.swp.profiles = [profile] ∧ s.part.regs.run = false ∧ profile.role ≠ s.part.swp.role ∧
      profile.role ≠ .follow) ∧
    (let f := { profile with role := .follow, period := 201 }
     let s := sweeping { Sweep.reset with profiles := [f], role := .follow, sync := .following, silence := some 4
                                          lastPulse := some 9 }
     f.role = s.part.swp.role ∧ s.part.swp.sync = .following ∧ s.part.swp.silence ≠ none ∧
      s.part.swp.lastPulse = some 9 ∧ f.period ≠ s.part.swp.period) := by decide

theorem test_premises_SweepTakesProfile_due :
    let leads (nextDue : Word) : State := sweeping { Sweep.reset with
      profiles := [{ profile with role := .lead, wrap := 0 }], sync := .leading, role := .lead, period := 200
      ms := 900, nextDue := some nextDue, last := some { us := 0, ms := 0 } }
    let follows (silence : Word) : State := sweeping { Sweep.reset with
      profiles := [{ profile with role := .follow }], sync := .following, role := .follow, period := 200
      ms := 900, silence := some silence }
    (leads 900).part.swp.profiles = [{ profile with role := .lead, wrap := 0 }] ∧
    (after (exec .sweepProfileLoad (leads 900))).part.ed.boundary = true ∧
    (after (exec .sweepProfileLoad (leads 901))).part.ed.boundary = false ∧
    (after (exec .sweepProfileLoad (follows 900))).part.swp.sync = .freewheel ∧
    (after (exec .sweepProfileLoad (follows 901))).part.swp.sync = .following := by decide +kernel

/-- A load taken while RUN is 0 sets next boundary due and makes no boundary. -/
theorem test_premises_SweepTakesProfile_stopped :
    let taken (role : Role) (period : Nat) (w : Sweep) : Part :=
      (after (exec .sweepProfileLoad
        (withSwp { w with profiles := [{ profile with role := role, period := period }], ms := 900, period := 200 }))).part
    let stamp : Option Stamp := some { us := 0, ms := 100 }
    [(taken .alone 300 { Sweep.reset with last := stamp }).swp.nextDue,
     (taken .alone 200 { Sweep.reset with last := stamp }).swp.nextDue,
     (taken .lead 200 { Sweep.reset with role := .follow, sync := .following, last := stamp }).swp.nextDue,
     (taken .alone 300 { Sweep.reset with role := .follow, sync := .freewheel, last := none }).swp.nextDue,
     (taken .follow 300 { Sweep.reset with last := stamp }).swp.nextDue]
      = [some 400, none, some 300, some 900, none] ∧
    (taken .alone 300 { Sweep.reset with last := stamp }).ed.boundary = false := by decide +kernel

/-! ### Premises met: the edition unit, the report unit and the registers -/

theorem test_premises_FullWriteShowsEditionUnit :
    ({} : Bus).writeErrors = [] ∧ Memory.wf State.reset.part.mem = true ∧ Kind.stopList ∈ [Kind.stopList] ∧
    (∀ k : Kind, ∀ i, i ∈ [9, 10, 11, 12, 16, 17, 18, 19] →
      (300 : Nat) ≠ busAddress 0 (slotEntry k + i)) := by
  refine ⟨rfl, rfl, by decide, fun k => ?_⟩; cases k <;> decide

theorem test_premises_FullWriteShowsEditionUnit_refusals :
    let field : FieldWrite := { offset := 0x90, size := 2, value := 0x0102 }
    let bytes := (List.range field.size).map (fun i => (field.offset + i, BitVec.ofNat 8 (field.value / 256 ^ i)))
    (bytes = [(0x90, 2#8)] ++ (0x91, 1#8) :: [] ∧ busAddress 0 0x91 ∈ [0x91] ∧ busAddress 0 0x90 ∉ [0x91]) ∧
    (∀ x ∈ bytes, busAddress 0 x.1 ∉ [5]) ∧ busAddress 0 5 ∈ [5] ∧ busAddress 0 4 ∉ [5] ∧
    ((Part.reset.headWrite { writeErrors := [0x91] } [field]).mem = [(0x90, 2)] ∧
      (Part.reset.headWrite { writeErrors := [5] } [field]).mem = [(4, 1), (0x90, 2), (0x91, 1)] ∧
      (Part.reset.headWrite {} [field]).ed.seq = 1) ∧
    ((running State.reset).part.regs.run = true ∧ busAddress 0 (4096 + 16) ∈ [4112]) := by decide +kernel

/-- RUN 1 and a boundary raised; the host has written the head block's signature. -/
def atBoundary : State := running (withEd { Edition.reset with boundary := true })
def signature : Bus := { host := [(0, 0x40), (1, 0x72), (2, 0xAC), (3, 0x52)] }

/-- A head block with requests of each kind, a position request, and a list at 4096 posted to 2. -/
def head : List Byte :=
  (List.range 256).map (fun i =>
    if i = 0x18 then 1 else if i = 0x30 then 2 else if i = 0x48 then 3 else if i = 0x89 then 0x10
    else if i = 0x8D then 2 else if i = 0x90 then 3 else 0)

theorem test_premises_BoundaryOperationTakesTheHeadBlock :
    (State.reset.part.ed.boundary = false) ∧
    (atBoundary.part.ed.boundary = true ∧ atBoundary.part.regs.run = true ∧ atBoundary.part.trk.request = none) ∧
    (failureOf ((atBoundary.part.view { readErrors := [255] }).bytes 0 256) = some { cause := .bus, address := 255 } ∧
      (valueOf ((atBoundary.part.view {}).bytes 0 256)).map (fun h => littleEndian (h.take 4)) = some 0 ∧
      (valueOf (({ atBoundary.part with mem := Memory.writeAll [] signature.host } : Part).view signature |>.bytes 0 256)).map
        (fun h => littleEndian (h.take 4)) = some 0x52AC7240) := by decide +kernel

theorem test_premises_HeadBlockFields :
    (headField head (slotEntry .coachProfile + 8) 1 = 1 ∧ headField head (slotEntry .stopList + 8) 1 = 2 ∧
      2 < headField head (slotEntry .reservationTable + 8) 1 ∧ headField head (slotEntry .noticeTable + 8) 1 = 0) ∧
    ((State.reset.part.ed.kind .stopList).switch = none ∧ (State.reset.part.ed.kind .stopList).live ≠ some .b ∧
      ({ Edition.reset with profile := liveA } : Edition).profile.live = some .a) ∧
    headField head 0x90 1 = 3 ∧
    (let list := headField head 0x88 4
     ¬ (list % 16 ≠ 0 ∨ 16777216 < list + 2048) ∧ headField head 0x8D 1 < 64 ∧
      headField head 0x8D 1 ≠ State.reset.part.ed.take ∧ State.reset.part.ed.run = none ∧
      headField head 0x8D 1 = ({ Edition.reset with take := 2 } : Edition).take) ∧
    (headField (List.replicate 256 255) 0x88 4 % 16 ≠ 0 ∧ 64 ≤ headField (List.replicate 256 64) 0x8D 1 ∧
      3 < headField (List.replicate 256 64) 0x90 1) := by decide +kernel

/-- A switch of the notice table to copy A at 512, where the host has written a table without notices. -/
def toNotices : Switch := { copy := .a, address := 512, request := 1 }
def noticeSwitch : State :=
  running (withEd { Edition.reset with notices := { KindState.reset with pinsA := 1, switch := some toNotices } })
def emptyNotices : Bus := { host := [(512, 4), (516, 9), (520, 16)] }

theorem test_premises_SwitchesEnd :
    ((513 : Nat) % 16 ≠ 0 ∧ 16777216 < 16777216 - 15 + 16 ∧ 512 % 16 = 0 ∧ 512 + 16 ≤ 16777216) ∧
    ((noticeSwitch.part.ed.kind .noticeTable).switch = some toNotices) ∧
    (let found (bus : Bus) (k : Kind) : Except Reject Validated :=
       View.validate { mem := Memory.writeAll [] bus.host, base := 0, bus := bus } k none 512
     valueOf (found emptyNotices .noticeTable)
        = some { header := { kind := 4, edition := 9, length := 16, count := 0 }, profile := none } ∧
      failureOf (found emptyNotices .stopList) = some (.result .kind) ∧
      failureOf (found { host := [(512, 2), (520, 16)] } .stopList) = some (.result .count) ∧
      failureOf (found { host := [(512, 4), (520, 16), (524, 1)] } .noticeTable) = some (.result .count) ∧
      failureOf (found { host := [(512, 4), (523, 1)] } .noticeTable)
        = some (.memory { cause := .window, address := 512 }) ∧
      failureOf (found { readErrors := [512] } .noticeTable) = some (.memory { cause := .bus, address := 512 })) ∧
    ([LoadState.idle, .owed, .loading .a 512 7].map
        (fun l => ({ Reservations.reset with load := l, storeEdition := some 9 } : Reservations).floor)
        = [some 9, some 9, some 9] ∧
      ({ Reservations.reset with load := .loading .a 512 7 } : Reservations).floor = some 7) ∧
    (valueOf ((noticeSwitch.part.view {}).u8 (slotEntry .noticeTable + 8)) = some 0 ∧
      failureOf ((noticeSwitch.part.view { readErrors := [0x60] }).u8 (slotEntry .noticeTable + 8))
        = some { cause := .bus, address := 0x60 }) ∧ (0 : Nat) ≠ toNotices.request := by decide +kernel

/-- A coach profile of no seats, every one of whose values passes. -/
def goodProfile : Bus :=
  let line (o : Nat) : List (Nat × Byte) := (List.range 4).map (fun g => (o + 2 + g, (16#8 : Byte)))
  { host := [(0x11, 1), (0x12, 0xDC), (0x13, 5), (0x14, 1), (0x15, 1), (0x16, 1), (0x17, 1), (0x18, 2), (0x1A, 1)
             , (0x1C, 1), (0x24, 50)] ++ line 0x38 ++ line 0xB0 ++ line 0x128 }

theorem test_premises_SwitchesEnd_profiles :
    (0 + 416 + 4 * 96 ≤ 16777216 ∧ goodProfile.readErrors = []) ∧
    (valueOf ((viewOf goodProfile).profile 0 0)).map (fun f => (f.wheel.c, f.portion, f.period, f.outs.length))
      = some (1500, 1, 50, 4) ∧
    failureOf ((viewOf goodProfile).profile 0 1) = some (.result .range) ∧
    failureOf ((viewOf goodProfile).profile 0 97) = some (.result .count) ∧
    failureOf ((viewOf { goodProfile with readErrors := [0x10] }).profile 0 0)
      = some (.memory { cause := .bus, address := 0x10 }) := by decide +kernel

/-- The header of a copy at 512 of a kind, with its edition, length and count. -/
def headerBytes (kind edition length count : Byte) : Bus :=
  { host := [(512, kind), (516, edition), (520, length), (521, 2), (524, count)] }
def headerOf (kind edition length count : Nat) : Header :=
  { kind := kind, edition := edition, length := length + 512, count := count }

theorem test_premises_SwitchesEnd_headers :
    (valueOf ((viewOf (headerBytes 5 1 64 0)).header 512) = some (headerOf 5 1 64 0) ∧ 512 % 16 = 0 ∧
      512 + 16 ≤ 16777216 ∧ (headerOf 5 1 64 0).kind = Kind.number .contentSet ∧
      leastLength .contentSet 0 ≤ (headerOf 5 1 64 0).length ∧ 512 + (headerOf 5 1 64 0).length ≤ 16777216 ∧
      64 ≤ (headerOf 5 1 64 0).length ∧
      failureOf ((viewOf (headerBytes 5 1 64 0)).validContent 512 (headerOf 5 1 64 0)) = some (.result .range)) ∧
    ((headerOf 2 1 0 0).count = 0 ∧ (headerOf 2 1 0 1).count = 1 ∧ (headerOf 2 1 0 64).count = 64 ∧
      64 < (headerOf 2 1 0 65).count) ∧
    (((headerOf 3 9 0 96).edition ≤ 9 ∧ (9 : Nat) < (headerOf 3 10 0 96).edition) ∧ (headerOf 3 9 0 96).count ≤ 96 ∧
      96 < (headerOf 3 9 0 97).count) ∧
    ((headerOf 4 9 0 32).count ≤ 32 ∧ 32 < (headerOf 4 9 0 33).count) := by decide +kernel

theorem test_premises_PageWritesFieldsThatDiffer :
    ((withRep { Report.reset with boundaries := 1 }).part.rep.boundaries ≠ 0 ∧ State.reset.part.regs.freeze = false ∧
      State.reset.part.rep.writing = none) ∧
    (withRep { Report.reset with boundaries := 1, writing := some 3 }).part.rep.writing = some 3 ∧
    ({} : Bus).writeErrors = [] ∧ Memory.wf State.reset.part.mem = true ∧
    (pageFields[0]?.map (fun f => (f.offset, f.size, f.value State.reset.part))).isSome = true ∧
    State.reset.part.rep.pageImage = [] := by decide +kernel

/-- Two boundaries during a page write give two more writes, each when the one before it ends, each with its own count. -/
theorem test_each_boundary_has_its_page_write :
    let writing (n : Nat) : Report := { Report.reset with writing := some 1000, deferred := n }
    let met := after (exec (.statusPageWrite {} 3)
      (after (exec (.statusPageWrite {} 3) (withRep { writing 0 with boundaries := 2 }))))
    let ended (n : Nat) : Report := (after (exec (.statusPageWriteDone {}) (withRep (writing n)))).part.rep
    (met.part.rep.deferred = 2 ∧ met.part.rep.writing = some 1000 ∧ met.part.rep.boundaries = 0) ∧
    [2, 1, 0].map (fun n => ((ended n).writing, (ended n).deferred, (ended n).pageSeq))
      = [(some 0, 1, 1), (some 0, 0, 1), (none, 0, 1)] := by decide +kernel

theorem test_premises_PageWritesFieldsThatDiffer_data :
    let seat0 := { Reservations.reset with seats := [seat []], storeEdition := some 4, lowestSkipped := some 3 }
    let p := { Part.reset with
      trk := { (tracking (.running 1)) with arrival := some { code := 1, measured := 2, expected := 3, ms := 4 } }
      res := seat0, lineSeat := lineOf [{ panel 5 .online with light := some 7 }]
      rep := { Report.reset with
        contentFault := some { glyph := 65, cause := .prefixFault }
        memoryError := some { agent := .composer, cause := .bus, address := 9 } } }
    (p.trk.phase.leg = some 1 ∧ (tracking .ended).phase = .ended ∧ Part.reset.trk.phase = .unplaced ∧
      Phase.lost.leg = none) ∧
    (p.trk.arrival ≠ none ∧ p.trk.departure = none) ∧
    (p.res.storeEdition = some 4 ∧ Part.reset.res.storeEdition = none) ∧
    (p.rep.contentFault ≠ none ∧ Part.reset.rep.contentFault = none ∧ p.rep.memoryError ≠ none ∧
      Part.reset.rep.memoryError = none) ∧
    (p.res.seats[0]? = some (seat []) ∧ p.res.seats[95]? = none) ∧
    (p.lineSeat.panels[0]? = some { panel 5 .online with light := some 7 } ∧ p.lineSeat.panels[47]? = none ∧
      (panel 5 .online).light = none) := by decide +kernel

theorem test_premises_PageWritesFieldsThatDiffer_field :
    (pageFields[7]?.map (fun f => (f.offset, f.size, f.value State.reset.part))) = some (14, 2, 0) ∧
    (Part.reset.rep.imageOf 14 ≠ some 0 ∧ ({ Report.reset with pageImage := [(14, 0)] } : Report).imageOf 14 = some 0) ∧
    Memory.wf Part.reset.mem = true ∧
    busAddress 0 (0x1000 + 14 + 1) ∈ [0x100F] ∧ busAddress 0 (0x1000 + 14) ∉ [0x100F] := by
  decide +kernel

theorem test_premises_RegistersReadAndWritten :
    (Part.reset.swp.outs[3]? = some { source := .off, invert := false }) ∧
    ((running State.reset).part.regs.run = true ∧ State.reset.part.regs.run = false) ∧ (7 : Nat) < 8 := by decide

theorem test_premises_RegistersReadAndWritten_port :
    (Port.idle.selected = false ∧ ({ Port.idle with selected := true } : Port).selected = true ∧
      Port.idle.afterReset.awaitHigh = false ∧
      ({ Port.idle with selected := true } : Port).afterReset
        = { Port.idle with selected := true, awaitHigh := true }) ∧
    ((writeBits 4 5).length = 40 ∧ ((writeBits 4 5).take 39).length < 40) := by decide

/-- IDENT comes back on SDO in bits 9 to 40, least significant byte first; a write cut at 39 bits changes no
register. -/
theorem test_port_transactions :
    (Part.reset.replyBits (readBits 0)).drop 8 = (serialReply 0x72400001#32).map (fun b => .driven (some b)) ∧
    (Part.reset.replyBits (readBits 0)).take 8 = List.replicate 8 (.driven none) ∧
    Part.reset.transact ((writeBits 4 5).take 39) = { Part.reset with spi := Port.idle } ∧
    (Part.reset.transact (writeBits 4 5)).regs.attentionEnable = 5 := by decide +kernel

/-- SDO stands from one falling edge of SCK to the next: the rising edge that captures, and the one that takes a bit, leave
it, also where SCK rests low and each bit's rising edge comes first. -/
theorem test_sdo_changes_on_the_falling_edge :
    let command := byteBits 0
    let captured := command.foldl (fun p b => (p.clockBit b).clockFall) Part.reset.selectRise.selectFall
    let early := (command.foldl (fun p b => p.clockFall.clockBit b) Part.reset.selectRise.selectFall)
    let first : Sdo := .driven ((serialReply 0x72400001#32)[0]?)
    early.spi.sdo = .driven none ∧ early.clockFall.spi.sdo = first ∧ captured.spi.sdo = first ∧
    (captured.clockBit true).spi.sdo = first ∧ (captured.clockBit true).spi.bits.length = 9 ∧
    captured.selectRise.spi.sdo = .released := by decide +kernel

/-- A transaction that a reset ends takes no bit until SSEL has been high. -/
theorem test_port_waits_after_a_reset :
    let p := Part.engineReset { Part.reset with spi := { Port.idle with selected := true } }
    (writeBits 4 5).foldl Part.clockBit p = p ∧
      (((writeBits 4 5).foldl Part.clockBit p.selectRise.selectFall).regs.attentionEnable = 5) := by decide +kernel

theorem test_premises_ControlSetsRunAndFreeze :
    State.reset.part.regs.run = false ∧ State.reset.part.swp.sync ≠ .following ∧
    (withSwp { Sweep.reset with sync := .following }).part.swp.sync = .following ∧
    (let s := composing composition
     s.part.regs.run = true ∧ s.part.cmp.comp = some composition ∧ composition.slot < s.part.cmp.slots.length ∧
      5 ∉ s.part.cmp.refresh composition.line) ∧
    (∀ stage, stage ∈ [RunStage.reading, .handed (record 9 21 3 0 0 0), .answered .applied] →
      (running (withEd { Edition.reset with run := some (holdingRun stage) })).part.ed.run = some (holdingRun stage)) ∧
    ((1#32).getLsbD 0 = true ∧ (0#32).getLsbD 0 = false) := by decide

theorem test_premises_ControlSetsRunAndFreeze_composition :
    let s := composing composition
    let drawnOn (h : Health) (list : List Nat) : Part := { s.part with
      lineEnd := lineOf [panel 5 h], cmp := { s.part.cmp with panels := [drawn], refreshEnd := list } }
    (((drawnOn .online []).line composition.line).health composition.address).drawn = true ∧
    composition.address ∉ (drawnOn .online []).cmp.refresh composition.line ∧
    (∃ q ∈ (drawnOn .online []).cmp.panels, q.line = composition.line ∧ q.address = composition.address) ∧
    composition.address ∈ (drawnOn .online [5]).cmp.refresh composition.line ∧
    (((drawnOn .offline []).line composition.line).health composition.address).drawn = false ∧
    loadsReading.part.trk.load = .loading .a 512 3 ∧ loadsAsked.part.trk.told ≠ 0 := by decide +kernel

/-- A boundary that the composer has not taken when RUN becomes 0 still marks the moving panels; a line drops its own. -/
theorem test_composer_marks_at_a_boundary_before_the_stop :
    let s := running (stateOf { Part.reset with
      cmp := { Composer.reset with boundaries := 1, panels := [drawn] }
      swp := { Sweep.reset with number := 4 }, lineEnd := { lineOf [panel 5 .online] with boundaries := 1 } })
    let stopped := after (exec (.runClear 0) s)
    stopped.part.cmp.boundaries = 1 ∧ stopped.part.lineEnd.boundaries = 0 ∧
      (after (exec .composerSweepMark stopped)).part.cmp.refreshEnd = [5] := by decide +kernel

theorem test_premises_CommandsStoreOnlyTheirFields :
    State.reset.part.memoryCanonical ∧ (∃ t, exec .capture State.reset = .next t ∧ busOf .capture = none) ∧
    (∀ bus, (∃ t, exec (.compositionBegin bus) State.reset = .next t) ∧ busOf (.compositionBegin bus) = some bus) ∧
    (∀ bus, (∃ t, exec (.unplace bus) State.reset = .next t) ∧ busOf (.unplace bus) = some bus) ∧
    (∀ bus, (∃ t, exec (.amendmentSlotRead bus) State.reset = .next t) ∧ busOf (.amendmentSlotRead bus) = some bus) ∧
    (∀ bus, (∃ t, exec (.boundaryOperation bus) State.reset = .next t) ∧ busOf (.boundaryOperation bus) = some bus) ∧
    ∀ bus, (∃ t, exec (.statusPageWriteDone bus) State.reset = .next t) ∧ busOf (.statusPageWriteDone bus) = some bus :=
  ⟨by unfold Part.memoryCanonical; decide, ⟨_, rfl, rfl⟩, fun _ => ⟨⟨_, rfl⟩, rfl⟩, fun _ => ⟨⟨_, rfl⟩, rfl⟩,
    fun _ => ⟨⟨_, rfl⟩, rfl⟩, fun _ => ⟨⟨_, rfl⟩, rfl⟩, fun _ => ⟨⟨_, rfl⟩, rfl⟩⟩

/-! ### The spec's worked examples, one step each -/

/-- 1.8: a sample of 14 breaks the still run; a silence sample completes it. -/
theorem test_detector_of_1_8 :
    (almostStill.takeSample 14).stillRun = 0 ∧ (almostStill.takeSample 14).motion = .moving ∧
    (almostStill.takeSample 0).motion = .still ∧ (almostStill.takeSample 0).stillRun = 0 ∧
    (almostMoving.takeSample 55).motion = .moving ∧ (almostMoving.takeSample 55).movingRun = 0 := by decide

/-- 1.9: the capture from 15,999,900 mm. -/
theorem test_capture_of_1_9 :
    let marks : List Mark := [{ tag := .approach 1, distance := 16000000 }, { tag := .pass 1, distance := 18500000 },
                              { tag := .notice 7 1, distance := 17000000 }]
    let t := (after (exec .capture (withOdo { rolling with marks := marks }))).part
    t.odo.legDistance = 16000015 ∧ t.odo.acc = 60 ∧ t.odo.marks = marks.drop 1 ∧
      t.trk.inbox = [.advanced 16000015, .mark (.approach 1)] ∧ t.ntc.inbox = [] := by decide +kernel

/-- 3.8: the second capture, 2601 us after the first. -/
theorem test_capture_of_3_8 :
    let o : Odometer := { rolling with legDistance := 7250284, acc := 60, speedRef := some 0, motion := .moving }
    let s := stateOf { Part.reset with odo := o, swp := { Sweep.reset with us := 2601 } }
    let t := (after (exec .capture s)).part.odo
    t.legDistance = 7250400 ∧ t.acc = 20 ∧ t.speed = 1600 := by decide +kernel

/-- 2.10: the served view of portion 2. -/
theorem test_served_view_of_2_10 :
    let r (code mask leg x : Nat) : StopRecord :=
      { code := code, name := none, shortName := none, mask := mask, divide := false, join := false, legLength := leg
        mapX := x, arrival := none, departure := none }
    (servedView [r 1100 3 35000 400, r 1150 1 22000 1200, r 1210 3 61000 1900, r 1300 1 40000 3000,
        r 1355 3 27500 3800, r 1420 3 0 4400] (some 2)).map (fun v => (v.code, v.mapX, v.legLength))
      = [(1100, 400, 57000), (1210, 1900, 101000), (1355, 3800, 27500), (1420, 4400, 0)] := by decide

/-- 2.11: a coach on leg 2 of that view, where an event finds it. -/
def view4 : List ServedStop := [stop 1100 0 57000, stop 1210 2 101000, stop 1355 4 27500, stop 1420 5 0]
def onLeg2 (phase : Phase) (mm : Nat) (f : Tracker → Tracker) : State :=
  stateOf { Part.reset with odo := { rolling with legDistance := mm }
                            trk := f { Tracker.reset with view := view4, phase := phase } }

theorem test_halt_and_doubt_of_2_11 :
    (after (exec .motionChange (onLeg2 (.approaching 2) 26940115 (hearsMotion .still .locked)))).part.trk.phase
      = .halted 2 ∧
    (after (exec .doorChange (onLeg2 (.halted 2) 26940115 (hearsDoor .released .still)))).part.trk.phase = .doubt 2 ∧
    (after (exec .doorChange (onLeg2 (.halted 2) 26940115 (hearsDoor .released .still)))).part.rep.attention
      = Flag.journey.mask := by decide

theorem test_resume_and_arrival_of_2_11 :
    (after (exec .motionChange (onLeg2 (.halted 2) 26951675 (hearsMotion .moving .locked)))).part.trk.phase
      = .approaching 2 ∧
    (let t := (after (exec .doorChange (onLeg2 (.approaching 2) 27410030 (hearsDoor .released .still)))).part
     t.trk.phase = .atStop 3 ∧ t.trk.arrival = some { code := 1420, measured := 27410, expected := 27500, ms := 0 } ∧
      t.odo.legDistance = 0 ∧ t.res.journeys.map (·.cause) = [.arrive, .doors]) := by decide

/-- 3.8, stages 2 to 6, and 3.9: the ends of the route. -/
theorem test_stages_of_3_8 :
    legMarker 1200 5200 18000 7250 = 2811 ∧ scrollOffset (some 2811) 256 1024 = 763 ∧ 763 / 16 = 47 ∧ 763 % 16 = 11 ∧
    filterPixel 200 40 180 20 11 8 = 80 ∧ markerLeft 2811 763 9 = 124 ∧ markerTop 24 12 = 6 := by decide
theorem test_ends_of_3_9 :
    scrollOffset (some 400) 256 1024 = 0 ∧ scrollOffset (some 9000) 256 1024 = 6952 ∧
    scrollOffset (some 16000) 256 1024 = 12288 ∧ scrollOffset (some 16000) 256 200 = 0 ∧
    markerLeft 16000 12288 9 = 228 := by decide

/-- 4.9: seat 23 before slots 13 and 14, and seat 24 before slot 16; the coach stands at index 1. -/
def view49 : List Nat := [2010, 2040, 2075, 2110, 2160, 2200]
def span (kind : SegKind) (f t fi ti : Nat) (fallback : Bool) : Segment :=
  { kind := kind, fromCode := f, toCode := t, label := none, note := none, resolution := .resolved fi ti fallback false }
def amended (q : Seat) (a : Amendment) : State :=
  running (stateOf { Part.reset with
    ed := { Edition.reset with run := some { post := 19, count := 0, list := 4096, stage := .handed a, cut := false } }
    res := { Reservations.reset with seats := [q], storeEdition := some 41, refPhase := .atStop 1, refLeg := some 1
                                     refView := view49 } })
def seat23 (segments : List Segment) : Seat :=
  { number := 23, address := 9, half := .left, segments := segments, display := .reservedNow
    shown := (segments.head?).map Segment.shown, reviewResolution := false, reviewLatched := false }

theorem test_add_of_4_9 :
    let r1 := span .reserved 2040 2110 1 3 false
    let r2 := span .reserved 2110 2200 3 5 false
    let t := (after (exec .add (amended (seat23 [r1]) (record 41 23 1 1 2110 2200)))).part
    t.res.seats = [{ seat23 [r1] with segments := [r1, r2] }] ∧ t.cmp.moduleMarks = [] ∧
      t.ed.run.map (·.stage) = some (.answered .applied) := by decide +kernel
theorem test_add_that_replaces_of_4_9 :
    let r1 := span .reserved 2040 2110 1 3 false
    let r2 := span .reserved 2110 2200 3 5 false
    let r3 := span .reserved 2075 2160 2 4 false
    let t := (after (exec .add (amended (seat23 [r1, r2]) (record 41 23 1 1 2075 2160)))).part
    t.res.seats.map (fun q => (q.segments, q.display, q.shown)) = [([r3], .reservedLater, some r3.shown)] ∧
      t.cmp.moduleMarks = [9] ∧ t.ed.run.map (·.stage) = some (.answered .replaced) := by decide +kernel
theorem test_cancel_of_4_9 :
    let r3 := span .reserved 2075 2160 2 4 false
    let t := (after (exec .cancel (amended (seat23 [r3]) (record 41 23 2 1 2040 2110)))).part
    t.res.seats = [seat23 [r3]] ∧ t.ed.run.map (·.stage) = some (.answered .notFound) ∧
      t.rep.attention = Flag.amend.mask := by decide +kernel
theorem test_clear_of_4_9 :
    (after (exec .clear (amended (seat23 []) (record 40 23 3 0 0 0)))).part.ed.run.map (·.stage)
      = some (.answered .stale) ∧
    (after (exec .clear (amended (seat23 []) (record 43 23 3 0 0 0)))).part.ed.run = none := by decide +kernel

/-- 4.9, at 2075: a segment that ends there goes, the block covers the leg, and the module is marked. -/
theorem test_journey_event_of_4_9 :
    let r4 := span .reserved 2999 2075 0 2 true
    let b1 := span .blocked 2075 2200 2 5 false
    let view := (view49.zip (List.range 6)).map (fun x => stop x.1 x.2 1)
    let e : JourneyEvent := { cause := .arrive, phase := .atStop 2, code := some 2075, view := view }
    let r := { (amended (seat23 [r4, b1]) (record 0 0 0 0 0 0)).part.res with journeys := [e] }
    let t := (after (exec .reservationJourneyEvent (withRes r))).part
    t.res.seats.map (fun q => (q.segments, q.display)) = [([b1], .blocked)] ∧
      t.cmp.moduleMarks = [9] := by decide +kernel

/-- 5.9: eight notices, one of priority 1 is dropped, and one of priority 4 displaces the last. -/
def full59 : Part :=
  let defs := [(40, 7), (41, 5), (42, 5), (43, 3), (44, 3), (45, 3), (46, 1), (47, 1), (50, 1), (51, 4)]
  { Part.reset with ntc := { Notices.reset with
      store := defs.map (fun d => notice d.1 .doors 0 d.2 0 (if d.1 = 51 then 1 else 0))
      active := (List.range 8).map (fun i => { id := 40 + i, phase := .showing, countdown := 9 }) } }
theorem test_full_list_of_5_9 :
    let dropped := full59.activate (notice 50 .doors 0 1 0 0)
    let put := full59.activate (notice 51 .doors 0 4 0 1)
    dropped.ntc.active = full59.ntc.active ∧ dropped.ntc.lastDropped = some 50 ∧
    put.ntc.active.map (·.id) = [40, 41, 42, 51, 43, 44, 45, 46] ∧ put.ntc.lastDropped = some 47 ∧
    put.swp.chime.inbox = [1] ∧ put.rep.attention = Flag.noticeDrop.mask := by decide +kernel

/-- 7.7 and 7.8: the glyph 6 by 4, whole, cut to two bytes, and cut to one; the cut ones need bits 16 and 8. -/
def table77 : RunTable :=
  { short := false, commonX := 0, endMode := true, zeros := false
    entries := [{ x := 1, endFlag := false }, { x := 1, endFlag := false }, { x := 3, endFlag := true }]
      ++ List.replicate 5 { x := 0, endFlag := false } }
def stream77 (len : Nat) : Decoder × Option StreamStop :=
  View.decodeGlyph { mem := [(0, 177), (1, 214), (2, 5)], base := 0, bus := {} } Decoder.reset table77 0 len 24
theorem test_glyph_of_7_7 :
    (stream77 3).2 = none ∧ (stream77 3).1.bitPos = 20 ∧
    (List.range 24).filter (fun i => (stream77 3).1.buffer.getD i false) = [3, 4, 9, 10, 15, 16] := by decide +kernel
theorem test_cut_glyphs_of_7_8 :
    (stream77 2).2 = some (.fault .lengthFault) ∧ (stream77 2).1.buffer = (stream77 3).1.buffer ∧
    (stream77 2).1.bitPos = 16 ∧ (stream77 1).2 = some (.fault .lengthFault) ∧ (stream77 1).1.bitPos = 8 ∧
    (List.range 24).filter (fun i => (stream77 1).1.buffer.getD i false) = [3, 4] := by decide +kernel

/-- Chapter 8: the CRC of the characters 1 to 9. -/
theorem test_crc_of_the_digits : crc16 ((List.range 9).map (fun i => BitVec.ofNat 8 (0x31 + i))) = 0x29B1#16 := by
  decide +kernel

/-- 8.9: the SHOW decision at b+4 keeps the sent step and makes 5 the candidate; the next one sends it. -/
theorem test_show_decision_of_8_9 :
    let f := { lineConfig with thresholds := [10, 30, 60, 90, 120, 150, 190, 230]
                               levels := [2, 3, 5, 7, 9, 11, 13, 14, 15] }
    let lit (a n : Nat) : Panel := { panel a .online with light := some n }
    let c := { lineOf [lit 1 120, lit 2 90, panel 3 .failing, lit 4 140] with
                 groups := [{ Group.reset with sentStep := some 4 }, Group.reset, Group.reset, Group.reset] }
    let d := c.showDecision f 0
    d.2 = 9 ∧ (d.1.group 0).candStep = some 5 ∧ (d.1.showDecision f 0).2 = 11 ∧
      ((d.1.showDecision f 0).1.group 0).sentStep = some 5 := by decide

/-- 9.8: the silence deadline at 600 ms; the pulse at 1611 ms that regains the leader; the zero mark at 2213 ms. -/
theorem test_loss_of_9_8 :
    let w := { Sweep.reset with sync := .following, role := .follow, number := 2990, ms := 600, silence := some 600 }
    let t := (after (exec .syncSilenceExpiry (sweeping w))).part
    t.swp.sync = .freewheel ∧ t.swp.number = 2991 ∧ t.swp.nextDue = some 800 ∧
      t.rep.attention = Flag.trainSync.mask := by decide +kernel
theorem test_pulses_of_9_8 :
    let at_ (us start : Word) (sync : SyncState) (number : Nat) (last : Word) : Sweep :=
      { Sweep.reset with us := us, ms := us / 1000#32, role := .follow, sync := sync, number := number
                         pulseStart := some start, last := some { us := last, ms := last / 1000#32 } }
    let regained := (after (exec .tsyncTrailingEdge (sweeping (at_ 1611000 1610000 .freewheel 2996 1600000)))).part
    let zeroMark := (after (exec .tsyncTrailingEdge (sweeping (at_ 2213000 2210000 .following 2998 2011000)))).part
    regained.swp.sync = .following ∧ regained.swp.number = 2996 ∧ regained.swp.nextDue = none ∧
      regained.rep.attention = Flag.trainSync.mask ∧ zeroMark.swp.number = 1 ∧
      zeroMark.swp.last = some { us := 2213000, ms := 2213 } := by decide +kernel

/-- Chapter 11: a request of copy A begins a switch that pins it, and its full write shows the pin. -/
theorem test_boundary_operation_begins_a_switch :
    let bus : Bus := { host := signature.host ++ [(0x58 + 1, 2), (0x60, 1)] }
    let t := (after (exec (.boundaryOperation bus) atBoundary)).part
    t.ed.notices.switch = some toNotices ∧ t.ed.notices.pinsA = 1 ∧ t.ed.seq = 1 ∧ t.ed.boundary = false ∧
      Memory.read t.mem 0x62 = 1 ∧ Memory.read t.mem 0x60 = 1 ∧ Memory.read t.mem 4 = 1 := by decide +kernel

theorem test_switch_completes :
    let t := (after (exec (.switchCompletion .noticeTable emptyNotices) noticeSwitch)).part
    t.ed.notices.live = some .a ∧ t.ed.notices.liveEdition = 9 ∧ t.ed.notices.result = .done ∧
      t.ed.notices.pinsA = 0 ∧ t.ntc.told = 1 ∧ t.rep.attention = Flag.switchDone.mask := by decide +kernel

/-- Registers: a write to CONTROL with RUN, from reset, makes boundary 1 at once. -/
theorem test_run_set_from_reset :
    let t := (after (exec (.runSet 1) State.reset)).part
    t.regs.run = true ∧ t.ed.boundary = true ∧ t.swp.number = 1 ∧ t.swp.nextDue = some 200 ∧ t.rep.boundaries = 1 := by
  decide +kernel

/-- 8.9: a LOAD to a door panel at 2 Mbit/s takes 28.20 ms. -/
theorem test_load_time_of_8_9 : sendingTime 2 (frameOf 3 0x01 (0 :: List.replicate 5120 0)).length = 28199 := by
  decide +kernel

/-- 2.12: the diverted list keeps leg 1, and arms for it. -/
theorem test_remap_of_2_12 :
    let s := onLeg2 (.running 1) 64200000 (fun t =>
      { t with view := [stop 1100 0 57000, stop 1210 2 88000, stop 1288 3 31000, stop 1420 4 0] })
    let t := s.part.remap view4
    t.trk.phase = .running 1 ∧ t.odo.legDistance = 64200000 ∧ t.odo.marks.map (·.distance) = [86000000, 88500000] ∧
      t.res.journeys.map (·.cause) = [.remap] := by decide +kernel

/-- 5.8: the distance plan of leg 0, and the list at DOORS in 3030. -/
theorem test_plan_of_5_8 :
    let defs := [{ notice 11 .distance 5000 5 0 1 with filter := .divideAhead }, notice 21 .distance 1500 3 0 0]
    let view := [stop 3000 0 42000, { stop 3030 1 35000 with divide := true }, stop 3090 2 20000, stop 3120 3 0]
    (planFor defs view 0 []).map (fun t => (t.id, t.distance)) = [(11, 37000000), (21, 40500000)] ∧
    (planFor defs view 1 []).map (fun t => (t.id, t.distance)) = [(21, 33500000)] := by decide +kernel

end Sys2Proof.Tests
end
end

section
/-! PROOF. The odometer (chapter 1): what each of its operations does, said once; the statements O11 to O18, and O4. -/

namespace Sys2Proof.Machine

/-- The answer of a command whose effect on the part is known. -/
theorem exec_next {c : Instr} {s : State} {q : Part} (f : Part → Part) (hc : exec c s = s.onPart f)
    (h : f s.part = q) : exec c s = .next { s with part := q } := by
  rw [hc, State.onPart, h]

/-! ### The motion detector (R12) -/

/-- R12 as one update: the sample is the speed value, and a change of state clears both runs. -/
theorem Odometer.takeSample_eq (o : Odometer) (v : Nat) :
    o.takeSample v = { o with
      speed := v
      motion := motionAfter o.motionParams o.motion (countSample o.motionParams v o.movingRun o.stillRun)
      movingRun :=
        if motionAfter o.motionParams o.motion (countSample o.motionParams v o.movingRun o.stillRun) = o.motion
        then (countSample o.motionParams v o.movingRun o.stillRun).1 else 0
      stillRun :=
        if motionAfter o.motionParams o.motion (countSample o.motionParams v o.movingRun o.stillRun) = o.motion
        then (countSample o.motionParams v o.movingRun o.stillRun).2 else 0 } := by
  unfold Odometer.takeSample
  dsimp only
  split
  · next same => simp only [same]
  · rfl

/-- A sample that leaves the motion state counts. -/
theorem Odometer.takeSample_counts {o : Odometer} {v : Nat} {runs : Nat × Nat}
    (hr : countSample o.motionParams v o.movingRun o.stillRun = runs)
    (ha : motionAfter o.motionParams o.motion runs = o.motion) :
    o.takeSample v = { o with speed := v, movingRun := runs.1, stillRun := runs.2 } := by
  subst hr
  exact if_pos ha

/-- A sample that changes the motion state clears both runs. -/
theorem Odometer.takeSample_changes {o : Odometer} {v : Nat} {runs : Nat × Nat} {m : Motion}
    (hr : countSample o.motionParams v o.movingRun o.stillRun = runs)
    (ha : motionAfter o.motionParams o.motion runs = m) (hm : m ≠ o.motion) :
    o.takeSample v = { o with speed := v, motion := m, movingRun := 0, stillRun := 0 } := by
  subst hr
  subst ha
  exact if_neg hm

/-- The runs after a sample, each by itself. -/
theorem countSample_eq (m : MotionParams) (v movingRun stillRun : Nat) :
    countSample m v movingRun stillRun =
      (if m.vMove ≤ v then min (movingRun + 1) 31 else 0,
        if m.vMove ≤ v then 0 else if v < m.vStop then min (stillRun + 1) 7 else 0) := by
  unfold countSample
  by_cases hm : m.vMove ≤ v
  · simp only [if_pos hm]
  · simp only [if_neg hm]
    split <;> rfl

/-- Settles O14: in STILL the moving run decides, in MOVING the still run. -/
theorem motionDetectorCounts : Obligations.MotionDetectorCounts := by
  intro o v m moving still
  have hr := countSample_eq o.motionParams v o.movingRun o.stillRun
  refine ⟨fun hs hn => ?_, fun hs hn => ?_, fun hs hn => ?_, fun hs hn => ?_⟩
  · exact Odometer.takeSample_changes hr (by rw [hs]; exact if_pos hn) (by rw [hs]; decide)
  · exact Odometer.takeSample_counts hr (by rw [hs]; exact if_neg (Nat.not_le.mpr hn))
  · exact Odometer.takeSample_changes hr (by rw [hs]; exact if_pos hn) (by rw [hs]; decide)
  · exact Odometer.takeSample_counts hr (by rw [hs]; exact if_neg (Nat.not_le.mpr hn))

/-- R13 as one update: the tracker is told of a motion state other than the one before. -/
theorem Part.reportMotion_eq (p : Part) (before : Motion) :
    p.reportMotion before = { p with trk := { p.trk with
      motionIn := p.trk.motionIn ++ if p.odo.motion = before then [] else [p.odo.motion] } } := by
  unfold Part.reportMotion
  split
  · simp only [List.append_nil]
  · rfl

/-! ### Silence and doors (R11, R14) -/

/-- R11 at the deadline. -/
theorem Part.takeSilence_reached {p : Part} {d : Word} (hd : p.odo.silence = some d)
    (hr : reached p.swp.ms d = true) :
    p.takeSilence = Part.reportMotion { p with odo := p.odo.silenceSample p.swp.ms } p.odo.motion := by
  unfold Part.takeSilence
  rw [hd]
  exact if_pos hr

/-- The level of DOOR that matches the door state. -/
theorem Door.level_eq (d : Door) : d.level = decide (d = .released) := by cases d <;> rfl

/-- The other door state, as a condition. -/
theorem Door.other_eq (d : Door) : d.other = if d = .released then .locked else .released := by cases d <;> rfl

/-- A change of the door state is one. -/
theorem Door.other_ne (d : Door) : d.other ≠ d := by cases d <;> decide

/-- R14: a level that matches the door state clears the run. -/
theorem Odometer.doorSample_same {o : Odometer} {level : Bool} (h : level = o.door.level) :
    o.doorSample level = { o with doorRun := 0 } := if_pos h

/-- R14: another level counts while the run is below N_door. -/
theorem Odometer.doorSample_counts {o : Odometer} {level : Bool} (h : level ≠ o.door.level)
    (hn : o.doorRun + 1 < o.motionParams.nDoor) : o.doorSample level = { o with doorRun := o.doorRun + 1 } := by
  unfold Odometer.doorSample
  rw [if_neg h, if_neg (Nat.not_le.mpr hn)]

/-- R14: another level changes the door state when the run reaches N_door. -/
theorem Odometer.doorSample_changes {o : Odometer} {level : Bool} (h : level ≠ o.door.level)
    (hn : o.motionParams.nDoor ≤ o.doorRun + 1) :
    o.doorSample level = { o with door := o.door.other, doorRun := 0 } := by
  unfold Odometer.doorSample
  rw [if_neg h, if_pos hn]

/-- R14: a sample that leaves the door state tells the tracker nothing. -/
theorem Part.takeDoorSample_quiet {p : Part} {level : Bool} (h : (p.odo.doorSample level).door = p.odo.door) :
    p.takeDoorSample level = { p with
      odo := { p.odo.doorSample level with doorStepDue := false }, pins := { p.pins with door := level } } :=
  if_pos h

/-- R14: a sample that changes the door state is sent to the tracker. -/
theorem Part.takeDoorSample_tells {p : Part} {level : Bool} (h : (p.odo.doorSample level).door ≠ p.odo.door) :
    p.takeDoorSample level = { p with
      odo := { p.odo.doorSample level with doorStepDue := false }, pins := { p.pins with door := level }
      trk := { p.trk with doorIn := p.trk.doorIn ++ [(p.odo.doorSample level).door] } } :=
  if_neg h

/-- Settles O15: the silence sample at its deadline, and the three cases of a door sample. -/
theorem silenceAndDoorSamples : Obligations.SilenceAndDoorSamples := by
  refine ⟨fun s d hd hr => ⟨?_, ?_⟩, fun s level => ?_⟩
  · exact exec_next (·.takeSilence) rfl ((Part.takeSilence_reached hd hr).trans (Part.reportMotion_eq _ _))
  · show (s.part.odo.takeSample 0).speed = 0
    rw [Odometer.takeSample_eq]
  · have hlevel := Door.level_eq s.part.odo.door
    refine ⟨fun h => exec_next (·.takeDoorSample level) rfl ?_,
      fun h hn => exec_next (·.takeDoorSample level) rfl ?_,
      fun h hn => exec_next (·.takeDoorSample level) rfl ?_⟩
    · have hs := Odometer.doorSample_same (h.trans hlevel.symm)
      rw [Part.takeDoorSample_quiet (by rw [hs]), hs]
    · have hs := Odometer.doorSample_counts (hlevel ▸ h) hn
      rw [Part.takeDoorSample_quiet (by rw [hs]), hs]
    · have hs := Odometer.doorSample_changes (hlevel ▸ h) hn
      rw [Part.takeDoorSample_tells (by rw [hs]; exact Door.other_ne _), hs, Door.other_eq]

/-! ### Requests (R8, R9, R15, R17, R18) -/

/-- An owner has no mark among some exactly where none of them is the owner's. -/
theorem marksOf_isEmpty (ms : List Mark) (o : Owner) :
    (marksOf ms o).isEmpty = true ↔ ¬ ms.any (fun m => decide (m.tag.owner = o)) = true := by
  simp [marksOf]

/-- R18: the clear notice to an owner, by whether it had a mark. -/
theorem clearNotice_ite {α : Type} (ms : List Mark) (o : Owner) (x : α) :
    (if (marksOf ms o).isEmpty then [] else [x])
      = if ms.any (fun m => decide (m.tag.owner = o)) then [x] else [] := by
  simp only [marksOf_isEmpty, ite_not]

/-- R18: who is sent a clear notice, by the marks removed. -/
theorem Part.sendClearNotices_eq (p : Part) (dropped : List Mark) :
    p.sendClearNotices dropped = { p with
      trk := { p.trk with inbox :=
        p.trk.inbox ++ (if dropped.any (fun m => decide (m.tag.owner = .tracker)) then [.cleared] else []) }
      ntc := { p.ntc with inbox :=
        p.ntc.inbox ++ (if dropped.any (fun m => decide (m.tag.owner = .notices)) then [.cleared] else []) } } := by
  unfold Part.sendClearNotices
  rw [clearNotice_ite, clearNotice_ite]

/-- R8: a pending P becomes the working P at a set. -/
theorem Odometer.applyPendingP_eq (o : Odometer) :
    o.applyPendingP = if o.pendingP.isSome then o.pendingP else o.workingP := by
  unfold Odometer.applyPendingP
  cases o.pendingP <;> rfl

/-- A 32-bit amount is within the limit of Leg Distance. -/
theorem min_legDistanceMax (mm : Word) : min mm.toNat legDistanceMax = mm.toNat :=
  Nat.min_eq_left (Nat.le_of_lt_succ mm.isLt)

/-- Subtraction floors at 0 (R9). -/
theorem sub_floor (a b : Nat) : a - b = if a < b then 0 else a - b := by
  split <;> omega

/-- Settles O16: both requests empty the Mark Set and then send the clear notices of R18. -/
theorem setAndReduceDropMarks : Obligations.SetAndReduceDropMarks := by
  refine ⟨fun s mm => ?_, fun s mm => ?_⟩
  · refine exec_next (·.setLeg mm.toNat) rfl ?_
    unfold Part.setLeg
    rw [Part.sendClearNotices_eq, min_legDistanceMax, Odometer.applyPendingP_eq]
  · refine exec_next (·.reduceLeg mm.toNat) rfl ?_
    unfold Part.reduceLeg
    rw [Part.sendClearNotices_eq, ← sub_floor]

/-- The share of an owner, as R15 states it. -/
theorem markShare_eq (o : Owner) : markShare o = if o = .tracker then 2 else 6 := by cases o <;> rfl

/-- R18: the tracker takes a clear notice. -/
theorem Part.takeClearNotice_tracker {p : Part} {rest : List OdoEvent} (h : p.trk.inbox = .cleared :: rest) :
    p.takeClearNotice .tracker = { p with trk := { p.trk with inbox := rest } } := by
  simp only [Part.takeClearNotice, h]

/-- R18: the notice scheduler takes a clear notice. -/
theorem Part.takeClearNotice_notices {p : Part} {rest : List NoticeEvent} (h : p.ntc.inbox = .cleared :: rest) :
    p.takeClearNotice .notices = { p with ntc := { p.ntc with inbox := rest } } := by
  simp only [Part.takeClearNotice, h]

/-- Settles O17: an arm request fires or enters, a clear request filters, a clear notice is only taken. -/
theorem armAndClearRequests : Obligations.ArmAndClearRequests := by
  refine ⟨fun s mm g id => ⟨fun hle => ⟨?_, ?_⟩, fun tag hlt hshare => ?_⟩, fun s o => rfl,
    fun s rest restN => ⟨fun h => ?_, fun h => ?_⟩⟩
  · intro tag htag
    refine exec_next (·.armMark tag mm.toNat) rfl ((Part.armMark_fires _ tag _ hle).trans ?_)
    rcases htag with rfl | rfl <;> rfl
  · exact exec_next (·.armMark (.notice id g) mm.toNat) rfl (Part.armMark_fires _ _ _ hle)
  · exact exec_next (·.armMark tag mm.toNat) rfl
      (Part.armMark_enters _ tag _ hlt (markShare_eq tag.owner ▸ hshare))
  · exact exec_next (·.takeClearNotice .tracker) rfl (Part.takeClearNotice_tracker h)
  · exact exec_next (·.takeClearNotice .notices) rfl (Part.takeClearNotice_notices h)

/-! ### Coach-profile load (R4) -/

/-- R4: the profile at the front is loaded. -/
theorem Part.odometerProfile_cons {p : Part} {f : Profile} {rest : List Profile} (h : p.odo.profiles = f :: rest) :
    p.odometerProfile = { p with odo := { p.odo.load f p.swp.ms with profiles := rest } } := by
  simp only [Part.odometerProfile, h]

/-- R4: a load in DORMANT mode is the first. -/
theorem Odometer.load_first {o : Odometer} (h : o.wheel = none) (f : Profile) (ms : Word) :
    o.load f ms = o.firstLoad f ms := by
  simp only [Odometer.load, h]

/-- R4: a load in ACTIVE mode is a later one. -/
theorem Odometer.load_later {o : Odometer} {w : WheelParams} (h : o.wheel = some w) (f : Profile) (ms : Word) :
    o.load f ms = o.laterLoad w f := by
  simp only [Odometer.load, h]

/-- R4: the motion runs are cleared where one of the four values that the runs rest on changes. -/
theorem motionParams_ne_iff (m n : MotionParams) :
    { n with nDoor := m.nDoor } ≠ m ↔
      n.vMove ≠ m.vMove ∨ n.vStop ≠ m.vStop ∨ n.nMove ≠ m.nMove ∨ n.nStill ≠ m.nStill := by
  cases m
  simp only [ne_eq, MotionParams.mk.injEq, and_true]
  tauto

/-- R4: a later load, its comparisons as propositions. -/
theorem Odometer.laterLoad_eq (o : Odometer) (w : WheelParams) (f : Profile) :
    o.laterLoad w f = { o with
      wheel := some f.wheel, motionParams := f.motion
      edgeCount := if f.wheel.rising ≠ w.rising ∨ f.wheel.d ≠ w.d then 0 else o.edgeCount
      speedRef := if f.wheel.rising ≠ w.rising ∨ f.wheel.d ≠ w.d then none else o.speedRef
      pendingP := if o.workingP = some f.wheel.p then none else some f.wheel.p
      movingRun := if { f.motion with nDoor := o.motionParams.nDoor } ≠ o.motionParams then 0 else o.movingRun
      stillRun := if { f.motion with nDoor := o.motionParams.nDoor } ≠ o.motionParams then 0 else o.stillRun
      doorRun := if f.motion.nDoor = o.motionParams.nDoor then o.doorRun else 0 } := by
  unfold Odometer.laterLoad pendingAfter
  simp only [Bool.or_eq_true, decide_eq_true_eq]

/-- Settles O18: the first load sets all, a later one compares with the values in force. -/
theorem profileLoadAtOdometer : Obligations.ProfileLoadAtOdometer := by
  intro s f rest hp
  refine ⟨fun h => ?_, fun w h => ?_⟩
  · refine exec_next (·.odometerProfile) rfl ((Part.odometerProfile_cons hp).trans ?_)
    rw [Odometer.load_first h]
    rfl
  · refine exec_next (·.odometerProfile) rfl ((Part.odometerProfile_cons hp).trans ?_)
    rw [Odometer.load_later h, Odometer.laterLoad_eq]
    simp only [motionParams_ne_iff]

/-! ### Edges and captures (R5, R6, R7, R10, R16) -/

/-- R5: in DORMANT mode an edge is lost. -/
theorem Part.takeEdge_dormant {p : Part} (rising : Bool) (h : p.odo.wheel = none) :
    p.takeEdge rising = { p with pins := { p.pins with wheel := rising } } := by
  simp only [Part.takeEdge, h]

/-- R5: an edge of the other direction does not count. -/
theorem Part.takeEdge_other {p : Part} {w : WheelParams} {rising : Bool} (hw : p.odo.wheel = some w)
    (hr : rising ≠ w.rising) : p.takeEdge rising = { p with pins := { p.pins with wheel := rising } } := by
  simp only [Part.takeEdge, hw, if_neg hr]

/-- R5: an active edge before the D-th counts. -/
theorem Part.takeEdge_counts {p : Part} {w : WheelParams} (hw : p.odo.wheel = some w)
    (hd : p.odo.edgeCount + 1 < w.d) :
    p.takeEdge w.rising = { p with
      pins := { p.pins with wheel := w.rising }, odo := { p.odo with edgeCount := p.odo.edgeCount + 1 } } := by
  simp only [Part.takeEdge, hw, if_true, if_neg (Nat.not_le.mpr hd)]

/-- R5: the D-th active edge is a capture. -/
theorem Part.takeEdge_captures {p : Part} {w : WheelParams} (hw : p.odo.wheel = some w)
    (hd : w.d ≤ p.odo.edgeCount + 1) :
    p.takeEdge w.rising = Part.takeCapture { p with pins := { p.pins with wheel := w.rising } } := by
  simp only [Part.takeEdge, hw, if_true, if_pos hd]

/-- CAPTURE is the D-th active edge. -/
theorem Part.captureEdge_due {p : Part} {w : WheelParams} (hw : p.odo.wheel = some w)
    (hd : w.d ≤ p.odo.edgeCount + 1) : p.captureEdge = p.takeEdge w.rising := by
  simp only [Part.captureEdge, Odometer.captureDue, hw, decide_eq_true_eq, if_pos hd]

/-- Settles O11: DORMANT mode, the other direction, an edge that counts and the D-th. -/
theorem wheelEdgeCountsActiveEdges : Obligations.WheelEdgeCountsActiveEdges := by
  intro s rising
  refine ⟨fun h => exec_next (·.takeEdge rising) rfl (Part.takeEdge_dormant rising h), fun w hw =>
    ⟨fun hr => exec_next (·.takeEdge rising) rfl (Part.takeEdge_other hw hr), fun hr hd => ?_, fun hr hd => ?_⟩⟩
  · subst hr
    exact exec_next (·.takeEdge w.rising) rfl (Part.takeEdge_counts hw hd)
  · subst hr
    exact exec_next (·.takeEdge w.rising) rfl (Part.captureEdge_due hw hd).symm

/-- The odometer after the speed sample of a capture: none is taken while the speed reference is absent (R10). -/
def Odometer.sampled (o : Odometer) (w : WheelParams) (us : Word) : Odometer :=
  match captureSample w (o.workingP.getD w.p) o.speedRef us with
  | none => o
  | some v => o.takeSample v

/-- A capture: distance and marks on the one hand, the speed sample on the other, do not meet. -/
theorem Odometer.afterCapture_eq (o : Odometer) (w : WheelParams) (us ms : Word) :
    o.afterCapture w us ms = { o with
      edgeCount := 0
      legDistance := (advance w (o.workingP.getD w.p) o.acc o.legDistance).1
      acc := (advance w (o.workingP.getD w.p) o.acc o.legDistance).2
      silence := some (ms + 500#32)
      marks := keptMarks o.marks (advance w (o.workingP.getD w.p) o.acc o.legDistance).1
      speedRef := some us
      speed := (o.sampled w us).speed
      motion := (o.sampled w us).motion
      movingRun := (o.sampled w us).movingRun
      stillRun := (o.sampled w us).stillRun } := by
  cases h : captureSample w (o.workingP.getD w.p) o.speedRef us with
  | none => simp only [Odometer.afterCapture, Odometer.sampled, h]
  | some v =>
    simp only [Odometer.afterCapture, Odometer.sampled, h]
    rw [Odometer.takeSample_eq, Odometer.takeSample_eq]

/-- A capture at the part: the odometer's own state, what it hands the tracker and the notice scheduler. -/
theorem Part.captureEdge_eq {p : Part} {w : WheelParams} (hw : p.odo.wheel = some w)
    (hd : w.d ≤ p.odo.edgeCount + 1) :
    let odo := p.odo.afterCapture w p.swp.us p.swp.ms
    let fired := firedMarks p.free p.odo.marks odo.legDistance
    p.captureEdge = { p with
      pins := { p.pins with wheel := w.rising }
      odo := odo
      trk := { p.trk with
        inbox := p.trk.inbox ++ (.advanced odo.legDistance :: trackerMarks fired)
        motionIn := p.trk.motionIn ++ (if odo.motion = p.odo.motion then [] else [odo.motion]) }
      ntc := { p.ntc with inbox := p.ntc.inbox ++ noticeMarks fired }
      free := p.free + 1 } := by
  intro odo fired
  rw [Part.captureEdge_due hw hd, Part.takeEdge_captures hw hd]
  simp only [Part.takeCapture, hw]
  rw [Part.reportMotion_eq]

/-- Settles O12: what a capture leaves, its distance and marks, and its speed sample. -/
theorem captureUpdatesDistanceAndSpeed : Obligations.CaptureUpdatesDistanceAndSpeed := by
  refine ⟨fun s w p hw hp hd => ?_, fun s w p hw hp hd => ?_⟩
  · have hc := Part.captureEdge_eq hw hd
    have hadvance : advance w (s.part.odo.workingP.getD w.p) s.part.odo.acc s.part.odo.legDistance
        = (min (s.part.odo.legDistance + (s.part.odo.acc + w.d * w.c) / p) 4294967295,
          (s.part.odo.acc + w.d * w.c) % p) := by
      rw [hp]; rfl
    dsimp only at hc
    rw [Odometer.afterCapture_eq, hadvance] at hc
    refine ⟨_, exec_next (·.captureEdge) rfl hc, rfl, rfl, rfl, rfl, rfl, rfl, rfl, rfl, rfl, rfl, rfl⟩
  · have hc := Part.captureEdge_eq hw hd
    dsimp only at hc
    rw [Odometer.afterCapture_eq] at hc
    refine ⟨_, exec_next (·.captureEdge) rfl hc, fun hr => ?_, fun r hr => ?_, rfl⟩
    · have hs : s.part.odo.sampled w s.part.swp.us = s.part.odo := by
        simp only [Odometer.sampled, captureSample, hr]
      exact ⟨congrArg (·.speed) hs, congrArg (·.motion) hs, congrArg (·.movingRun) hs, congrArg (·.stillRun) hs⟩
    · intro v
      have hs : s.part.odo.sampled w s.part.swp.us = s.part.odo.takeSample v := by
        simp only [Odometer.sampled, captureSample, hr, hp]
        rfl
      refine ⟨?_, congrArg (fun o => (o.motion, o.movingRun, o.stillRun)) hs⟩
      refine (congrArg (·.speed) hs).trans ?_
      rw [Odometer.takeSample_eq]

/-! ### The order of fired marks (R16) -/

/-- Insertion keeps a list ordered by a relation that the comparison decides one way or the other. -/
theorem insertBy_pairwise {α : Type} {before : α → α → Bool} (R : α → α → Prop)
    (ht : ∀ x y z, R x y → R y z → R x z) (hb : ∀ x y, before x y = true → R x y)
    (hn : ∀ x y, before x y = false → R y x) (x : α) (xs : List α) (h : xs.Pairwise R) :
    (insertBy before x xs).Pairwise R := by
  induction xs with
  | nil => exact List.pairwise_singleton _ _
  | cons y ys ih =>
    obtain ⟨hy, hys⟩ := List.pairwise_cons.mp h
    unfold insertBy
    split
    · next hxy =>
      refine List.pairwise_cons.mpr ⟨fun z hz => ?_, h⟩
      rcases List.mem_cons.mp hz with rfl | hz
      · exact hb _ _ hxy
      · exact ht _ _ _ (hb _ _ hxy) (hy z hz)
    · next hxy =>
      refine List.pairwise_cons.mpr ⟨fun z hz => ?_, ih hys⟩
      rcases List.mem_cons.mp ((insertBy_perm before x ys).mem_iff.mp hz) with rfl | hz
      · exact hn _ _ (by simpa using hxy)
      · exact hy z hz

/-- The sort is ordered by such a relation. -/
theorem sortBy_pairwise {α : Type} {before : α → α → Bool} (R : α → α → Prop)
    (ht : ∀ x y z, R x y → R y z → R x z) (hb : ∀ x y, before x y = true → R x y)
    (hn : ∀ x y, before x y = false → R y x) (xs : List α) : (sortBy before xs).Pairwise R := by
  unfold sortBy
  suffices h : ∀ acc : List α, acc.Pairwise R → (xs.foldl (fun acc x => insertBy before x acc) acc).Pairwise R from
    h [] List.Pairwise.nil
  induction xs with
  | nil => exact fun _ h => h
  | cons x rest ih => exact fun acc h => ih _ (insertBy_pairwise R ht hb hn x acc h)

/-- Ranking the marks leaves them in their order. -/
theorem rankMarks_map (n i : Nat) (ms : List Mark) : (rankMarks n i ms).map (·.2) = ms := by
  induction ms generalizing i with
  | nil => rfl
  | cons m rest ih => rw [rankMarks, List.map_cons, ih]

/-- R16: the marks fired are those at or below the Leg Distance. -/
theorem firedMarks_perm (n : Nat) (ms : List Mark) (mm : Nat) :
    List.Perm (firedMarks n ms mm) (ms.filter (fun m => decide (m.distance ≤ mm))) := by
  have hp := (sortBy_perm markBefore (rankMarks n 0 ms)).map (·.2)
  rw [rankMarks_map] at hp
  exact hp.filter _

/-- R16: they are handed out in ascending order of distance. -/
theorem firedMarks_ascending (n : Nat) (ms : List Mark) (mm : Nat) :
    (firedMarks n ms mm).Pairwise (fun x y => x.distance ≤ y.distance) := by
  have hs : (sortBy markBefore (rankMarks n 0 ms)).Pairwise (fun x y => x.2.distance ≤ y.2.distance) := by
    refine sortBy_pairwise (fun (x y : Nat × Mark) => x.2.distance ≤ y.2.distance) (fun _ _ _ => Nat.le_trans)
      (fun x y h => ?_) (fun x y h => ?_) _
    · simp only [markBefore, Bool.or_eq_true, Bool.and_eq_true, decide_eq_true_eq] at h
      omega
    · simp only [markBefore, Bool.or_eq_false_iff, decide_eq_false_iff_not] at h
      omega
  exact List.Pairwise.filter _ (List.Pairwise.map _ (fun _ _ h => h) hs)

/-- Settles O13: the fired marks are `firedMarks`, which is sorted and holds what the new Leg Distance reaches. -/
theorem captureFiresReachedMarks : Obligations.CaptureFiresReachedMarks := by
  intro s w hw hd
  refine ⟨_, firedMarks s.part.free s.part.odo.marks _,
    exec_next (·.captureEdge) rfl (Part.captureEdge_eq hw hd),
    firedMarks_perm _ _ _, firedMarks_ascending _ _ _, rfl, rfl⟩

/-! ### Resets (R1, R190) -/

/-- R154: an idle line after a reset. -/
theorem LineCtl.afterReset_idle {c : LineCtl} (hx : c.exchange = none) (hq : c.quiet = none) :
    c.afterReset = LineCtl.reset := by
  simp only [LineCtl.afterReset, hx, hq, Option.isSome_none, Bool.or_false, Bool.false_eq_true, if_false]

/-- R154: an exchange cut off by a reset leaves its line in the quiet time. -/
theorem LineCtl.afterReset_quiet {c : LineCtl} (hx : c.exchange ≠ none) : c.afterReset.quiet = some 2000#32 := by
  have h : c.exchange.isSome = true := Option.isSome_iff_ne_none.mpr hx
  simp only [LineCtl.afterReset, h, Bool.true_or, if_true]
  rfl

/-- A line after a reset is as `LineCtl.reset` but for its quiet time. -/
theorem LineCtl.afterReset_eq (c : LineCtl) : c.afterReset = { LineCtl.reset with quiet := c.afterReset.quiet } := by
  unfold LineCtl.afterReset
  split <;> rfl

/-- The line controllers after power-on reset. -/
theorem Part.powerOn_line (p : Part) (l : Line) : p.powerOn.line l = (p.line l).afterReset := by cases l <;> rfl

/-- R193: the port after a reset waits for SSEL where it was selected. -/
theorem Port.afterReset_eq (x : Port) : x.afterReset =
    { selected := x.selected, awaitHigh := x.selected, bits := [], captured := none, sending := none } := rfl

/-- R190: power-on reset, each line up to its quiet time. -/
theorem Part.powerOn_eq (p : Part) : p.powerOn = { Part.reset with
    mem := p.mem, pins := p.pins, free := p.free
    spi := { selected := p.spi.selected, awaitHigh := p.spi.selected, bits := [], captured := none, sending := none }
    lineSeat := { LineCtl.reset with quiet := p.powerOn.lineSeat.quiet }
    lineEnd := { LineCtl.reset with quiet := p.powerOn.lineEnd.quiet }
    lineDoor := { LineCtl.reset with quiet := p.powerOn.lineDoor.quiet } } := by
  show ({ Part.reset with
    mem := p.mem, pins := p.pins, free := p.free, spi := p.spi.afterReset
    lineSeat := p.lineSeat.afterReset, lineEnd := p.lineEnd.afterReset, lineDoor := p.lineDoor.afterReset } : Part) = _
  rw [LineCtl.afterReset_eq p.lineSeat, LineCtl.afterReset_eq p.lineEnd, LineCtl.afterReset_eq p.lineDoor,
    Port.afterReset_eq]
  rfl

/-- ENGINE_RESET forces the RESET bit. -/
theorem getLsbD_setBit_one (v : Word) : (setBit v 1).getLsbD 1 = true := by
  simp [setBit]

/-- R185: a write to CONTROL with the RESET bit is the engine reset. -/
theorem Part.portWrite_reset (p : Part) (v : Word) :
    p.portWrite 1 (setBit v 1) = { p.engineReset with spi := Port.idle } := by
  rw [Part.portWrite_eq p (by decide)]
  simp only [Part.writeRegister, Part.writeControl, getLsbD_setBit_one, if_true]

/-- Settles O4: engine reset is power-on reset with the registers kept and the port idle. -/
theorem resetsLeaveStoppedPart : Obligations.ResetsLeaveStoppedPart := by
  intro s v
  refine ⟨⟨_, rfl, rfl, Part.powerOn_eq s.part, fun l hx hq => ?_, fun l hx => ?_⟩, _, _,
    exec_next (·.portWrite 1 (setBit v 1)) rfl (Part.portWrite_reset s.part v), rfl, rfl⟩
  · exact (Part.powerOn_line s.part l).trans (LineCtl.afterReset_idle hx hq)
  · exact (congrArg (·.quiet) (Part.powerOn_line s.part l)).trans (LineCtl.afterReset_quiet hx)

end Sys2Proof.Machine
end

section
/-! PROOF. The limits of O7: what each operation does to the odometer's limits (R7, R15) and to the composer's panels. -/

namespace Sys2Proof.Machine

/-! ### The limits as laws of one block -/

/-- R7, R15 of the odometer's own state. -/
def Odometer.limits (o : Odometer) : Prop :=
  o.legDistance ≤ legDistanceMax ∧ (marksOf o.marks .tracker).length ≤ markShare .tracker
    ∧ (marksOf o.marks .notices).length ≤ markShare .notices

/-- The odometer's law speaks of the odometer alone. -/
theorem Part.odometerLaw_iff (p : Part) : p.odometerLaw ↔ p.odo.limits := Iff.rfl

/-- Less or equal distance bound and fewer marks keep the limits. -/
theorem Odometer.limits_of_filter {o : Odometer} (h : o.limits) {mm : Nat} (hm : mm ≤ legDistanceMax)
    (test : Mark → Bool) {o' : Odometer} (hd : o'.legDistance = mm) (hms : o'.marks = o.marks.filter test) :
    o'.limits := by
  obtain ⟨-, htracker, hnotices⟩ := h
  unfold Odometer.limits
  rw [hd, hms]
  exact ⟨hm, (marksOf_filter_le _ _ _).trans htracker, (marksOf_filter_le _ _ _).trans hnotices⟩

/-- An empty Mark Set and a Leg Distance within 32 bits meet the limits. -/
theorem Odometer.limits_of_empty {o : Odometer} (hd : o.legDistance ≤ legDistanceMax) (hms : o.marks = []) :
    o.limits := by
  unfold Odometer.limits
  rw [hms]
  exact ⟨hd, Nat.zero_le _, Nat.zero_le _⟩

/-- The limits speak of Leg Distance and the Mark Set alone. -/
theorem Odometer.limits_congr {o o' : Odometer} (h : o.limits) (hd : o'.legDistance = o.legDistance)
    (hms : o'.marks = o.marks) : o'.limits := by
  unfold Odometer.limits
  rw [hd, hms]
  exact h

/-! ### The odometer's operations -/

theorem Odometer.afterCapture_limits {o : Odometer} (h : o.limits) (w : WheelParams) (us ms : Word) :
    (o.afterCapture w us ms).limits := by
  rw [Odometer.afterCapture_eq]
  exact Odometer.limits_of_filter h (Nat.min_le_right _ _) _ rfl rfl

theorem Odometer.takeSample_limits {o : Odometer} (h : o.limits) (v : Nat) : (o.takeSample v).limits := by
  rw [Odometer.takeSample_eq]
  exact Odometer.limits_congr h rfl rfl

theorem Part.takeCapture_limits {p : Part} (h : p.odo.limits) : p.takeCapture.odo.limits := by
  unfold Part.takeCapture
  split
  · exact h
  · rw [Part.reportMotion_eq]
    exact Odometer.afterCapture_limits h _ _ _

theorem Part.takeEdge_limits {p : Part} (h : p.odo.limits) (rising : Bool) : (p.takeEdge rising).odo.limits := by
  cases hw : p.odo.wheel with
  | none => rw [Part.takeEdge_dormant rising hw]; exact h
  | some w =>
    by_cases hr : rising = w.rising
    · subst hr
      rcases Nat.lt_or_ge (p.odo.edgeCount + 1) w.d with hd | hd
      · rw [Part.takeEdge_counts hw hd]; exact h
      · rw [Part.takeEdge_captures hw hd]; exact Part.takeCapture_limits h
    · rw [Part.takeEdge_other hw hr]; exact h

theorem Part.captureEdge_limits {p : Part} (h : p.odo.limits) : p.captureEdge.odo.limits := by
  unfold Part.captureEdge
  split
  · exact h
  · split
    · exact Part.takeEdge_limits h _
    · exact h

theorem Part.takeSilence_limits {p : Part} (h : p.odo.limits) : p.takeSilence.odo.limits := by
  unfold Part.takeSilence
  split
  · rw [Part.reportMotion_eq]
    exact Odometer.takeSample_limits h 0
  · exact h

theorem Odometer.doorSample_limits {o : Odometer} (h : o.limits) (level : Bool) : (o.doorSample level).limits := by
  unfold Odometer.doorSample
  split
  · exact h
  · split <;> exact h

theorem Part.takeDoorSample_limits {p : Part} (h : p.odo.limits) (level : Bool) :
    (p.takeDoorSample level).odo.limits := by
  by_cases hd : (p.odo.doorSample level).door = p.odo.door
  · rw [Part.takeDoorSample_quiet hd]; exact Odometer.doorSample_limits h level
  · rw [Part.takeDoorSample_tells hd]; exact Odometer.doorSample_limits h level

theorem Odometer.load_limits {o : Odometer} (h : o.limits) (f : Profile) (ms : Word) : (o.load f ms).limits := by
  unfold Odometer.load
  split <;> exact h

theorem Part.odometerProfile_limits {p : Part} (h : p.odo.limits) : p.odometerProfile.odo.limits := by
  unfold Part.odometerProfile
  split
  · exact h
  · exact Odometer.load_limits h _ _

/-- R8: a set empties the Mark Set, whatever stood before. -/
@[simp] theorem Part.setLeg_limits (p : Part) (mm : Nat) : (p.setLeg mm).odo.limits :=
  Odometer.limits_of_empty (Nat.min_le_right _ _) rfl

/-- R9: a reduction empties the Mark Set and does not raise Leg Distance. -/
@[simp] theorem Part.reduceLeg_limits {p : Part} (h : p.odo.limits) (mm : Nat) : (p.reduceLeg mm).odo.limits :=
  Odometer.limits_of_empty ((Nat.sub_le _ _).trans h.1) rfl

@[simp] theorem Part.armMark_limits {p : Part} (h : p.odo.limits) (tag : MarkTag) (mm : Nat) :
    (p.armMark tag mm).odo.limits := Part.armMark_odometerLaw h tag mm

@[simp] theorem Part.clearOwner_limits {p : Part} (h : p.odo.limits) (o : Owner) : (p.clearOwner o).odo.limits :=
  Part.clearOwner_odometerLaw h o

theorem Part.tick_limits {p : Part} (h : p.odo.limits) : p.tick.odo.limits := by
  unfold Part.tick Odometer.tickMs
  dsimp only
  split
  · split <;> exact h
  · exact h

/-! ### The tracker's operations

Each leaves the composer's panels, since what it hands the composer is an event, and keeps the odometer's limits, since
it reaches the odometer by the requests of R8, R9, R15 and R17 alone. -/

@[simp] theorem Part.publish_panels (p : Part) (cause : Cause) (code : Option Nat) :
    (p.publish cause code).cmp.panels = p.cmp.panels := rfl

@[simp] theorem Part.sendProgress_limits (p : Part) :
    p.sendProgress.cmp.panels = p.cmp.panels ∧ (p.odo.limits → p.sendProgress.odo.limits) := ⟨rfl, id⟩

@[simp] theorem Part.dropMarks_limits {p : Part} (h : p.odo.limits) : p.dropMarks.odo.limits :=
  Part.clearOwner_limits h .tracker

@[simp] theorem Part.armForLeg_limits {p : Part} (h : p.odo.limits) (k : Nat) : (p.armForLeg k).odo.limits := by
  unfold Part.armForLeg
  dsimp only
  refine Part.armMark_limits (Part.armMark_limits ?_ _ _) _ _
  exact Part.clearOwner_limits h .tracker

@[simp] theorem Part.depart_limits (p : Part) (k : Nat) :
    (p.depart k).cmp.panels = p.cmp.panels ∧ (p.odo.limits → (p.depart k).odo.limits) := by
  unfold Part.depart
  split <;> simp +contextual

@[simp] theorem Part.confirm_limits (p : Part) (k : Nat) :
    (p.confirm k).cmp.panels = p.cmp.panels ∧ (p.odo.limits → (p.confirm k).odo.limits) := by
  unfold Part.confirm
  simp

@[simp] theorem Part.enterDoubt_panels (p : Part) (k : Nat) : (p.enterDoubt k).cmp.panels = p.cmp.panels := by
  simp [Part.enterDoubt]

@[simp] theorem Part.enterHalted_panels (p : Part) (k : Nat) : (p.enterHalted k).cmp.panels = p.cmp.panels := by
  simp [Part.enterHalted]

@[simp] theorem Part.passStop_limits (p : Part) (k : Nat) :
    (p.passStop k).cmp.panels = p.cmp.panels ∧ (p.odo.limits → (p.passStop k).odo.limits) := by
  unfold Part.passStop
  simp +contextual

@[simp] theorem Part.overrun_limits (p : Part) (k : Nat) :
    (p.overrun k).cmp.panels = p.cmp.panels ∧ (p.odo.limits → (p.overrun k).odo.limits) := by
  unfold Part.overrun
  simp +contextual

@[simp] theorem Part.passOrOverrun_limits (p : Part) (k : Nat) :
    (p.passOrOverrun k).cmp.panels = p.cmp.panels ∧ (p.odo.limits → (p.passOrOverrun k).odo.limits) := by
  unfold Part.passOrOverrun
  split <;> simp +contextual

@[simp] theorem Part.takePassDue_limits (p : Part) (k : Nat) :
    (p.takePassDue k).cmp.panels = p.cmp.panels ∧ (p.odo.limits → (p.takePassDue k).odo.limits) := by
  unfold Part.takePassDue
  simp +contextual

@[simp] theorem Part.resume_limits (p : Part) (k : Nat) :
    (p.resume k).cmp.panels = p.cmp.panels ∧ (p.odo.limits → (p.resume k).odo.limits) := by
  unfold Part.resume
  split <;> simp +contextual

@[simp] theorem Part.motionOnLeg_limits (p : Part) (k : Nat) :
    (p.motionOnLeg k).cmp.panels = p.cmp.panels ∧ (p.odo.limits → (p.motionOnLeg k).odo.limits) := by
  unfold Part.motionOnLeg
  split
  · split
    · simp
    · split <;> simp
  · split <;> simp +contextual

@[simp] theorem Part.testDeparture_limits (p : Part) (k : Nat) :
    (p.testDeparture k).cmp.panels = p.cmp.panels ∧ (p.odo.limits → (p.testDeparture k).odo.limits) := by
  unfold Part.testDeparture
  split <;> simp +contextual

@[simp] theorem Part.judgeMotion_limits (p : Part) :
    p.judgeMotion.cmp.panels = p.cmp.panels ∧ (p.odo.limits → p.judgeMotion.odo.limits) := by
  unfold Part.judgeMotion
  split <;> (repeat' split) <;> simp +contextual

@[simp] theorem Part.doorOnLeg_panels (p : Part) (k : Nat) : (p.doorOnLeg k).cmp.panels = p.cmp.panels := by
  unfold Part.doorOnLeg
  split <;> simp

@[simp] theorem Part.judgeDoor_limits (p : Part) :
    p.judgeDoor.cmp.panels = p.cmp.panels ∧ (p.odo.limits → p.judgeDoor.odo.limits) := by
  unfold Part.judgeDoor
  split <;> (repeat' split) <;> simp +contextual

@[simp] theorem Part.takeMotionChange_limits (p : Part) :
    p.takeMotionChange.cmp.panels = p.cmp.panels ∧ (p.odo.limits → p.takeMotionChange.odo.limits) := by
  unfold Part.takeMotionChange
  split <;> simp +contextual

@[simp] theorem Part.takeDoorChange_limits (p : Part) :
    p.takeDoorChange.cmp.panels = p.cmp.panels ∧ (p.odo.limits → p.takeDoorChange.odo.limits) := by
  unfold Part.takeDoorChange
  split <;> simp +contextual

@[simp] theorem Part.judgeDistance_limits (p : Part) :
    p.judgeDistance.cmp.panels = p.cmp.panels ∧ (p.odo.limits → p.judgeDistance.odo.limits) := by
  unfold Part.judgeDistance
  split
  · simp
  · dsimp only
    split <;> simp +contextual

@[simp] theorem Part.takeDistanceAdvanced_limits (p : Part) :
    p.takeDistanceAdvanced.cmp.panels = p.cmp.panels ∧ (p.odo.limits → p.takeDistanceAdvanced.odo.limits) := by
  unfold Part.takeDistanceAdvanced
  split <;> simp +contextual

@[simp] theorem Part.takeApproach_panels (p : Part) : p.takeApproach.cmp.panels = p.cmp.panels := by
  unfold Part.takeApproach
  split <;> simp

@[simp] theorem Part.takePass_limits (p : Part) :
    p.takePass.cmp.panels = p.cmp.panels ∧ (p.odo.limits → p.takePass.odo.limits) := by
  unfold Part.takePass
  split <;> (repeat' split) <;> simp +contextual

@[simp] theorem Part.judgeMark_limits (p : Part) (tag : MarkTag) :
    (p.judgeMark tag).cmp.panels = p.cmp.panels ∧ (p.odo.limits → (p.judgeMark tag).odo.limits) := by
  unfold Part.judgeMark
  split <;> (repeat' split) <;> simp +contextual

@[simp] theorem Part.takeTrackerMark_limits (p : Part) :
    p.takeTrackerMark.cmp.panels = p.cmp.panels ∧ (p.odo.limits → p.takeTrackerMark.odo.limits) := by
  unfold Part.takeTrackerMark
  split <;> simp +contextual

@[simp] theorem Part.remapLost_limits (p : Part) :
    p.remapLost.cmp.panels = p.cmp.panels ∧ (p.odo.limits → p.remapLost.odo.limits) := by
  unfold Part.remapLost
  simp +contextual

@[simp] theorem Part.remapFound_limits (p : Part) (j : Nat) :
    (p.remapFound j).cmp.panels = p.cmp.panels ∧ (p.odo.limits → (p.remapFound j).odo.limits) := by
  unfold Part.remapFound
  split <;> (repeat' split) <;> simp +contextual

@[simp] theorem Part.remap_limits (p : Part) (old : List ServedStop) :
    (p.remap old).cmp.panels = p.cmp.panels ∧ (p.odo.limits → (p.remap old).odo.limits) := by
  unfold Part.remap
  (repeat' split) <;> simp +contextual

@[simp] theorem Part.rebuildAndRemap_limits (p : Part) :
    p.rebuildAndRemap.cmp.panels = p.cmp.panels ∧ (p.odo.limits → p.rebuildAndRemap.odo.limits) := by
  unfold Part.rebuildAndRemap
  simp +contextual

@[simp] theorem Part.applyTrackerProfile_limits (p : Part) (f : Profile) :
    (p.applyTrackerProfile f).cmp.panels = p.cmp.panels ∧
      (p.odo.limits → (p.applyTrackerProfile f).odo.limits) := by
  unfold Part.applyTrackerProfile
  dsimp only
  (repeat' split) <;> simp +contextual

@[simp] theorem Part.trackerProfile_limits (p : Part) :
    p.trackerProfile.cmp.panels = p.cmp.panels ∧ (p.odo.limits → p.trackerProfile.odo.limits) := by
  unfold Part.trackerProfile
  split <;> simp +contextual

@[simp] theorem Part.placeAtStop_limits (p : Part) (j : Nat) :
    (p.placeAtStop j).cmp.panels = p.cmp.panels ∧ (p.odo.limits → (p.placeAtStop j).odo.limits) := by
  unfold Part.placeAtStop
  simp +contextual

@[simp] theorem Part.placeInLeg_limits (p : Part) (j metres : Nat) :
    (p.placeInLeg j metres).cmp.panels = p.cmp.panels ∧ (p.odo.limits → (p.placeInLeg j metres).odo.limits) := by
  unfold Part.placeInLeg
  simp +contextual

@[simp] theorem Part.unplaceCoach_limits (p : Part) :
    p.unplaceCoach.cmp.panels = p.cmp.panels ∧ (p.odo.limits → p.unplaceCoach.odo.limits) := by
  unfold Part.unplaceCoach
  simp +contextual

end Sys2Proof.Machine
end

section
/-! PROOF. The limits of O7: the notice scheduler's active list (R95), and what its operations and the reservation
engine's do to the limits of the other blocks. -/

namespace Sys2Proof.Machine

/-! ### The active notice list (R95) -/

/-- R95 of an active list. -/
def activeLimits (active : List NoticeEntry) : Prop :=
  active.length ≤ activeLimit ∧ (active.map (·.id)).Nodup

/-- The scheduler's law speaks of the active list alone. -/
theorem Part.noticeLaw_iff (p : Part) : p.noticeLaw ↔ activeLimits p.ntc.active := Iff.rfl

theorem activeLimits_nil : activeLimits [] := ⟨Nat.zero_le _, List.nodup_nil⟩

/-- Fewer entries, in any order, keep the limits. -/
theorem activeLimits_of_subperm {xs ys : List NoticeEntry} (h : activeLimits ys)
    (hs : List.Subperm (xs.map (·.id)) (ys.map (·.id))) : activeLimits xs := by
  obtain ⟨ids, hperm, hsub⟩ := hs
  refine ⟨?_, hperm.nodup_iff.mp (h.2.sublist hsub)⟩
  have hl := hsub.length_le
  rw [hperm.length_eq, List.length_map, List.length_map] at hl
  exact hl.trans h.1

theorem activeLimits_filter {xs : List NoticeEntry} (h : activeLimits xs) (test : NoticeEntry → Bool) :
    activeLimits (xs.filter test) :=
  activeLimits_of_subperm h ((List.filter_sublist).map _).subperm

/-- R96: an entry of a new id enters a list with a place. -/
theorem activeLimits_insertEntry {xs : List NoticeEntry} (h : activeLimits xs) (hl : xs.length < activeLimit)
    (store : List NoticeDef) (d : NoticeDef) (hd : ∀ x ∈ xs, x.id ≠ d.id) :
    activeLimits (insertEntry store d xs) := by
  have hp : List.Perm (insertEntry store d xs) ({ id := d.id, phase := .showing, countdown := d.duration } :: xs) :=
    insertBy_perm _ _ _
  refine ⟨?_, (hp.map (·.id)).nodup_iff.mpr ?_⟩
  · rw [hp.length_eq]
    exact hl
  · rw [List.map_cons, List.nodup_cons]
    refine ⟨fun hm => ?_, h.2⟩
    obtain ⟨x, hx, hid⟩ := List.mem_map.mp hm
    exact hd x hx hid

/-- R96: a re-trigger leaves the ids. -/
theorem retrigger_ids (d : NoticeDef) (xs : List NoticeEntry) : (retrigger d xs).map (·.id) = xs.map (·.id) := by
  unfold retrigger
  rw [List.map_map]
  refine List.map_congr_left fun x _ => ?_
  dsimp only [Function.comp]
  split <;> rfl

theorem activeLimits_retrigger {xs : List NoticeEntry} (h : activeLimits xs) (d : NoticeDef) :
    activeLimits (retrigger d xs) :=
  activeLimits_of_subperm h (retrigger_ids d xs ▸ List.Subperm.refl _)

/-- R97: counting leaves or removes each entry, so that the ids are some of those before, in their order. -/
theorem countEntries_ids (store : List NoticeDef) (xs : List NoticeEntry) (p : Part) :
    ((countEntries store xs p).1.map (·.id)).Sublist (xs.map (·.id)) := by
  have one : ∀ (d : NoticeDef) (x : NoticeEntry), ((countEntry d x).1.toList.map (·.id)).Sublist [x.id] := by
    intro d x
    unfold countEntry
    split
    · exact List.Sublist.refl _
    · split
      · split
        · exact List.nil_sublist _
        · exact List.Sublist.refl _
      · exact List.Sublist.refl _
  induction xs generalizing p with
  | nil => exact List.Sublist.refl _
  | cons x rest ih =>
    unfold countEntries
    split
    · exact (ih p).cons_cons x.id
    · rw [List.map_append]
      exact (one _ x).append (ih _)

/-- R88: a new store keeps some of the entries, in another order. -/
theorem activeLimits_restoredEntries {xs : List NoticeEntry} (h : activeLimits xs) (store : List NoticeDef) :
    activeLimits (restoredEntries store xs) :=
  activeLimits_of_subperm h
    (((sortBy_perm _ _).map _).subperm.trans ((List.filter_sublist).map _).subperm)

/-! ### The notice scheduler's operations -/

@[simp] theorem Part.comesUp_active (p : Part) (d : NoticeDef) : (p.comesUp d).ntc.active = p.ntc.active := by
  simp

@[simp] theorem Part.setActive_active (p : Part) (xs : List NoticeEntry) : (p.setActive xs).ntc.active = xs := rfl

@[simp] theorem Part.noteDropped_active (p : Part) (id : Nat) : (p.noteDropped id).ntc.active = p.ntc.active := rfl

/-- R96: into a full list an entry enters in the place of the last one, or not at all. -/
theorem Part.activateFull_active {p : Part} {d : NoticeDef} (h : activeLimits p.ntc.active)
    (hd : ∀ x ∈ p.ntc.active, x.id ≠ d.id) : activeLimits (p.activateFull d).ntc.active := by
  unfold Part.activateFull
  split
  · exact h
  · next last hlast =>
    split
    · rw [Part.comesUp_active, Part.noteDropped_active, Part.setActive_active]
      have hne : p.ntc.active ≠ [] := by
        intro hn
        rw [hn] at hlast
        cases hlast
      have hpos : 0 < p.ntc.active.length := List.length_pos_iff.mpr hne
      have hlimit := h.1
      refine activeLimits_insertEntry ?_ (by rw [List.length_dropLast]; omega) _ _
        fun x hx => hd x (List.dropLast_subset _ hx)
      exact activeLimits_of_subperm h ((List.dropLast_sublist _).map _).subperm
    · exact h

/-- R96: an activation re-triggers, enters, displaces or is dropped. -/
@[simp] theorem Part.activate_active {p : Part} (h : activeLimits p.ntc.active) (d : NoticeDef) :
    activeLimits (p.activate d).ntc.active := by
  unfold Part.activate
  split
  · have hr := activeLimits_retrigger h d
    dsimp only
    split
    · rw [Part.comesUp_active]; exact hr
    · exact hr
  · next hnone =>
    have hd : ∀ x ∈ p.ntc.active, x.id ≠ d.id := by
      intro x hx
      simpa using List.find?_eq_none.mp hnone x hx
    split
    · next hl =>
      rw [Part.comesUp_active]
      exact activeLimits_insertEntry h hl _ _ hd
    · exact Part.activateFull_active h hd

@[simp] theorem Part.activateEach_active {p : Part} (h : activeLimits p.ntc.active) (ds : List NoticeDef) :
    activeLimits (p.activateEach ds).ntc.active :=
  foldl_law (fun q => activeLimits q.ntc.active) Part.activate (fun _ d hq => Part.activate_active hq d) ds p h

@[simp] theorem Part.armTriggers_limits {p : Part} (h : p.odo.limits) (n : Nat) (plan : List PendingTrigger) :
    (p.armTriggers n plan).odo.limits :=
  foldl_law (fun q => q.odo.limits) _ (fun _ _ hq => Part.armMark_limits hq _ _) _ _ h

@[simp] theorem Part.nextPlanGen_limits {p : Part} (h : p.odo.limits) : p.nextPlanGen.odo.limits :=
  Part.clearOwner_limits h .notices

@[simp] theorem Part.buildPlan_limits {p : Part} (h : p.odo.limits) (k : Nat) (fired : List Nat) :
    (p.buildPlan k fired).odo.limits := by
  simp [Part.buildPlan, h]

@[simp] theorem Part.dropPlan_limits {p : Part} (h : p.odo.limits) : p.dropPlan.odo.limits := by
  simp [Part.dropPlan, h]

@[simp] theorem Part.planStep_limits {p : Part} (h : p.odo.limits) (e : JourneyEvent) (before : Phase) :
    (p.planStep e before).odo.limits := by
  unfold Part.planStep
  split
  · simp [h]
  · split <;> simp [h]

@[simp] theorem Part.reselect_panels (p : Part) : p.reselect.cmp.panels = p.cmp.panels := rfl

@[simp] theorem Part.workJourney_limits (p : Part) (e : JourneyEvent) (before : Phase) :
    (p.workJourney e before).cmp.panels = p.cmp.panels ∧
      (p.odo.limits → (p.workJourney e before).odo.limits) ∧
      (activeLimits p.ntc.active → activeLimits (p.workJourney e before).ntc.active) := by
  unfold Part.workJourney
  split
  · simp +contextual [activeLimits_nil]
  · simp +contextual [activeLimits_filter]

@[simp] theorem Part.noticeJourney_limits (p : Part) :
    p.noticeJourney.cmp.panels = p.cmp.panels ∧ (p.odo.limits → p.noticeJourney.odo.limits) ∧
      (activeLimits p.ntc.active → activeLimits p.noticeJourney.ntc.active) := by
  unfold Part.noticeJourney
  split <;> simp +contextual

@[simp] theorem Part.activateId_active {p : Part} (h : activeLimits p.ntc.active) (id : Nat) :
    activeLimits (p.activateId id).ntc.active := by
  unfold Part.activateId
  split <;> simp [h]

@[simp] theorem Part.judgeNoticeMark_limits (p : Part) (id : Nat) (gen : Half16) :
    (p.judgeNoticeMark id gen).cmp.panels = p.cmp.panels ∧
      (p.odo.limits → (p.judgeNoticeMark id gen).odo.limits) ∧
      (activeLimits p.ntc.active → activeLimits (p.judgeNoticeMark id gen).ntc.active) := by
  unfold Part.judgeNoticeMark
  split
  · simp
  · split <;> simp +contextual

@[simp] theorem Part.takeNoticeMark_limits (p : Part) :
    p.takeNoticeMark.cmp.panels = p.cmp.panels ∧ (p.odo.limits → p.takeNoticeMark.odo.limits) ∧
      (activeLimits p.ntc.active → activeLimits p.takeNoticeMark.ntc.active) := by
  unfold Part.takeNoticeMark
  split <;> simp +contextual

@[simp] theorem Part.rebuildPlan_limits {p : Part} (h : p.odo.limits) : p.rebuildPlan.odo.limits := by
  unfold Part.rebuildPlan
  split <;> simp [h]

@[simp] theorem Part.newNotices_limits (p : Part) (store : List NoticeDef) :
    (p.newNotices store).cmp.panels = p.cmp.panels ∧ (p.odo.limits → (p.newNotices store).odo.limits) ∧
      (activeLimits p.ntc.active → activeLimits (p.newNotices store).ntc.active) := by
  unfold Part.newNotices
  simp +contextual [activeLimits_restoredEntries]

@[simp] theorem Part.completeNoticeLoad_limits (p : Part) (bus : Bus) :
    (p.completeNoticeLoad bus).cmp.panels = p.cmp.panels ∧
      (p.odo.limits → (p.completeNoticeLoad bus).odo.limits) ∧
      (activeLimits p.ntc.active → activeLimits (p.completeNoticeLoad bus).ntc.active) := by
  unfold Part.completeNoticeLoad
  split
  · dsimp only
    split <;> simp +contextual
  · simp
  · simp

/-! ### Loads begun (R22, R65, R87) -/

/-- What a load's beginning leaves as it was. -/
@[simp] theorem Part.beginLoad_keeps (p : Part) (k : Kind) (l : LoadState) :
    (p.beginLoad k l).1.odo = p.odo ∧ (p.beginLoad k l).1.ntc = p.ntc ∧ (p.beginLoad k l).1.cmp = p.cmp ∧
    (p.beginLoad k l).1.regs = p.regs ∧ (p.beginLoad k l).1.ed.take = p.ed.take := by
  unfold Part.beginLoad
  dsimp only
  split
  · split <;> simp
  · simp

@[simp] theorem Part.stopLoadTold_keeps (p : Part) :
    p.stopLoadTold.odo = p.odo ∧ p.stopLoadTold.ntc = p.ntc ∧ p.stopLoadTold.cmp = p.cmp ∧
    p.stopLoadTold.regs = p.regs ∧ p.stopLoadTold.ed.take = p.ed.take := by
  unfold Part.stopLoadTold Part.startStopLoad
  split <;> simp

@[simp] theorem Part.trackerBoundary_keeps (p : Part) :
    p.trackerBoundary.odo = p.odo ∧ p.trackerBoundary.ntc = p.ntc ∧ p.trackerBoundary.cmp = p.cmp ∧
    p.trackerBoundary.regs = p.regs ∧ p.trackerBoundary.ed.take = p.ed.take := by
  unfold Part.trackerBoundary Part.startStopLoad
  split
  · simp
  · dsimp only
    split <;> simp

@[simp] theorem Part.seatLoadTold_keeps (p : Part) :
    p.seatLoadTold.odo = p.odo ∧ p.seatLoadTold.ntc = p.ntc ∧ p.seatLoadTold.cmp = p.cmp ∧
    p.seatLoadTold.regs = p.regs ∧ p.seatLoadTold.ed.take = p.ed.take := by
  unfold Part.seatLoadTold Part.startSeatLoad
  split <;> simp

@[simp] theorem Part.reservationBoundary_keeps (p : Part) :
    p.reservationBoundary.odo = p.odo ∧ p.reservationBoundary.ntc = p.ntc ∧ p.reservationBoundary.cmp = p.cmp ∧
    p.reservationBoundary.regs = p.regs ∧ p.reservationBoundary.ed.take = p.ed.take := by
  unfold Part.reservationBoundary Part.startSeatLoad
  split
  · simp
  · dsimp only
    split <;> simp

@[simp] theorem Part.startNoticeLoad_keeps (p : Part) :
    p.startNoticeLoad.odo = p.odo ∧ p.startNoticeLoad.ntc.active = p.ntc.active ∧ p.startNoticeLoad.cmp = p.cmp ∧
    p.startNoticeLoad.regs = p.regs ∧ p.startNoticeLoad.ed.take = p.ed.take := by
  simp [Part.startNoticeLoad]

@[simp] theorem Part.noticeLoadTold_keeps (p : Part) :
    p.noticeLoadTold.odo = p.odo ∧ p.noticeLoadTold.ntc.active = p.ntc.active ∧ p.noticeLoadTold.cmp = p.cmp ∧
    p.noticeLoadTold.regs = p.regs ∧ p.noticeLoadTold.ed.take = p.ed.take := by
  unfold Part.noticeLoadTold
  split <;> simp

/-- What counting the entries leaves as it was: it requests chimes alone (R97). -/
@[simp] theorem countEntries_keeps (store : List NoticeDef) (xs : List NoticeEntry) (p : Part) :
    (countEntries store xs p).2.odo = p.odo ∧ (countEntries store xs p).2.ntc = p.ntc ∧
    (countEntries store xs p).2.cmp = p.cmp ∧ (countEntries store xs p).2.regs = p.regs ∧
    (countEntries store xs p).2.ed = p.ed := by
  induction xs generalizing p with
  | nil => exact ⟨rfl, rfl, rfl, rfl, rfl⟩
  | cons x rest ih =>
    unfold countEntries
    split
    · exact ih p
    · dsimp only
      split <;> simp [ih]

/-- What a countdown leaves as it was. -/
@[simp] theorem Part.countDown_keeps (p : Part) :
    p.countDown.odo = p.odo ∧ p.countDown.cmp.slots = p.cmp.slots ∧
    p.countDown.cmp.refreshSeat = p.cmp.refreshSeat ∧ p.countDown.cmp.refreshEnd = p.cmp.refreshEnd ∧
    p.countDown.cmp.refreshDoor = p.cmp.refreshDoor ∧ p.countDown.cmp.panels = p.cmp.panels ∧
    p.countDown.regs = p.regs ∧ p.countDown.ed = p.ed := by
  simp [Part.countDown]

@[simp] theorem Part.countDown_active {p : Part} (h : activeLimits p.ntc.active) :
    activeLimits p.countDown.ntc.active := by
  have hs := countEntries_ids p.ntc.store p.ntc.active p
  simpa [Part.countDown] using activeLimits_of_subperm h hs.subperm

/-- What a sweep boundary at the scheduler leaves as it was. -/
@[simp] theorem Part.noticeBoundary_keeps (p : Part) :
    p.noticeBoundary.odo = p.odo ∧ p.noticeBoundary.cmp.slots = p.cmp.slots ∧
    p.noticeBoundary.cmp.refreshSeat = p.cmp.refreshSeat ∧ p.noticeBoundary.cmp.refreshEnd = p.cmp.refreshEnd ∧
    p.noticeBoundary.cmp.refreshDoor = p.cmp.refreshDoor ∧ p.noticeBoundary.cmp.panels = p.cmp.panels ∧
    p.noticeBoundary.regs = p.regs ∧ p.noticeBoundary.ed.take = p.ed.take := by
  unfold Part.noticeBoundary
  split
  · simp
  · dsimp only
    split <;> simp

@[simp] theorem Part.noticeBoundary_active {p : Part} (h : activeLimits p.ntc.active) :
    activeLimits p.noticeBoundary.ntc.active := by
  unfold Part.noticeBoundary
  split
  · exact h
  · dsimp only
    split <;> simp [h]

@[simp] theorem Part.completeStopLoad_limits (p : Part) (bus : Bus) :
    (p.completeStopLoad bus).cmp.panels = p.cmp.panels ∧
      (p.odo.limits → (p.completeStopLoad bus).odo.limits) := by
  unfold Part.completeStopLoad
  split
  · dsimp only
    split <;> simp +contextual
  · simp
  · simp

/-! ### The reservation engine's operations -/

@[simp] theorem Part.showSeats_panels (p : Part) (seats : List Seat) :
    (p.showSeats seats).cmp.panels = p.cmp.panels := rfl

@[simp] theorem Part.evaluateAll_panels (p : Part) : p.evaluateAll.cmp.panels = p.cmp.panels := by
  simp [Part.evaluateAll]

@[simp] theorem Part.evaluateSeat_panels (p : Part) (number : Nat) :
    (p.evaluateSeat number).cmp.panels = p.cmp.panels := by
  simp [Part.evaluateSeat]

@[simp] theorem Part.reservationJourney_panels (p : Part) : p.reservationJourney.cmp.panels = p.cmp.panels := by
  unfold Part.reservationJourney
  split <;> simp

@[simp] theorem Part.seatMapLoad_panels (p : Part) : p.seatMapLoad.cmp.panels = p.cmp.panels := by
  unfold Part.seatMapLoad
  split <;> simp

@[simp] theorem Part.completeSeatLoad_panels (p : Part) (bus : Bus) :
    (p.completeSeatLoad bus).cmp.panels = p.cmp.panels := by
  unfold Part.completeSeatLoad
  split
  · dsimp only
    split <;> simp
  · rfl
  · rfl

@[simp] theorem Part.amended_panels (p : Part) (number : Nat) (segments : List Segment) :
    (p.amended number segments).cmp.panels = p.cmp.panels := by
  simp [Part.amended]

end Sys2Proof.Machine
end

section
/-! PROOF. The limits of O7 at the composer (R114, R123), the panel lines and the sweep timer. -/

namespace Sys2Proof.Machine

/-! ### The limits of the refresh lists and the render store -/

/-- R114, R123 of the composer's own state. -/
def Composer.limits (c : Composer) : Prop :=
  c.refreshSeat.Nodup ∧ c.refreshEnd.Nodup ∧ c.refreshDoor.Nodup ∧ c.slots.length = 8
    ∧ (∀ a ∈ c.refreshSeat, c.configured .seat a = true)
    ∧ (∀ a ∈ c.refreshEnd, c.configured .end_ a = true)
    ∧ ∀ a ∈ c.refreshDoor, c.configured .door a = true

/-- The composer's law speaks of the composer alone. -/
theorem Part.composerLaw_iff (p : Part) : p.composerLaw ↔ p.cmp.limits := Iff.rfl

/-- The limits, line by line. -/
theorem Composer.limits_iff (c : Composer) :
    c.limits ↔ c.slots.length = 8 ∧ ∀ l, (c.refresh l).Nodup ∧ ∀ a ∈ c.refresh l, c.configured l a = true := by
  constructor
  · rintro ⟨hseat, hend, hdoor, hslots, cseat, cend, cdoor⟩
    refine ⟨hslots, fun l => ?_⟩
    cases l
    · exact ⟨hseat, cseat⟩
    · exact ⟨hend, cend⟩
    · exact ⟨hdoor, cdoor⟩
  · rintro ⟨hslots, h⟩
    exact ⟨(h .seat).1, (h .end_).1, (h .door).1, hslots, (h .seat).2, (h .end_).2, (h .door).2⟩

/-- Refresh lists that only lose entries, with what stays still configured, keep the limits. -/
theorem Composer.limits_of_sublist {c d : Composer} (h : c.limits) (hs : d.slots.length = c.slots.length)
    (hr : ∀ l, (d.refresh l).Sublist (c.refresh l))
    (hp : ∀ l, ∀ a ∈ d.refresh l, c.configured l a = true → d.configured l a = true) : d.limits := by
  obtain ⟨hslots, hl⟩ := (Composer.limits_iff c).mp h
  refine (Composer.limits_iff d).mpr ⟨hs.trans hslots, fun l => ?_⟩
  obtain ⟨hnodup, hconf⟩ := hl l
  exact ⟨hnodup.sublist (hr l), fun a ha => hp l a ha (hconf a ((hr l).subset ha))⟩

/-- The limits speak of the number of slots, the refresh lists and the panels alone. -/
theorem Composer.limits_congr {c d : Composer} (h : c.limits) (hs : d.slots.length = c.slots.length)
    (hseat : d.refreshSeat = c.refreshSeat) (hend : d.refreshEnd = c.refreshEnd)
    (hdoor : d.refreshDoor = c.refreshDoor) (hp : d.panels = c.panels) : d.limits := by
  unfold Composer.limits Composer.configured
  rw [hs, hseat, hend, hdoor, hp]
  exact h

/-- What is configured depends on the panels' lines and addresses alone. -/
theorem Composer.configured_map {c d : Composer} (f : PanelDraw → PanelDraw) (hd : d.panels = c.panels.map f)
    (hf : ∀ q, (f q).line = q.line ∧ (f q).address = q.address) (l : Line) (a : Nat) :
    d.configured l a = c.configured l a := by
  unfold Composer.configured
  rw [hd, List.any_map]
  congr 1
  funext q
  simp only [Function.comp, (hf q).1, (hf q).2]

/-! ### Marks (R114, R115) -/

theorem Part.markPanel_limits {p : Part} (h : p.cmp.limits) (l : Line) (a : Nat) : (p.markPanel l a).cmp.limits :=
  Part.markPanel_composerLaw h l a

theorem Part.markWhere_limits {p : Part} (h : p.cmp.limits) (test : PanelDraw → Bool) :
    (p.markWhere test).cmp.limits := Part.markWhere_composerLaw h test

theorem Part.composerJourney_limits {p : Part} (h : p.cmp.limits) : p.composerJourney.cmp.limits := by
  unfold Part.composerJourney
  split
  · refine Part.markWhere_limits ?_ _
    exact h
  · exact h
  · exact h

theorem Part.composerProgress_limits {p : Part} (h : p.cmp.limits) : p.composerProgress.cmp.limits := by
  unfold Part.composerProgress
  split
  · refine Part.markWhere_limits ?_ _
    exact h
  · exact h
  · exact h

theorem Part.composerModule_limits {p : Part} (h : p.cmp.limits) : p.composerModule.cmp.limits := by
  unfold Part.composerModule
  split
  · exact h
  · refine Part.markPanel_limits ?_ _ _
    exact h

theorem Part.composerSelection_limits {p : Part} (h : p.cmp.limits) : p.composerSelection.cmp.limits := by
  unfold Part.composerSelection
  split
  · exact h
  · refine Part.markWhere_limits ?_ _
    exact h

theorem Part.composerBoundary_limits {p : Part} (h : p.cmp.limits) : p.composerBoundary.cmp.limits := by
  unfold Part.composerBoundary
  split
  · exact h
  · dsimp only
    split
    · exact h
    · refine Part.markWhere_limits ?_ _
      exact h

theorem Part.composerOnline_limits {p : Part} (h : p.cmp.limits) : p.composerOnline.cmp.limits := by
  unfold Part.composerOnline
  split
  · refine Part.markPanel_limits ?_ _ _
    exact h
  · exact h
  · exact h

/-- R107: discarding the kept windows leaves the panels where they are. -/
theorem Part.contentSwitched_limits {p : Part} (h : p.cmp.limits) : p.contentSwitched.cmp.limits := by
  unfold Part.contentSwitched
  refine Part.markWhere_limits ?_ _
  refine Composer.limits_of_sublist h rfl (fun l => ?_) fun l a _ hc => ?_
  · cases l <;> exact List.Sublist.refl _
  · rw [← hc]
    exact Composer.configured_map (fun q => { q with strip := false, bars := [] }) rfl (fun _ => ⟨rfl, rfl⟩) l a

/-! ### Compositions and panels that go out (R117, R118, R120, R122) -/

/-- R122: what dropping the composition in flight does at the composer. -/
@[simp] theorem Part.dropComposition_cmp (p : Part) :
    p.dropComposition.cmp.slots.length = p.cmp.slots.length ∧ p.dropComposition.cmp.panels = p.cmp.panels := by
  unfold Part.dropComposition
  split
  · exact ⟨rfl, rfl⟩
  · dsimp only
    split <;> simp

@[simp] theorem Part.dropCompositionIf_cmp (p : Part) (test : Line → Nat → Bool) :
    (p.dropCompositionIf test).cmp.slots.length = p.cmp.slots.length ∧
      (p.dropCompositionIf test).cmp.panels = p.cmp.panels := by
  unfold Part.dropCompositionIf
  split
  · exact ⟨rfl, rfl⟩
  · split <;> simp

/-- R122: the refresh lists lose the panels that are out. -/
theorem Part.releasePanels_refresh (p : Part) (test : Line → Nat → Bool) (l : Line) :
    (p.releasePanels test).cmp.refresh l = (p.cmp.refresh l).filter (fun a => !test l a) := by
  cases l <;> simp [Part.releasePanels, Composer.refresh]

@[simp] theorem Part.releasePanels_cmp (p : Part) (test : Line → Nat → Bool) :
    (p.releasePanels test).cmp.slots.length = p.cmp.slots.length ∧
      (p.releasePanels test).cmp.panels = p.cmp.panels := by
  simp [Part.releasePanels, freeSlots]

theorem Part.releasePanels_limits {p : Part} (h : p.cmp.limits) (test : Line → Nat → Bool) :
    (p.releasePanels test).cmp.limits := by
  obtain ⟨hs, hp⟩ := Part.releasePanels_cmp p test
  refine Composer.limits_of_sublist h hs (fun l => ?_) fun l a _ hc => ?_
  · rw [Part.releasePanels_refresh]
    exact List.filter_sublist
  · rw [← hc]
    unfold Composer.configured
    rw [hp]

theorem Part.composerOffline_limits {p : Part} (h : p.cmp.limits) : p.composerOffline.cmp.limits := by
  unfold Part.composerOffline
  split
  · refine Part.releasePanels_limits ?_ _
    exact h
  · exact h
  · exact h

theorem Part.dropComposition_limits {p : Part} (h : p.cmp.limits) : p.dropComposition.cmp.limits :=
  Composer.limits_congr h (Part.dropComposition_cmp p).1 (by simp) (by simp) (by simp) (by simp)

theorem Part.stopComposition_limits {p : Part} (h : p.cmp.limits) : p.stopComposition.cmp.limits := by
  unfold Part.stopComposition
  split
  · exact h
  · exact Part.markPanel_limits (Part.dropComposition_limits h) _ _

/-- R105: the record that the composer keeps for a place is that place's. -/
theorem panelDrawOf_place (old : List PanelDraw) (l : Line) (a : Nat) :
    (panelDrawOf old l a).line = l ∧ (panelDrawOf old l a).address = a := by
  unfold panelDrawOf
  split
  · next q hq =>
    have hplace := List.find?_some hq
    simp only [Bool.and_eq_true, decide_eq_true_eq, beq_iff_eq] at hplace
    exact hplace
  · exact ⟨rfl, rfl⟩

/-- R115: every panel of a line's configuration is configured at the composer once it has taken the profile. -/
theorem configured_panelDraws {c : Composer} {old : List PanelDraw} {f : Profile} {l : Line} {a : Nat}
    (hc : c.panels = panelDraws old f) (ha : (f.line l).panels.any (fun q => q.address == a) = true) :
    c.configured l a = true := by
  obtain ⟨q, hq, hqa⟩ := List.any_eq_true.mp ha
  have hrising : a ∈ (f.line l).rising := by
    unfold LineConfig.rising
    rw [mem_sortBy, List.mem_map]
    exact ⟨q, hq, by simpa using hqa⟩
  unfold Composer.configured
  rw [hc, List.any_eq_true]
  refine ⟨panelDrawOf old l a, ?_, by simp [panelDrawOf_place old l a]⟩
  unfold panelDraws
  exact List.mem_flatMap.mpr ⟨l, by cases l <;> decide, List.mem_map.mpr ⟨a, hrising, rfl⟩⟩

/-- R115, R122: a profile load first takes out the panels that the new configuration does not hold. -/
theorem Part.composerProfile_limits {p : Part} (h : p.cmp.limits) : p.composerProfile.cmp.limits := by
  unfold Part.composerProfile
  split
  · exact h
  · next f rest _ =>
    dsimp only
    refine Part.markWhere_limits ?_ _
    have htaken : ({ p with cmp := { p.cmp with profiles := rest } } : Part).cmp.limits := h
    have hreleased := Part.releasePanels_limits htaken (fun l a => !(f.line l).panels.any (fun q => q.address == a))
    refine Composer.limits_of_sublist hreleased rfl (fun l => ?_) fun l a ha _ => ?_
    · cases l <;> exact List.Sublist.refl _
    · have hmem : a ∈ (Part.releasePanels { p with cmp := { p.cmp with profiles := rest } }
          (fun l a => !(f.line l).panels.any (fun q => q.address == a))).cmp.refresh l := by
        cases l <;> exact ha
      rw [Part.releasePanels_refresh] at hmem
      exact configured_panelDraws rfl (by simpa using (List.mem_filter.mp hmem).2)

@[simp] theorem Part.setComp_panels (p : Part) (c : Composition) : (p.setComp c).cmp.panels = p.cmp.panels := rfl

@[simp] theorem Part.readItems_panels (p : Part) (bus : Bus) (c : Composition) (copy : Copy) (address : Nat) :
    (p.readItems bus c copy address).cmp.panels = p.cmp.panels := by
  unfold Part.readItems
  dsimp only
  split <;> simp

theorem Part.readItems_limits {p : Part} (h : p.cmp.limits) (bus : Bus) (c : Composition) (copy : Copy)
    (address : Nat) : (p.readItems bus c copy address).cmp.limits :=
  Composer.limits_congr h (by simp) (by simp) (by simp) (by simp) (by simp)

/-- R117: the panel begun with leaves its refresh list. -/
theorem Composer.limits_erase {c : Composer} (h : c.limits) (l : Line) (a : Nat) :
    (c.setRefresh l ((c.refresh l).erase a)).limits := by
  refine Composer.limits_of_sublist h (by simp) (fun k => ?_) fun k b _ hc => ?_
  · by_cases hk : k = l
    · subst hk
      rw [Composer.refresh_setRefresh]
      exact List.erase_sublist
    · rw [Composer.refresh_setRefresh_of_ne _ _ hk]
  · rw [← hc]
    unfold Composer.configured
    simp

theorem Part.beginComposition_limits {p : Part} (h : p.cmp.limits) (bus : Bus) :
    (p.beginComposition bus).cmp.limits := by
  unfold Part.beginComposition
  split
  · exact h
  · next l a i _ =>
    dsimp only
    have herased := Composer.limits_erase h l a
    have hbegun (g : Slot → Slot) :
        ({ p.cmp.setRefresh l ((p.cmp.refresh l).erase a) with
          lastLine := l, slots := changeAt g i (p.cmp.setRefresh l ((p.cmp.refresh l).erase a)).slots }
            : Composer).limits :=
      Composer.limits_congr herased (length_changeAt _ _ _) rfl rfl rfl rfl
    split
    · exact Part.readItems_limits (hbegun _) _ _ _ _
    · exact hbegun _
    · exact hbegun _

/-- R120: completion changes what the composer keeps of a panel, not which panels there are. -/
theorem Part.completeComposition_limits {p : Part} (h : p.cmp.limits) : p.completeComposition.cmp.limits := by
  unfold Part.completeComposition
  split
  · exact h
  · next c _ =>
    have hkeep : ∀ q, (keepDrawn c q).line = q.line ∧ (keepDrawn c q).address = q.address := by
      intro q
      unfold keepDrawn
      split <;> exact ⟨rfl, rfl⟩
    have hdone : ({ p.cmp with
        comp := none, slots := completedSlots c p.cmp.slots, panels := p.cmp.panels.map (keepDrawn c) }
          : Composer).limits := by
      refine Composer.limits_of_sublist h (by simp [completedSlots, freeSlots]) (fun l => ?_) fun l a _ hc => ?_
      · cases l <;> exact List.Sublist.refl _
      · rw [← hc]
        exact Composer.configured_map _ rfl hkeep l a
    split
    · dsimp only
      split <;> exact hdone
    · exact h

/-! ### Drawing (R108 to R112, R119): the composition alone changes -/

@[simp] theorem Part.beginArea_panels (p : Part) (bus : Bus) (c : Composition) (area : Area) :
    (p.beginArea bus c area).cmp.panels = p.cmp.panels := by
  unfold Part.beginArea
  dsimp only
  (repeat' split) <;> simp

@[simp] theorem Part.drawText_panels (p : Part) (bus : Bus) (c : Composition) (g : PageDraw) (pin : ContentPin)
    (poolLength : Nat) (r : Rect) (ink paper zoomH zoomV : Nat) (centre marquee : Bool) (speed field : Nat)
    (fixed : Option Nat) :
    (p.drawText bus c g pin poolLength r ink paper zoomH zoomV centre marquee speed field fixed).cmp.panels
      = p.cmp.panels := by
  simp [Part.drawText]

@[simp] theorem Part.drawBar_panels (p : Part) (c : Composition) (area r : Rect) (ink paper border : Nat) :
    (p.drawBar c area r ink paper border).cmp.panels = p.cmp.panels := rfl

@[simp] theorem Part.addMarker_panels (p : Part) (bus : Bus) (c : Composition) (pin : ContentPin) (glyph u : Nat)
    (shown : Bool) (r area : Rect) : (p.addMarker bus c pin glyph u shown r area).cmp.panels = p.cmp.panels := by
  unfold Part.addMarker
  (repeat' split) <;> simp

@[simp] theorem Part.drawStrip_panels (p : Part) (bus : Bus) (c : Composition) (g : PageDraw) (pin : ContentPin)
    (items : ContentItems) (r : Rect) (index y0 fy : Nat) (marker : Bool) :
    (p.drawStrip bus c g pin items r index y0 fy marker).cmp.panels = p.cmp.panels := by
  unfold Part.drawStrip
  dsimp only
  split <;> simp

@[simp] theorem Part.drawOpenWindow_panels (p : Part) (bus : Bus) (c : Composition) (g : PageDraw) (pin : ContentPin)
    (items : ContentItems) (r : Rect) (kind : WindowKind) :
    (p.drawOpenWindow bus c g pin items r kind).cmp.panels = p.cmp.panels := by
  cases kind <;> simp [Part.drawOpenWindow]

@[simp] theorem Part.drawWindow_panels (p : Part) (bus : Bus) (c : Composition) (g : PageDraw) (pin : ContentPin)
    (items : ContentItems) (w : Window) : (p.drawWindow bus c g pin items w).cmp.panels = p.cmp.panels := by
  unfold Part.drawWindow
  dsimp only
  split <;> simp

@[simp] theorem Part.beginWindow_panels (p : Part) (bus : Bus) (c : Composition) (g : PageDraw) :
    (p.beginWindow bus c g).cmp.panels = p.cmp.panels := by
  unfold Part.beginWindow
  (repeat' split) <;> simp

@[simp] theorem Part.beginElement_panels (p : Part) (bus : Bus) : (p.beginElement bus).cmp.panels = p.cmp.panels := by
  unfold Part.beginElement
  (repeat' split) <;> simp

@[simp] theorem Part.glyphDecoded_panels (p : Part) (c : Composition) (j : GlyphJob)
    (r : Decoder × Option StreamStop) : (p.glyphDecoded c j r).cmp.panels = p.cmp.panels := by
  unfold Part.glyphDecoded
  dsimp only
  split <;> simp

@[simp] theorem Part.endGlyph_panels (p : Part) (bus : Bus) : (p.endGlyph bus).cmp.panels = p.cmp.panels := by
  unfold Part.endGlyph
  (repeat' split) <;> simp

/-! ### The panel lines (R144, R146): slots change state, events are handed over -/

@[simp] theorem Part.startLoad_cmp (p : Part) (l : Line) (a slot : Nat) :
    (p.startLoad l a slot).cmp.slots.length = p.cmp.slots.length ∧
      (p.startLoad l a slot).cmp.panels = p.cmp.panels := by
  simp [Part.startLoad]

@[simp] theorem Part.beginLoadExchange_cmp (p : Part) (l : Line) :
    (p.beginLoadExchange l).cmp.slots.length = p.cmp.slots.length ∧
      (p.beginLoadExchange l).cmp.panels = p.cmp.panels := by
  unfold Part.beginLoadExchange
  split <;> simp

@[simp] theorem Part.settleSlot_cmp (p : Part) (l : Line) (a slot : Nat) (good : Bool) :
    (p.settleSlot l a slot good).cmp.slots.length = p.cmp.slots.length ∧
      (p.settleSlot l a slot good).cmp.panels = p.cmp.panels := by
  simp [Part.settleSlot]

@[simp] theorem Part.settleExchange_cmp (p : Part) (l : Line) (x : Exchange) (good : Bool) :
    (p.settleExchange l x good).cmp.slots.length = p.cmp.slots.length ∧
      (p.settleExchange l x good).cmp.panels = p.cmp.panels := by
  unfold Part.settleExchange
  split <;> simp

@[simp] theorem Part.healthChanged_panels (p : Part) (l : Line) (a : Nat) (before after : Health) :
    (p.healthChanged l a before after).cmp.panels = p.cmp.panels := by
  unfold Part.healthChanged
  dsimp only
  split <;> simp

@[simp] theorem Part.endExchange_cmp (p : Part) (l : Line) (x : Exchange) (o : ExchangeOutcome) :
    (p.endExchange l x o).cmp.slots.length = p.cmp.slots.length ∧
      (p.endExchange l x o).cmp.panels = p.cmp.panels := by
  simp [Part.endExchange]

@[simp] theorem Part.replyEnded_cmp (p : Part) (l : Line) (cs : List RxChar) :
    (p.replyEnded l cs).cmp.slots.length = p.cmp.slots.length ∧ (p.replyEnded l cs).cmp.panels = p.cmp.panels := by
  unfold Part.replyEnded
  split
  · exact ⟨rfl, rfl⟩
  · split <;> simp

/-! ### The sweep timer (R158): a boundary is an event for the composer -/

@[simp] theorem Part.makeBoundary_panels (p : Part) (zeroMark : Bool) :
    (p.makeBoundary zeroMark).cmp.panels = p.cmp.panels := rfl

@[simp] theorem Part.ownBoundary_panels (p : Part) : p.ownBoundary.cmp.panels = p.cmp.panels := by
  unfold Part.ownBoundary
  split <;> rfl

@[simp] theorem Part.followPulse_panels (p : Part) (zeroMark : Bool) :
    (p.followPulse zeroMark).cmp.panels = p.cmp.panels := by
  unfold Part.followPulse
  (repeat' split) <;> rfl

@[simp] theorem Part.validPulse_panels (p : Part) (zeroMark : Bool) :
    (p.validPulse zeroMark).cmp.panels = p.cmp.panels := by
  simp [Part.validPulse]

@[simp] theorem Part.pulseEnds_panels (p : Part) (width : Nat) : (p.pulseEnds width).cmp.panels = p.cmp.panels := by
  unfold Part.pulseEnds
  split <;> simp

@[simp] theorem Part.tsyncFall_panels (p : Part) : p.tsyncFall.cmp.panels = p.cmp.panels := by
  unfold Part.tsyncFall
  dsimp only
  split
  · split <;> simp
  · rfl

@[simp] theorem Part.loseLeader_panels (p : Part) : p.loseLeader.cmp.panels = p.cmp.panels := by
  unfold Part.loseLeader
  split <;> simp

@[simp] theorem Part.sweepProfile_panels (p : Part) : p.sweepProfile.cmp.panels = p.cmp.panels := by
  unfold Part.sweepProfile
  split <;> simp

@[simp] theorem Part.sweepRun_panels (p : Part) : p.sweepRun.cmp.panels = p.cmp.panels := by
  unfold Part.sweepRun
  split <;> simp

end Sys2Proof.Machine
end

section
/-! PROOF. The limits of O7 at the edition unit and the registers, and O7 itself. -/

namespace Sys2Proof.Machine

/-! ### The window (R168, R172) -/

/-- R168, R172: what the window's law speaks of. -/
def windowLimits (base : Word) (take : Nat) : Prop := base &&& 0x0000FFFF#32 = 0#32 ∧ take < 64

/-- The window's law speaks of WINDOW_BASE and the take index alone. -/
theorem Part.windowLaw_iff (p : Part) : p.windowLaw ↔ windowLimits p.regs.windowBase p.ed.take := Iff.rfl

/-- R168: the value that a write leaves in WINDOW_BASE is aligned. -/
theorem windowLimits_written {base : Word} {take : Nat} (h : windowLimits base take) (v : Word) :
    windowLimits (v &&& 0xFFFF0000#32) take := by
  refine ⟨?_, h.2⟩
  rw [BitVec.and_assoc]
  exact BitVec.and_zero

/-- R181: the take index advances modulo the slots of the list. -/
theorem windowLimits_advanced {base : Word} {take : Nat} (h : windowLimits base take) (n : Nat) :
    windowLimits base (n % 64) := ⟨h.1, Nat.mod_lt _ (by decide)⟩

/-! ### The amendments (R76 to R82) -/

/-- What a judgement of an amendment leaves as it was. -/
def JudgeKeeps (judge : Part → Amendment → Part × AmendResult) : Prop :=
  ∀ p a, (judge p a).1.odo = p.odo ∧ (judge p a).1.ntc = p.ntc ∧ (judge p a).1.cmp.slots = p.cmp.slots ∧
    (judge p a).1.cmp.refreshSeat = p.cmp.refreshSeat ∧ (judge p a).1.cmp.refreshEnd = p.cmp.refreshEnd ∧
    (judge p a).1.cmp.refreshDoor = p.cmp.refreshDoor ∧ (judge p a).1.cmp.panels = p.cmp.panels ∧
    (judge p a).1.regs = p.regs ∧ (judge p a).1.ed = p.ed

@[simp] theorem addSegment_keeps : JudgeKeeps (·.judgeOnSeat Part.addSegment) := by
  intro p a
  unfold Part.judgeOnSeat Part.addSegment
  dsimp only
  (repeat' split) <;> simp

@[simp] theorem cancelSegment_keeps : JudgeKeeps (·.judgeOnSeat Part.cancelSegment) := by
  intro p a
  unfold Part.judgeOnSeat Part.cancelSegment
  dsimp only
  (repeat' split) <;> simp

@[simp] theorem judgeClear_keeps : JudgeKeeps Part.judgeClear := by
  intro p a
  unfold Part.judgeClear
  split <;> simp

@[simp] theorem judgeInvalid_keeps : JudgeKeeps Part.judgeInvalid :=
  fun _ _ => ⟨rfl, rfl, rfl, rfl, rfl, rfl, rfl, rfl, rfl⟩

/-- What an amendment leaves as it was. -/
@[simp] theorem Part.takeAmendment_keeps {judge : Part → Amendment → Part × AmendResult} (hj : JudgeKeeps judge) (p : Part)
    (isMine : Nat → Bool) :
    (p.takeAmendment isMine judge).odo = p.odo ∧ (p.takeAmendment isMine judge).ntc = p.ntc ∧
    (p.takeAmendment isMine judge).cmp.slots = p.cmp.slots ∧
    (p.takeAmendment isMine judge).cmp.refreshSeat = p.cmp.refreshSeat ∧
    (p.takeAmendment isMine judge).cmp.refreshEnd = p.cmp.refreshEnd ∧
    (p.takeAmendment isMine judge).cmp.refreshDoor = p.cmp.refreshDoor ∧
    (p.takeAmendment isMine judge).cmp.panels = p.cmp.panels ∧
    (p.takeAmendment isMine judge).regs = p.regs ∧ (p.takeAmendment isMine judge).ed.take = p.ed.take := by
  have answer (a : Amendment) :
      (p.answerAmendment judge a).1 = p ∨ (p.answerAmendment judge a).1 = (judge p a).1 := by
    unfold Part.answerAmendment
    split
    · exact .inl rfl
    · split
      · exact .inl rfl
      · exact .inr rfl
  unfold Part.takeAmendment
  split
  · simp
  · split
    · next a _ =>
      split
      · obtain ⟨hodo, hntc, hslots, hseat, hend, hdoor, hpanels, hregs, hed⟩ := hj p a
        rcases answer a with h | h <;> simp [h, hodo, hntc, hslots, hseat, hend, hdoor, hpanels, hregs, hed]
      · simp
    · simp
    · simp

/-! ### The edition unit's writes (R171, R176, R181, R188) -/

@[simp] theorem Part.requestBack_keeps (p : Part) (bus : Bus) (k : Kind) (request : Nat) :
    (p.requestBack bus k request).1.odo = p.odo ∧ (p.requestBack bus k request).1.ntc = p.ntc ∧
    (p.requestBack bus k request).1.cmp = p.cmp ∧ (p.requestBack bus k request).1.regs = p.regs ∧
    (p.requestBack bus k request).1.ed = p.ed := by
  unfold Part.requestBack
  split <;> simp

@[simp] theorem Part.completionWrite_keeps (p : Part) (bus : Bus) (k : Kind) (request : Nat) :
    (p.completionWrite bus k request).odo = p.odo ∧ (p.completionWrite bus k request).ntc = p.ntc ∧
    (p.completionWrite bus k request).cmp = p.cmp ∧ (p.completionWrite bus k request).regs = p.regs ∧
    (p.completionWrite bus k request).ed.take = p.ed.take := by
  simp [Part.completionWrite]

@[simp] theorem Part.advanceTake_take (p : Part) (bus : Bus) : (p.advanceTake bus).ed.take = (p.ed.take + 1) % 64 := by
  simp [Part.advanceTake]

@[simp] theorem Part.takeRecord_take (p : Part) (bus : Bus) (slot : Nat) (r : AmendResult) :
    (p.takeRecord bus slot r).ed.take = (p.ed.take + 1) % 64 := by
  simp [Part.takeRecord]

@[simp] theorem Part.makeOwed_keeps (bus : Bus) (p : Part) (w : OwedWrite) :
    (Part.makeOwed bus p w).odo = p.odo ∧ (Part.makeOwed bus p w).ntc = p.ntc ∧
    (Part.makeOwed bus p w).cmp = p.cmp ∧ (Part.makeOwed bus p w).regs = p.regs := by
  cases w <;> simp [Part.makeOwed]

theorem Part.makeOwed_window {p : Part} (h : windowLimits p.regs.windowBase p.ed.take) (bus : Bus) (w : OwedWrite) :
    windowLimits (Part.makeOwed bus p w).regs.windowBase (Part.makeOwed bus p w).ed.take := by
  cases w with
  | full k request => simpa [Part.makeOwed] using h
  | amend slot r => simpa [Part.makeOwed] using windowLimits_advanced h _
  | position r => simpa [Part.makeOwed] using h

@[simp] theorem Part.makeAllOwed_keeps (p : Part) (bus : Bus) :
    (p.makeAllOwed bus).odo = p.odo ∧ (p.makeAllOwed bus).ntc = p.ntc ∧ (p.makeAllOwed bus).cmp = p.cmp := by
  unfold Part.makeAllOwed
  refine ⟨?_, ?_, ?_⟩
  · exact foldl_keeps (·.odo) _ (fun q w => by simp) _ _
  · exact foldl_keeps (·.ntc) _ (fun q w => by simp) _ _
  · exact foldl_keeps (·.cmp) _ (fun q w => by simp) _ _

theorem Part.makeAllOwed_window {p : Part} (h : windowLimits p.regs.windowBase p.ed.take) (bus : Bus) :
    windowLimits (p.makeAllOwed bus).regs.windowBase (p.makeAllOwed bus).ed.take :=
  foldl_law (fun q => windowLimits q.regs.windowBase q.ed.take) _ (fun _ w hq => Part.makeOwed_window hq bus w) _ _ h

/-! ### Boundary operations and switches (R170, R173 to R175) -/

/-- What taking a kind's request leaves as it was. -/
@[simp] theorem Part.takeRequest_keeps (head : List Byte) (x : Part × List Kind) (k : Kind) :
    (Part.takeRequest head x k).1.odo = x.1.odo ∧ (Part.takeRequest head x k).1.ntc = x.1.ntc ∧
    (Part.takeRequest head x k).1.cmp = x.1.cmp ∧ (Part.takeRequest head x k).1.regs = x.1.regs ∧
    (Part.takeRequest head x k).1.ed.take = x.1.ed.take := by
  unfold Part.takeRequest
  dsimp only
  (repeat' split) <;> simp

@[simp] theorem Part.takeRequests_keeps (p : Part) (bus : Bus) (head : List Byte) :
    (p.takeRequests bus head).odo = p.odo ∧ (p.takeRequests bus head).ntc = p.ntc ∧
    (p.takeRequests bus head).cmp = p.cmp ∧ (p.takeRequests bus head).regs = p.regs ∧
    (p.takeRequests bus head).ed.take = p.ed.take := by
  have fold (x : Part × List Kind) (ks : List Kind) :
      (ks.foldl (Part.takeRequest head) x).1.odo = x.1.odo ∧ (ks.foldl (Part.takeRequest head) x).1.ntc = x.1.ntc ∧
      (ks.foldl (Part.takeRequest head) x).1.cmp = x.1.cmp ∧ (ks.foldl (Part.takeRequest head) x).1.regs = x.1.regs ∧
      (ks.foldl (Part.takeRequest head) x).1.ed.take = x.1.ed.take := by
    induction ks generalizing x with
    | nil => exact ⟨rfl, rfl, rfl, rfl, rfl⟩
    | cons k rest ih => simp only [List.foldl_cons, ih, Part.takeRequest_keeps, and_self]
  simp [Part.takeRequests, fold]

@[simp] theorem Part.readHead_keeps (p : Part) (bus : Bus) :
    (p.readHead bus).odo = p.odo ∧ (p.readHead bus).ntc = p.ntc ∧ (p.readHead bus).cmp = p.cmp ∧
    (p.readHead bus).regs = p.regs ∧ (p.readHead bus).ed.take = p.ed.take := by
  unfold Part.readHead
  split
  · simp
  · split <;> simp

theorem Part.readHead_window {p : Part} (h : windowLimits p.regs.windowBase p.ed.take) (bus : Bus) :
    windowLimits (p.readHead bus).regs.windowBase (p.readHead bus).ed.take := by
  simpa using h

@[simp] theorem Part.boundaryOperation_keeps (p : Part) (bus : Bus) :
    (p.boundaryOperation bus).odo = p.odo ∧ (p.boundaryOperation bus).ntc = p.ntc ∧
    (p.boundaryOperation bus).cmp = p.cmp := by
  unfold Part.boundaryOperation
  split <;> simp

theorem Part.boundaryOperation_window {p : Part} (h : windowLimits p.regs.windowBase p.ed.take) (bus : Bus) :
    windowLimits (p.boundaryOperation bus).regs.windowBase (p.boundaryOperation bus).ed.take := by
  unfold Part.boundaryOperation
  split
  · dsimp only
    refine Part.readHead_window (Part.makeAllOwed_window ?_ _) bus
    exact h
  · exact h

@[simp] theorem Part.finishSwitch_keeps (p : Part) (bus : Bus) (k : Kind) (w : Switch) :
    (p.finishSwitch bus k w).odo = p.odo ∧ (p.finishSwitch bus k w).ntc = p.ntc ∧
    (p.finishSwitch bus k w).cmp = p.cmp ∧ (p.finishSwitch bus k w).regs = p.regs ∧
    (p.finishSwitch bus k w).ed.take = p.ed.take := by
  unfold Part.finishSwitch
  split <;> simp

@[simp] theorem Part.handProfile_panels (p : Part) (f : Profile) :
    (p.handProfile f).cmp.panels = p.cmp.panels := rfl

/-- R175: what telling the loading block leaves as it was. -/
@[simp] theorem Part.tellLoader_limits (p : Part) (k : Kind) (f : Option Profile) :
    (p.odo.limits → (p.tellLoader k f).odo.limits) ∧ (p.cmp.limits → (p.tellLoader k f).cmp.limits) := by
  unfold Part.tellLoader
  split
  · exact ⟨id, id⟩
  · exact ⟨id, id⟩
  · exact ⟨id, id⟩
  · exact ⟨id, id⟩
  · exact ⟨id, id⟩
  · refine ⟨fun h => ?_, Part.contentSwitched_limits⟩
    simpa using h

@[simp] theorem Part.completeSwitch_limits (p : Part) (k : Kind) (bus : Bus) :
    (p.odo.limits → (p.completeSwitch k bus).odo.limits) ∧
    (p.cmp.limits → (p.completeSwitch k bus).cmp.limits) ∧
    (p.completeSwitch k bus).ntc.active = p.ntc.active ∧ (p.completeSwitch k bus).regs = p.regs ∧
    (p.completeSwitch k bus).ed.take = p.ed.take := by
  unfold Part.completeSwitch Part.passSwitch
  split
  · simp
  · split
    · simp +contextual
    · simp

@[simp] theorem Part.failSwitch_keeps (p : Part) (k : Kind) (bus : Bus) :
    (p.failSwitch k bus).odo = p.odo ∧ (p.failSwitch k bus).ntc = p.ntc ∧ (p.failSwitch k bus).cmp = p.cmp ∧
    (p.failSwitch k bus).regs = p.regs ∧ (p.failSwitch k bus).ed.take = p.ed.take := by
  unfold Part.failSwitch Part.refuseSwitch Part.reportReject
  split
  · simp
  · split
    · simp
    · dsimp only
      split <;> simp

theorem Part.runDelivery_window {p : Part} (h : windowLimits p.regs.windowBase p.ed.take) (bus : Bus) :
    windowLimits (p.runDelivery bus).regs.windowBase (p.runDelivery bus).ed.take := by
  unfold Part.runDelivery
  split
  · split
    · exact h
    · split
      · simpa using h
      · exact h
      · simpa using windowLimits_advanced h _
  · exact h

/-! ### Position requests (R36 to R38, R183) -/

@[simp] theorem Part.answerPosition_limits (p : Part) (r : PositionRequest) :
    (p.answerPosition r).1.cmp.panels = p.cmp.panels ∧ (p.odo.limits → (p.answerPosition r).1.odo.limits) := by
  unfold Part.answerPosition Part.answerPlaceAtStop Part.answerPlaceInLeg
  (repeat' split) <;> simp +contextual

@[simp] theorem Part.answerPosition_keeps (p : Part) (r : PositionRequest) :
    (p.answerPosition r).1.ntc.active = p.ntc.active ∧ (p.answerPosition r).1.cmp.slots = p.cmp.slots ∧
    (p.answerPosition r).1.cmp.refreshSeat = p.cmp.refreshSeat ∧
    (p.answerPosition r).1.cmp.refreshEnd = p.cmp.refreshEnd ∧
    (p.answerPosition r).1.cmp.refreshDoor = p.cmp.refreshDoor ∧
    (p.answerPosition r).1.regs = p.regs ∧ (p.answerPosition r).1.ed = p.ed := by
  unfold Part.answerPosition Part.answerPlaceAtStop Part.answerPlaceInLeg
  (repeat' split) <;> simp

@[simp] theorem Part.takePosition_limits (p : Part) (kind : PositionKind) (bus : Bus) :
    (p.takePosition kind bus).cmp.panels = p.cmp.panels ∧
      (p.odo.limits → (p.takePosition kind bus).odo.limits) := by
  unfold Part.takePosition
  split
  · simp
  · split <;> simp +contextual

@[simp] theorem Part.takePosition_keeps (p : Part) (kind : PositionKind) (bus : Bus) :
    (p.takePosition kind bus).ntc.active = p.ntc.active ∧ (p.takePosition kind bus).cmp.slots = p.cmp.slots ∧
    (p.takePosition kind bus).cmp.refreshSeat = p.cmp.refreshSeat ∧
    (p.takePosition kind bus).cmp.refreshEnd = p.cmp.refreshEnd ∧
    (p.takePosition kind bus).cmp.refreshDoor = p.cmp.refreshDoor ∧
    (p.takePosition kind bus).regs = p.regs ∧ (p.takePosition kind bus).ed.take = p.ed.take := by
  unfold Part.takePosition
  split
  · simp
  · split <;> simp

/-! ### The registers and the resets (R185, R187, R190) -/

theorem Odometer.reset_limits : Odometer.reset.limits := Odometer.limits_of_empty (Nat.zero_le _) rfl

theorem Composer.reset_limits : Composer.reset.limits := by
  refine (Composer.limits_iff _).mpr ⟨rfl, fun l => ?_⟩
  cases l <;> exact ⟨List.nodup_nil, fun a ha => absurd ha List.not_mem_nil⟩

/-- The lines' boundaries are not the composer's. -/
theorem Part.dropBoundaries_cmp (p : Part) : p.dropBoundaries.cmp = p.cmp := rfl

theorem Part.stopRun_limits {p : Part} (h : p.cmp.limits) : p.stopRun.cmp.limits := by
  unfold Part.stopRun
  dsimp only
  rw [Part.dropBoundaries_cmp]
  refine Part.stopComposition_limits ?_
  simpa using h

theorem Part.startRunning_limits {p : Part} (h : p.cmp.limits) : p.startRunning.cmp.limits :=
  Composer.limits_congr h (by simp) (by simp) (by simp) (by simp) (by simp [Part.startRunning])

theorem Part.writeRun_limits {p : Part} (h : p.cmp.limits) (v : Bool) : (p.writeRun v).cmp.limits := by
  unfold Part.writeRun
  split
  · exact h
  · split
    · exact Part.startRunning_limits h
    · exact Part.stopRun_limits h

/-- R187: RUN leaves WINDOW_BASE and the take index. -/
@[simp] theorem Part.writeRun_window (p : Part) (v : Bool) :
    (p.writeRun v).regs.windowBase = p.regs.windowBase ∧ (p.writeRun v).ed.take = p.ed.take := by
  unfold Part.writeRun Part.startRunning Part.stopRun
  (repeat' split) <;> simp [Edition.abandonSwitches]

@[simp] theorem Part.writeFreeze_window (p : Part) (v : Bool) :
    (p.writeFreeze v).regs.windowBase = p.regs.windowBase := by
  unfold Part.writeFreeze
  (repeat' split) <;> rfl

/-! ### What a step does to the part -/

/-- What a command does to the part: `exec` less the queue, which no command touches. -/
def effectOf : Instr → Part → Part
  | .powerOnReset => fun p => p.powerOn
  | .wheelEdge rising => fun p => p.takeEdge rising
  | .capture => fun p => p.captureEdge
  | .silenceSample => fun p => p.takeSilence
  | .doorSample level => fun p => p.takeDoorSample level
  | .setLegDistance mm => fun p => p.setLeg mm.toNat
  | .reduceLegDistance mm => fun p => p.reduceLeg mm.toNat
  | .armMark tag mm => fun p => p.armMark tag mm.toNat
  | .clearMarks owner => fun p => p.clearOwner owner
  | .clearNotice owner => fun p => p.takeClearNotice owner
  | .odometerProfileLoad => fun p => p.odometerProfile
  | .distanceAdvanced => fun p => p.takeDistanceAdvanced
  | .motionChange => fun p => p.takeMotionChange
  | .doorChange => fun p => p.takeDoorChange
  | .trackerMark => fun p => p.takeTrackerMark
  | .placeAtStop bus => fun p => p.takePosition .placeAtStop bus
  | .placeInLeg bus => fun p => p.takePosition .placeInLeg bus
  | .unplace bus => fun p => p.takePosition .unplace bus
  | .trackerProfileLoad => fun p => p.trackerProfile
  | .stopListLoadStart => fun p => p.stopLoadTold
  | .stopListLoadComplete bus => fun p => p.completeStopLoad bus
  | .trackerOwedLoad => fun p => p.trackerBoundary
  | .reservationJourneyEvent => fun p => p.reservationJourney
  | .seatMapLoad => fun p => p.seatMapLoad
  | .reservationLoadStart => fun p => p.seatLoadTold
  | .reservationLoadComplete bus => fun p => p.completeSeatLoad bus
  | .reservationOwedLoad => fun p => p.reservationBoundary
  | .amendmentSlotRead bus => fun p => p.runDelivery bus
  | .add => fun p => p.takeAmendment (· == 1) (·.judgeOnSeat Part.addSegment)
  | .cancel => fun p => p.takeAmendment (· == 2) (·.judgeOnSeat Part.cancelSegment)
  | .clear => fun p => p.takeAmendment (· == 3) Part.judgeClear
  | .amendInvalidAction => fun p => p.takeAmendment (fun n => n != 1 && n != 2 && n != 3) Part.judgeInvalid
  | .noticeJourneyEvent => fun p => p.noticeJourney
  | .noticeMark => fun p => p.takeNoticeMark
  | .noticeCountdown => fun p => p.noticeBoundary
  | .noticeProfileLoad => fun p => p.noticeProfile
  | .noticeLoadStart => fun p => p.noticeLoadTold
  | .noticeLoadComplete bus => fun p => p.completeNoticeLoad bus
  | .chimeRequest => fun p => p.chimeRequested
  | .tonePartEnd => fun p => p.tonePartEnded
  | .composerJourneyEvent => fun p => p.composerJourney
  | .progressEvent => fun p => p.composerProgress
  | .seatModuleMark => fun p => p.composerModule
  | .selectionMark => fun p => p.composerSelection
  | .composerSweepMark => fun p => p.composerBoundary
  | .composerProfileLoad => fun p => p.composerProfile
  | .panelOnlineMark => fun p => p.composerOnline
  | .panelOffline => fun p => p.composerOffline
  | .compositionBegin bus => fun p => p.beginComposition bus
  | .elementBegin bus => fun p => p.beginElement bus
  | .glyphDecodeEnd bus => fun p => p.endGlyph bus
  | .compositionComplete => fun p => p.completeComposition
  | .loadExchange line => fun p => p.beginLoadExchange line
  | .addressedShow line => fun p => p.beginShowExchange line
  | .broadcastShow line => fun p => p.beginBroadcast line
  | .queryExchange line => fun p => p.beginQuery line
  | .frameSent line => fun p => p.frameSent line
  | .reply line chars => fun p => p.replyEnded line chars
  | .replyTimeout line chars => fun p => p.replyEnded line chars
  | .cutOffQuietEnd line => fun p => p.setLine line ((p.line line).quietEnd p.swp.us)
  | .lineSweepAgeing line => fun p => p.lineBoundary line
  | .holdLimitReached line group => fun p => p.holdReached line group
  | .idleCountFull line address => fun p => p.setLine line ((p.line line).changePanel address Panel.idleFull)
  | .probeCountdownEnd line address => fun p => p.setLine line ((p.line line).changePanel address Panel.probeEnd)
  | .lineProfileLoad line => fun p => p.lineProfile line
  | .sweepBoundary => fun p => p.ownBoundary
  | .sweepPulseEnd => fun p => { p with swp := p.swp.endSweepPulse }
  | .leadPulseEnd => fun p => { p with swp := p.swp.endLeadPulse }
  | .tsyncRisingEdge => fun p => p.tsyncRise
  | .tsyncTrailingEdge => fun p => p.tsyncFall
  | .syncSilenceExpiry => fun p => p.loseLeader
  | .sweepProfileLoad => fun p => p.sweepProfile
  | .boundaryOperation bus => fun p => p.boundaryOperation bus
  | .switchCompletion kind bus => fun p => p.completeSwitch kind bus
  | .switchRefusal kind bus => fun p => p.failSwitch kind bus
  | .statusPageWrite bus reach => fun p => p.pageBoundary bus reach
  | .statusPageWriteDone bus => fun p => p.endPage bus
  | .runSet value => fun p => p.portWrite 1 (setBit (clearBit value 1) 0)
  | .runClear value => fun p => p.portWrite 1 (clearBit (clearBit value 1) 0)
  | .engineReset value => fun p => p.portWrite 1 (setBit value 1)
  | .freezeSet value => fun p => p.portWrite 1 (setBit (clearBit value 1) 2)
  | .freezeClear value => fun p => p.portWrite 1 (clearBit (clearBit value 1) 2)
  | .windowBaseWrite value => fun p => p.portWrite 2 value
  | .attentionWrite value => fun p => p.portWrite 3 value
  | .attentionEnableWrite value => fun p => p.portWrite 4 value
  | .ignoredRegisterWrite number value => fun p => if ignoredRegisterWf number then p.portWrite number value else p
  | .quietTimeStartBit line => fun p => p.setLine line ((p.line line).quietAgain p.swp.us)

/-- `exec` runs the command's effect. -/
theorem exec_eq_effectOf (c : Instr) (s : State) : exec c s = s.onPart (effectOf c) := by
  cases c <;> rfl

/-- A step runs one command, or lets one us pass. -/
theorem step_cases {s t : State} (h : step s = .next t) :
    (∃ c, t.part = effectOf c s.part) ∨ t.part = s.part.tick := by
  have run (c : Instr) (q : List Instr) (hq : exec c { s with pending := q } = .next t) :
      t.part = effectOf c s.part := by
    rw [exec_eq_effectOf, State.onPart_next] at hq
    rw [hq]
  unfold step idle at h
  split at h
  · next c rest _ => exact .inl ⟨c, run c rest h⟩
  · split at h
    · next c _ => exact .inl ⟨c, run c s.pending h⟩
    · exact .inr (congrArg State.part (Host.Outcome.next.inj h)).symm

/-- A law that every command's effect and the tick keep, every step keeps. -/
theorem step_keeps {law : Part → Prop} (he : ∀ (c : Instr) (p : Part), law p → law (effectOf c p))
    (ht : ∀ p : Part, law p → law p.tick) (s t : State) (h : step s = .next t) (hs : law s.part) : law t.part := by
  rcases step_cases h with ⟨c, hc⟩ | hc
  · rw [hc]; exact he c _ hs
  · rw [hc]; exact ht _ hs

/-! ### The registers' limits -/

/-- All four limits of O7 that a part meets, another meets too. -/
structure Part.LimitsPass (p q : Part) : Prop where
  odo : p.odo.limits → q.odo.limits
  active : activeLimits p.ntc.active → activeLimits q.ntc.active
  cmp : p.cmp.limits → q.cmp.limits
  window : windowLimits p.regs.windowBase p.ed.take → windowLimits q.regs.windowBase q.ed.take

theorem Part.powerOn_limits (p : Part) : p.LimitsPass p.powerOn where
  odo _ := Odometer.reset_limits
  active _ := activeLimits_nil
  cmp _ := Composer.reset_limits
  window _ := ⟨BitVec.zero_and, Nat.succ_pos 63⟩

/-- R190: engine reset keeps WINDOW_BASE. -/
theorem Part.engineReset_limits (p : Part) : p.LimitsPass p.engineReset where
  odo _ := Odometer.reset_limits
  active _ := activeLimits_nil
  cmp _ := Composer.reset_limits
  window h := ⟨h.1, Nat.succ_pos 63⟩

theorem Part.writeControl_limits (p : Part) (v : Word) : p.LimitsPass (p.writeControl v) := by
  unfold Part.writeControl
  split
  · exact p.engineReset_limits
  · exact ⟨fun h => by simpa using h, fun h => by simpa using h, fun h => by simpa using Part.writeRun_limits h _,
      fun h => by simpa using h⟩

theorem Part.writeWindowBase_limits (p : Part) (v : Word) : p.LimitsPass (p.writeWindowBase v) := by
  unfold Part.writeWindowBase
  split
  · exact ⟨id, id, id, id⟩
  · exact ⟨id, id, id, fun h => windowLimits_written h v⟩

theorem Part.writeRegister_limits (p : Part) (n : Nat) (v : Word) : p.LimitsPass (p.writeRegister n v) := by
  unfold Part.writeRegister
  split
  · exact p.writeControl_limits v
  · exact p.writeWindowBase_limits v
  · exact ⟨id, id, id, id⟩
  · exact ⟨id, id, id, id⟩
  · exact ⟨id, id, id, id⟩

/-- R193: a register write on the port leaves the limits that the register's write leaves. -/
theorem Part.portWrite_limits (p : Part) {n : Nat} (hn : n < 8) (v : Word) : p.LimitsPass (p.portWrite n v) := by
  obtain ⟨hodo, hactive, hcmp, hwindow⟩ := p.writeRegister_limits n v
  rw [Part.portWrite_eq p hn]
  exact ⟨hodo, hactive, hcmp, hwindow⟩

theorem Part.ignoredWrite_limits (p : Part) (n : Nat) (v : Word) :
    p.LimitsPass (effectOf (.ignoredRegisterWrite n v) p) := by
  unfold effectOf
  dsimp only
  split
  · next hn =>
    refine p.portWrite_limits ?_ v
    simp only [ignoredRegisterWf, Bool.or_eq_true, Bool.and_eq_true, decide_eq_true_eq] at hn
    omega
  · exact ⟨id, id, id, id⟩

/-! ### The laws, command by command

The commands named are those that reach what the law speaks of; the frames of the others leave it. -/

/-- R7, R15: the odometer, and those that make requests of it, the tracker and the notice scheduler. -/
theorem effectOf_odometer (c : Instr) (p : Part) (h : p.odo.limits) : (effectOf c p).odo.limits := by
  cases c with
  | powerOnReset => exact p.powerOn_limits.odo h
  | wheelEdge rising => exact Part.takeEdge_limits h rising
  | capture => exact Part.captureEdge_limits h
  | silenceSample => exact Part.takeSilence_limits h
  | doorSample level => exact Part.takeDoorSample_limits h level
  | odometerProfileLoad => exact Part.odometerProfile_limits h
  | runSet value | runClear value | engineReset value | freezeSet value | freezeClear value | windowBaseWrite value
  | attentionWrite value | attentionEnableWrite value => exact (p.portWrite_limits (by decide) _).odo h
  | ignoredRegisterWrite n value => exact (p.ignoredWrite_limits n value).odo h
  | _ => simp [effectOf, h]

/-- R95: the notice scheduler. -/
theorem effectOf_notices (c : Instr) (p : Part) (h : activeLimits p.ntc.active) :
    activeLimits (effectOf c p).ntc.active := by
  cases c with
  | powerOnReset => exact p.powerOn_limits.active h
  | runSet value | runClear value | engineReset value | freezeSet value | freezeClear value | windowBaseWrite value
  | attentionWrite value | attentionEnableWrite value => exact (p.portWrite_limits (by decide) _).active h
  | ignoredRegisterWrite n value => exact (p.ignoredWrite_limits n value).active h
  | _ => simp [effectOf, h]

/-- R168, R172: the edition unit and the registers. -/
theorem effectOf_window (c : Instr) (p : Part) (h : windowLimits p.regs.windowBase p.ed.take) :
    windowLimits (effectOf c p).regs.windowBase (effectOf c p).ed.take := by
  cases c with
  | powerOnReset => exact p.powerOn_limits.window h
  | boundaryOperation bus => exact Part.boundaryOperation_window h bus
  | amendmentSlotRead bus => exact Part.runDelivery_window h bus
  | runSet value | runClear value | engineReset value | freezeSet value | freezeClear value | windowBaseWrite value
  | attentionWrite value | attentionEnableWrite value => exact (p.portWrite_limits (by decide) _).window h
  | ignoredRegisterWrite n value => exact (p.ignoredWrite_limits n value).window h
  | _ => simpa [effectOf] using h

/-- R114, R123: the composer, and the lines that load its slots. -/
theorem effectOf_composer (c : Instr) (p : Part) (h : p.cmp.limits) : (effectOf c p).cmp.limits := by
  cases c with
  | powerOnReset => exact p.powerOn_limits.cmp h
  | composerJourneyEvent => exact Part.composerJourney_limits h
  | progressEvent => exact Part.composerProgress_limits h
  | seatModuleMark => exact Part.composerModule_limits h
  | selectionMark => exact Part.composerSelection_limits h
  | composerSweepMark => exact Part.composerBoundary_limits h
  | composerProfileLoad => exact Part.composerProfile_limits h
  | panelOnlineMark => exact Part.composerOnline_limits h
  | panelOffline => exact Part.composerOffline_limits h
  | compositionBegin bus => exact Part.beginComposition_limits h bus
  | compositionComplete => exact Part.completeComposition_limits h
  | switchCompletion kind bus => simp [effectOf, h]
  | runSet value | runClear value | engineReset value | freezeSet value | freezeClear value | windowBaseWrite value
  | attentionWrite value | attentionEnableWrite value => exact (p.portWrite_limits (by decide) _).cmp h
  | ignoredRegisterWrite n value => exact (p.ignoredWrite_limits n value).cmp h
  | _ => apply Composer.limits_congr h <;> simp [effectOf]

/-- Settles O7: each law is kept by every command's effect and by the tick. -/
theorem stepKeepsBlockLimits : Obligations.StepKeepsBlockLimits :=
  ⟨step_keeps effectOf_odometer fun _ h => Part.tick_limits h,
    step_keeps effectOf_notices fun _ h => h,
    step_keeps effectOf_composer fun _ h => h,
    step_keeps effectOf_window fun _ h => h⟩

end Sys2Proof.Machine
end

section
/-! PROOF. The tracker (chapter 2): what each of its operations does, said once. -/

namespace Sys2Proof.Machine

/-! ### Reports by the tracker's state (R29 to R32) -/

/-- R31: a motion report at a served stop. -/
theorem Part.judgeMotion_atStop {p : Part} {k : Nat} (h : p.trk.phase = .atStop k) :
    p.judgeMotion = p.testDeparture k := by
  simp only [Part.judgeMotion, h]

/-- R31: a motion report in RUNNING or APPROACHING. -/
theorem Part.judgeMotion_onLeg {p : Part} {k : Nat} (h : p.trk.phase = .running k ∨ p.trk.phase = .approaching k) :
    p.judgeMotion = if p.confirms k then p.confirm k else p.motionOnLeg k := by
  rcases h with h | h <;> simp only [Part.judgeMotion, h]

/-- R32: a motion report in HALTED. -/
theorem Part.judgeMotion_halted {p : Part} {k : Nat} (h : p.trk.phase = .halted k) :
    p.judgeMotion = if p.confirms k then p.confirm k else if p.trk.motion = .moving then p.resume k else p := by
  simp only [Part.judgeMotion, h]

/-- R32: a motion report in DOUBT. -/
theorem Part.judgeMotion_doubt {p : Part} {k : Nat} (h : p.trk.phase = .doubt k) :
    p.judgeMotion = if p.confirms k then p.confirm k else p := by
  simp only [Part.judgeMotion, h]

/-- R35: a motion report in a state without a place. -/
theorem Part.judgeMotion_placeless {p : Part}
    (h : p.trk.phase = .unplaced ∨ p.trk.phase = .ended ∨ p.trk.phase = .lost) :
    p.judgeMotion = p := by
  rcases h with h | h | h <;> simp only [Part.judgeMotion, h]

/-- R29: a door report at a served stop. -/
theorem Part.judgeDoor_atStop {p : Part} {k : Nat} (h : p.trk.phase = .atStop k) :
    p.judgeDoor = if p.trk.door = .released then p.publish .doors (some (codeAt p.trk.view k))
      else p.testDeparture k := by
  simp only [Part.judgeDoor, h]
  cases p.trk.door <;> rfl

/-- R31: a door report in RUNNING or APPROACHING. -/
theorem Part.judgeDoor_onLeg {p : Part} {k : Nat} (h : p.trk.phase = .running k ∨ p.trk.phase = .approaching k) :
    p.judgeDoor = if p.confirms k then p.confirm k else p.doorOnLeg k := by
  rcases h with h | h <;> simp only [Part.judgeDoor, h]

/-- R32: a door report in HALTED. -/
theorem Part.judgeDoor_halted {p : Part} {k : Nat} (h : p.trk.phase = .halted k) :
    p.judgeDoor = if p.confirms k then p.confirm k else if p.trk.door = .released then p.enterDoubt k else p := by
  simp only [Part.judgeDoor, h]
  cases p.trk.door <;> rfl

/-- R32: a door report in DOUBT. -/
theorem Part.judgeDoor_doubt {p : Part} {k : Nat} (h : p.trk.phase = .doubt k) :
    p.judgeDoor = if p.confirms k then p.confirm k
      else if p.trk.door = .released then p
      else if p.trk.motion = .moving then p.resume k else p.enterHalted k := by
  simp only [Part.judgeDoor, h]
  cases p.trk.door <;> cases p.trk.motion <;> rfl

/-- R35: a door report in a state without a place. -/
theorem Part.judgeDoor_placeless {p : Part} (h : p.trk.phase = .unplaced ∨ p.trk.phase = .ended ∨ p.trk.phase = .lost) :
    p.judgeDoor = p := by
  rcases h with h | h | h <;> simp only [Part.judgeDoor, h]

/-- R28: an APPROACH mark in RUNNING. -/
theorem Part.takeApproach_running {p : Part} {k : Nat} (h : p.trk.phase = .running k) :
    p.takeApproach = (p.enter (.approaching k)).publish .approach none := by
  simp only [Part.takeApproach, h]

/-- R28: an APPROACH mark in another leg state. -/
theorem Part.takeApproach_onLeg {p : Part} {k : Nat} (h : p.trk.phase.runLeg = some k) (hr : p.trk.phase ≠ .running k) :
    p.takeApproach = p.publish .approach none := by
  unfold Part.takeApproach
  cases hp : p.trk.phase <;> simp_all [Phase.runLeg]

/-- R28: an APPROACH mark in a state without a leg. -/
theorem Part.takeApproach_legless {p : Part} (h : p.trk.phase.runLeg = none) : p.takeApproach = p := by
  unfold Part.takeApproach
  cases hp : p.trk.phase <;> simp_all [Phase.runLeg]

/-- R28: a PASS mark in RUNNING or APPROACHING. -/
theorem Part.takePass_onLeg {p : Part} {k : Nat} (h : p.trk.phase = .running k ∨ p.trk.phase = .approaching k) :
    p.takePass = if p.trk.motion = .moving then p.passOrOverrun k else p.setPassDue := by
  rcases h with h | h <;> simp only [Part.takePass, h]

/-- R28: a PASS mark in HALTED or DOUBT. -/
theorem Part.takePass_standing {p : Part} {k : Nat} (h : p.trk.phase = .halted k ∨ p.trk.phase = .doubt k) :
    p.takePass = p.setPassDue := by
  rcases h with h | h <;> simp only [Part.takePass, h]

/-- R28: a PASS mark in a state without a leg. -/
theorem Part.takePass_legless {p : Part} (h : p.trk.phase.runLeg = none) : p.takePass = p := by
  unfold Part.takePass
  cases hp : p.trk.phase <;> simp_all [Phase.runLeg]

end Sys2Proof.Machine
end

section
/-! PROOF. The tracker's law of O8 (R25): the current leg is one of the served view. -/

namespace Sys2Proof.Machine

/-! ### The law as a bound -/

/-- How many served stops the view must have for a tracker state to stand in it (R25). -/
def Phase.stopsNeeded : Phase → Nat
  | .atStop k => k + 1
  | .running k => k + 2
  | .approaching k => k + 2
  | .halted k => k + 2
  | .doubt k => k + 2
  | .unplaced => 0
  | .ended => 0
  | .lost => 0

@[simp] theorem Phase.stopsNeeded_atStop (k : Nat) : (Phase.atStop k).stopsNeeded = k + 1 := rfl
@[simp] theorem Phase.stopsNeeded_running (k : Nat) : (Phase.running k).stopsNeeded = k + 2 := rfl
@[simp] theorem Phase.stopsNeeded_approaching (k : Nat) : (Phase.approaching k).stopsNeeded = k + 2 := rfl
@[simp] theorem Phase.stopsNeeded_halted (k : Nat) : (Phase.halted k).stopsNeeded = k + 2 := rfl
@[simp] theorem Phase.stopsNeeded_doubt (k : Nat) : (Phase.doubt k).stopsNeeded = k + 2 := rfl
@[simp] theorem Phase.stopsNeeded_unplaced : Phase.unplaced.stopsNeeded = 0 := rfl
@[simp] theorem Phase.stopsNeeded_ended : Phase.ended.stopsNeeded = 0 := rfl
@[simp] theorem Phase.stopsNeeded_lost : Phase.lost.stopsNeeded = 0 := rfl

/-- R25 as a bound on the tracker state. -/
theorem Part.trackerLaw_iff (p : Part) : p.trackerLaw ↔ p.trk.phase.stopsNeeded ≤ p.trk.view.length := by
  unfold Part.trackerLaw
  cases p.trk.phase <;> simp [Phase.runLeg] <;> omega

/-- The law speaks of the tracker state and the served view alone. -/
theorem Part.trackerLaw_congr {p q : Part} (h : p.trackerLaw) (hphase : q.trk.phase = p.trk.phase)
    (hview : q.trk.view = p.trk.view) : q.trackerLaw := by
  rw [Part.trackerLaw_iff] at h ⊢
  rwa [hphase, hview]

theorem Part.trackerLaw_of_trk {p q : Part} (h : p.trackerLaw) (htrk : q.trk = p.trk) : q.trackerLaw :=
  Part.trackerLaw_congr h (congrArg (·.phase) htrk) (congrArg (·.view) htrk)

/-! ### The tracker state after each move (R29 to R34) -/

@[simp] theorem Part.enter_phase (p : Part) (x : Phase) : (p.enter x).trk.phase = x := rfl

@[simp] theorem Part.depart_phase (p : Part) (k : Nat) :
    (p.depart k).trk.phase = if k + 1 < p.trk.view.length then .running k else .ended := by
  unfold Part.depart
  split <;> simp

@[simp] theorem Part.confirm_phase (p : Part) (k : Nat) : (p.confirm k).trk.phase = .atStop (k + 1) := by
  simp [Part.confirm]

/-- R30: a confirmed stop is the served stop at the end of the leg. -/
theorem Part.confirm_inView {p : Part} {k : Nat} (h : k + 2 ≤ p.trk.view.length) :
    (p.confirm k).trk.phase.stopsNeeded ≤ p.trk.view.length := by
  rw [Part.confirm_phase]
  exact h

@[simp] theorem Part.enterDoubt_phase (p : Part) (k : Nat) : (p.enterDoubt k).trk.phase = .doubt k := by
  simp [Part.enterDoubt]

@[simp] theorem Part.enterHalted_phase (p : Part) (k : Nat) : (p.enterHalted k).trk.phase = .halted k := by
  simp [Part.enterHalted]

@[simp] theorem Part.runningOrApproaching_stopsNeeded (p : Part) (k : Nat) :
    (p.runningOrApproaching k).stopsNeeded = k + 2 := by
  unfold Part.runningOrApproaching
  split <;> rfl

/-- R33, R34: a pass enters the next leg only where there is one. -/
@[simp] theorem Part.passOrOverrun_inView (p : Part) (k : Nat) :
    (p.passOrOverrun k).trk.phase.stopsNeeded ≤ p.trk.view.length := by
  unfold Part.passOrOverrun
  split
  · next h => simp [Part.passStop]; omega
  · simp [Part.overrun]

@[simp] theorem Part.takePassDue_inView (p : Part) (k : Nat) :
    (p.takePassDue k).trk.phase.stopsNeeded ≤ p.trk.view.length := by
  exact Part.passOrOverrun_inView { p with trk := { p.trk with passDue := false } } k

/-- R32: a resume stays on the leg, or takes the pass that is due. -/
theorem Part.resume_inView {p : Part} {k : Nat} (h : k + 2 ≤ p.trk.view.length) :
    (p.resume k).trk.phase.stopsNeeded ≤ p.trk.view.length := by
  unfold Part.resume
  split
  · exact p.takePassDue_inView k
  · simpa using h

/-! ### Reports, marks and remaps keep the law -/

theorem Part.testDeparture_inView {p : Part} {k : Nat} (hp : p.trk.phase = .atStop k)
    (h : k + 1 ≤ p.trk.view.length) : (p.testDeparture k).trk.phase.stopsNeeded ≤ p.trk.view.length := by
  unfold Part.testDeparture
  split
  · rw [Part.depart_phase]
    split
    · assumption
    · exact Nat.zero_le _
  · simpa [hp] using h

theorem Part.motionOnLeg_inView {p : Part} {k : Nat} (hp : p.trk.phase.stopsNeeded = k + 2)
    (h : k + 2 ≤ p.trk.view.length) : (p.motionOnLeg k).trk.phase.stopsNeeded ≤ p.trk.view.length := by
  unfold Part.motionOnLeg
  (repeat' split) <;> simp [hp, h]

theorem Part.doorOnLeg_inView {p : Part} {k : Nat} (hp : p.trk.phase.stopsNeeded = k + 2)
    (h : k + 2 ≤ p.trk.view.length) : (p.doorOnLeg k).trk.phase.stopsNeeded ≤ p.trk.view.length := by
  unfold Part.doorOnLeg
  split <;> simp [hp, h]

/-- R29 to R32: a motion report keeps the law. -/
theorem Part.judgeMotion_trackerLaw {p : Part} (h : p.trackerLaw) : p.judgeMotion.trackerLaw := by
  obtain ⟨hstop, hleg⟩ := h
  rw [Part.trackerLaw_iff]
  simp only [Part.judgeMotion_keeps]
  cases hp : p.trk.phase with
  | atStop k =>
    rw [Part.judgeMotion_atStop hp]
    exact Part.testDeparture_inView hp (hstop k hp)
  | running k =>
    have hk := hleg k (by rw [hp]; rfl)
    rw [Part.judgeMotion_onLeg (.inl hp)]
    split
    · exact Part.confirm_inView hk
    · exact Part.motionOnLeg_inView (by rw [hp]; rfl) hk
  | approaching k =>
    have hk := hleg k (by rw [hp]; rfl)
    rw [Part.judgeMotion_onLeg (.inr hp)]
    split
    · exact Part.confirm_inView hk
    · exact Part.motionOnLeg_inView (by rw [hp]; rfl) hk
  | halted k =>
    have hk := hleg k (by rw [hp]; rfl)
    rw [Part.judgeMotion_halted hp]
    split
    · exact Part.confirm_inView hk
    · split
      · exact Part.resume_inView hk
      · rw [hp]; exact hk
  | doubt k =>
    have hk := hleg k (by rw [hp]; rfl)
    rw [Part.judgeMotion_doubt hp]
    split
    · exact Part.confirm_inView hk
    · rw [hp]; exact hk
  | unplaced => simp [Part.judgeMotion_placeless (.inl hp), hp]
  | ended => simp [Part.judgeMotion_placeless (.inr (.inl hp)), hp]
  | lost => simp [Part.judgeMotion_placeless (.inr (.inr hp)), hp]

/-- R29 to R32: a door report keeps the law. -/
theorem Part.judgeDoor_trackerLaw {p : Part} (h : p.trackerLaw) : p.judgeDoor.trackerLaw := by
  obtain ⟨hstop, hleg⟩ := h
  rw [Part.trackerLaw_iff]
  simp only [Part.judgeDoor_keeps]
  cases hp : p.trk.phase with
  | atStop k =>
    rw [Part.judgeDoor_atStop hp]
    split
    · simpa [hp] using hstop k hp
    · exact Part.testDeparture_inView hp (hstop k hp)
  | running k =>
    have hk := hleg k (by rw [hp]; rfl)
    rw [Part.judgeDoor_onLeg (.inl hp)]
    split
    · exact Part.confirm_inView hk
    · exact Part.doorOnLeg_inView (by rw [hp]; rfl) hk
  | approaching k =>
    have hk := hleg k (by rw [hp]; rfl)
    rw [Part.judgeDoor_onLeg (.inr hp)]
    split
    · exact Part.confirm_inView hk
    · exact Part.doorOnLeg_inView (by rw [hp]; rfl) hk
  | halted k =>
    have hk := hleg k (by rw [hp]; rfl)
    rw [Part.judgeDoor_halted hp]
    split
    · exact Part.confirm_inView hk
    · split
      · rw [Part.enterDoubt_phase]; exact hk
      · rw [hp]; exact hk
  | doubt k =>
    have hk := hleg k (by rw [hp]; rfl)
    rw [Part.judgeDoor_doubt hp]
    split
    · exact Part.confirm_inView hk
    · split
      · rw [hp]; exact hk
      · split
        · exact Part.resume_inView hk
        · rw [Part.enterHalted_phase]; exact hk
  | unplaced => simp [Part.judgeDoor_placeless (.inl hp), hp]
  | ended => simp [Part.judgeDoor_placeless (.inr (.inl hp)), hp]
  | lost => simp [Part.judgeDoor_placeless (.inr (.inr hp)), hp]

theorem Part.takeMotionChange_trackerLaw {p : Part} (h : p.trackerLaw) : p.takeMotionChange.trackerLaw := by
  unfold Part.takeMotionChange
  split
  · exact h
  · exact Part.judgeMotion_trackerLaw h

theorem Part.takeDoorChange_trackerLaw {p : Part} (h : p.trackerLaw) : p.takeDoorChange.trackerLaw := by
  unfold Part.takeDoorChange
  split
  · exact h
  · exact Part.judgeDoor_trackerLaw h

/-- R30: a distance advanced event may confirm the stop at the leg's end, which the view holds. -/
theorem Part.judgeDistance_trackerLaw {p : Part} (h : p.trackerLaw) : p.judgeDistance.trackerLaw := by
  unfold Part.judgeDistance
  split
  · exact h
  · next k hk =>
    dsimp only
    split
    · obtain ⟨-, hleg⟩ := h
      rw [Part.trackerLaw_iff, Part.confirm_phase]
      simpa using hleg k hk
    · exact h

theorem Part.takeDistanceAdvanced_trackerLaw {p : Part} (h : p.trackerLaw) : p.takeDistanceAdvanced.trackerLaw := by
  unfold Part.takeDistanceAdvanced
  split
  · exact Part.judgeDistance_trackerLaw h
  · exact h

/-- R28: an APPROACH mark stays on the leg. -/
theorem Part.takeApproach_trackerLaw {p : Part} (h : p.trackerLaw) : p.takeApproach.trackerLaw := by
  rw [Part.trackerLaw_iff] at h ⊢
  cases hk : p.trk.phase.runLeg with
  | none => rwa [Part.takeApproach_legless hk]
  | some k =>
    by_cases hr : p.trk.phase = .running k
    · rw [Part.takeApproach_running hr]
      simpa [hr] using h
    · rw [Part.takeApproach_onLeg hk hr]
      simpa using h

/-- R28: a PASS mark leads into the next leg, to LOST, or is due. -/
theorem Part.takePass_trackerLaw {p : Part} (h : p.trackerLaw) : p.takePass.trackerLaw := by
  rw [Part.trackerLaw_iff] at h ⊢
  simp only [Part.takePass_keeps]
  unfold Part.takePass
  split
  · split
    · exact p.passOrOverrun_inView _
    · exact h
  · split
    · exact p.passOrOverrun_inView _
    · exact h
  all_goals exact h

theorem Part.takeTrackerMark_trackerLaw {p : Part} (h : p.trackerLaw) : p.takeTrackerMark.trackerLaw := by
  unfold Part.takeTrackerMark Part.judgeMark
  split
  · split
    · split
      · exact Part.takeApproach_trackerLaw h
      · exact h
    · split
      · exact Part.takePass_trackerLaw h
      · exact h
    · exact h
  · exact h

/-! ### Remaps and placements -/

/-- The served index of a code is an index of the view. -/
theorem indexOfCode_lt {view : List ServedStop} {code j : Nat} (h : indexOfCode view code = some j) :
    j < view.length := by
  obtain ⟨⟨x, hx, -⟩, -⟩ := (findIndex_some _ _ _).mp h
  exact (List.getElem?_eq_some_iff.mp hx).1

/-- R40: a remap that finds the reference code stands in the view where it found it. -/
theorem Part.remapFound_inView {p : Part} {j : Nat} (hj : j < p.trk.view.length) (hp : p.trk.phase.leg ≠ none) :
    (p.remapFound j).trk.phase.stopsNeeded ≤ p.trk.view.length := by
  unfold Part.remapFound
  cases hx : p.trk.phase with
  | atStop k => simpa using hj
  | running k | approaching k | halted k | doubt k =>
    dsimp only
    split
    · simp; omega
    · simp
  | unplaced | ended | lost => simp [hx, Phase.leg] at hp

/-- A state without a place needs no served stop. -/
theorem Phase.stopsNeeded_of_leg {x : Phase} (h : x.leg = none) : x.stopsNeeded = 0 := by
  cases x <;> simp_all [Phase.leg]

/-- R40: after a remap the law holds of the served view that then stands, whatever stood before. -/
theorem Part.remap_trackerLaw (p : Part) (old : List ServedStop) : (p.remap old).trackerLaw := by
  rw [Part.trackerLaw_iff]
  simp only [Part.remap_keeps]
  unfold Part.remap
  split
  · next h => simp [h]
  · split
    · simp [Part.remapLost]
    · split
      · next h => simp [Phase.stopsNeeded_of_leg h]
      · next k h =>
        split
        · simp [Part.remapLost]
        · next j hj => exact Part.remapFound_inView (indexOfCode_lt hj) (by simp [h])

/-- R24: a profile at the tracker re-arms, or remaps. -/
theorem Part.trackerProfile_trackerLaw {p : Part} (h : p.trackerLaw) : p.trackerProfile.trackerLaw := by
  unfold Part.trackerProfile Part.applyTrackerProfile
  split
  · exact h
  · dsimp only
    split
    · exact Part.remap_trackerLaw _ _
    · split
      · split
        · exact h
        · exact Part.trackerLaw_congr h (by simp) (by simp)
      · exact h

/-- R22: a load's completion remaps where it replaces the store. -/
theorem Part.completeStopLoad_trackerLaw {p : Part} (h : p.trackerLaw) (bus : Bus) :
    (p.completeStopLoad bus).trackerLaw := by
  unfold Part.completeStopLoad
  split
  · dsimp only
    split
    · exact Part.trackerLaw_congr h (by simp) (by simp)
    · exact Part.remap_trackerLaw _ _
  · exact h
  · exact h

/-- R36: a placement at a served stop of the view. -/
theorem Part.placeAtStop_trackerLaw {p : Part} {j : Nat} (hj : j < p.trk.view.length) :
    (p.placeAtStop j).trackerLaw := by
  refine Part.judgeDoor_trackerLaw (Part.judgeMotion_trackerLaw ?_)
  rw [Part.trackerLaw_iff]
  simpa using hj

/-- R37: a placement in a leg of the view. -/
theorem Part.placeInLeg_trackerLaw {p : Part} {j : Nat} (hj : j + 1 < p.trk.view.length) (metres : Nat) :
    (p.placeInLeg j metres).trackerLaw := by
  refine Part.judgeMotion_trackerLaw ?_
  rw [Part.trackerLaw_iff]
  simp
  omega

theorem Part.answerPosition_trackerLaw {p : Part} (h : p.trackerLaw) (r : PositionRequest) :
    (p.answerPosition r).1.trackerLaw := by
  unfold Part.answerPosition Part.answerPlaceAtStop Part.answerPlaceInLeg
  split
  · split
    · exact h
    · split
      · exact h
      · next j hj => exact Part.placeAtStop_trackerLaw (indexOfCode_lt hj)
  · split
    · exact h
    · split
      · exact h
      · next j hj =>
        have := indexOfCode_lt hj
        split
        · exact h
        · exact Part.placeInLeg_trackerLaw (by omega) _
  · rw [Part.trackerLaw_iff]
    simp [Part.unplaceCoach]

/-- R183: the position write leaves the tracker. -/
theorem Part.positionWrite_trackerLaw (p : Part) (bus : Bus) (r : PositionResult) :
    (p.positionWrite bus r).trackerLaw ↔ p.trackerLaw := by
  simp [Part.trackerLaw]

theorem Part.takePosition_trackerLaw {p : Part} (h : p.trackerLaw) (kind : PositionKind) (bus : Bus) :
    (p.takePosition kind bus).trackerLaw := by
  unfold Part.takePosition
  split
  · exact h
  · split
    · dsimp only
      rw [Part.positionWrite_trackerLaw]
      refine Part.answerPosition_trackerLaw ?_ _
      exact Part.trackerLaw_congr h rfl rfl
    · exact h

/-! ### What the other blocks leave of the tracker -/

@[simp] theorem Part.beginLoad_trk (p : Part) (k : Kind) (l : LoadState) : (p.beginLoad k l).1.trk = p.trk := by
  unfold Part.beginLoad
  dsimp only
  split
  · split <;> simp
  · simp

@[simp] theorem Part.startStopLoad_place (p : Part) :
    p.startStopLoad.trk.phase = p.trk.phase ∧ p.startStopLoad.trk.view = p.trk.view := by
  simp [Part.startStopLoad]

@[simp] theorem Part.stopLoadTold_place (p : Part) :
    p.stopLoadTold.trk.phase = p.trk.phase ∧ p.stopLoadTold.trk.view = p.trk.view := by
  unfold Part.stopLoadTold
  split <;> simp

@[simp] theorem Part.trackerBoundary_place (p : Part) :
    p.trackerBoundary.trk.phase = p.trk.phase ∧ p.trackerBoundary.trk.view = p.trk.view := by
  unfold Part.trackerBoundary
  split
  · simp
  · dsimp only
    split <;> simp

@[simp] theorem Part.seatLoadTold_trk (p : Part) : p.seatLoadTold.trk = p.trk := by
  unfold Part.seatLoadTold Part.startSeatLoad
  split <;> simp

@[simp] theorem Part.reservationBoundary_trk (p : Part) : p.reservationBoundary.trk = p.trk := by
  unfold Part.reservationBoundary Part.startSeatLoad
  split
  · simp
  · dsimp only
    split <;> simp

@[simp] theorem Part.startNoticeLoad_trk (p : Part) : p.startNoticeLoad.trk = p.trk := by
  simp [Part.startNoticeLoad]

@[simp] theorem Part.noticeLoadTold_trk (p : Part) : p.noticeLoadTold.trk = p.trk := by
  unfold Part.noticeLoadTold
  split <;> simp

@[simp] theorem countEntries_trk (store : List NoticeDef) (xs : List NoticeEntry) (p : Part) :
    (countEntries store xs p).2.trk = p.trk := by
  induction xs generalizing p with
  | nil => rfl
  | cons x rest ih =>
    unfold countEntries
    split
    · exact ih p
    · dsimp only
      split <;> simp [ih]

@[simp] theorem Part.countDown_trk (p : Part) : p.countDown.trk = p.trk := by
  simp [Part.countDown]

@[simp] theorem Part.noticeBoundary_trk (p : Part) : p.noticeBoundary.trk = p.trk := by
  unfold Part.noticeBoundary
  split
  · simp
  · dsimp only
    split <;> simp

/-- R76: an amendment leaves the tracker, where its judgement does. -/
theorem Part.takeAmendment_trk {judge : Part → Amendment → Part × AmendResult}
    (hj : ∀ p a, (judge p a).1.trk = p.trk) (p : Part) (isMine : Nat → Bool) :
    (p.takeAmendment isMine judge).trk = p.trk := by
  have answer (a : Amendment) : (p.answerAmendment judge a).1.trk = p.trk := by
    unfold Part.answerAmendment
    (repeat' split) <;> simp [hj]
  unfold Part.takeAmendment
  split
  · rfl
  · split
    · split <;> simp [answer]
    · rfl
    · rfl

@[simp] theorem Part.addSegment_trk (p : Part) (q : Seat) (kind : SegKind) (a : Amendment) :
    (p.addSegment q kind a).1.trk = p.trk := by
  unfold Part.addSegment
  dsimp only
  (repeat' split) <;> simp

@[simp] theorem Part.cancelSegment_trk (p : Part) (q : Seat) (kind : SegKind) (a : Amendment) :
    (p.cancelSegment q kind a).1.trk = p.trk := by
  unfold Part.cancelSegment
  split <;> simp

/-- A record judged on its seat leaves the tracker, where the action does. -/
theorem Part.judgeOnSeat_trk {act : Part → Seat → SegKind → Amendment → Part × AmendResult}
    (ha : ∀ p q kind a, (act p q kind a).1.trk = p.trk) (p : Part) (a : Amendment) :
    (p.judgeOnSeat act a).1.trk = p.trk := by
  unfold Part.judgeOnSeat
  split
  · rfl
  · split
    · rfl
    · exact ha _ _ _ _

@[simp] theorem Part.judgeClear_trk (p : Part) (a : Amendment) : (p.judgeClear a).1.trk = p.trk := by
  unfold Part.judgeClear
  split <;> simp

@[simp] theorem Part.judgeInvalid_trk (p : Part) (a : Amendment) : (p.judgeInvalid a).1.trk = p.trk := rfl

@[simp] theorem Part.requestBack_trk (p : Part) (bus : Bus) (k : Kind) (request : Nat) :
    (p.requestBack bus k request).1.trk = p.trk := by
  unfold Part.requestBack
  split <;> simp

@[simp] theorem Part.completionWrite_trk (p : Part) (bus : Bus) (k : Kind) (request : Nat) :
    (p.completionWrite bus k request).trk = p.trk := by
  simp [Part.completionWrite]

@[simp] theorem Part.makeOwed_trk (bus : Bus) (p : Part) (w : OwedWrite) : (Part.makeOwed bus p w).trk = p.trk := by
  cases w <;> simp [Part.makeOwed]

@[simp] theorem Part.makeAllOwed_trk (p : Part) (bus : Bus) : (p.makeAllOwed bus).trk = p.trk :=
  foldl_keeps (·.trk) _ (fun q w => Part.makeOwed_trk bus q w) _ _

@[simp] theorem Part.takeRequest_trk (head : List Byte) (x : Part × List Kind) (k : Kind) :
    (Part.takeRequest head x k).1.trk = x.1.trk := by
  unfold Part.takeRequest
  dsimp only
  (repeat' split) <;> simp

@[simp] theorem Part.takeRequests_trk (p : Part) (bus : Bus) (head : List Byte) :
    (p.takeRequests bus head).trk = p.trk := by
  have fold (ks : List Kind) (x : Part × List Kind) : (ks.foldl (Part.takeRequest head) x).1.trk = x.1.trk := by
    induction ks generalizing x with
    | nil => rfl
    | cons k rest ih => simp only [List.foldl_cons, ih, Part.takeRequest_trk]
  simp [Part.takeRequests, fold]

@[simp] theorem Part.readHead_place (p : Part) (bus : Bus) :
    (p.readHead bus).trk.phase = p.trk.phase ∧ (p.readHead bus).trk.view = p.trk.view := by
  unfold Part.readHead
  split
  · simp
  · split <;> simp

@[simp] theorem Part.boundaryOperation_place (p : Part) (bus : Bus) :
    (p.boundaryOperation bus).trk.phase = p.trk.phase ∧ (p.boundaryOperation bus).trk.view = p.trk.view := by
  unfold Part.boundaryOperation
  split <;> simp

@[simp] theorem Part.finishSwitch_trk (p : Part) (bus : Bus) (k : Kind) (w : Switch) :
    (p.finishSwitch bus k w).trk = p.trk := by
  unfold Part.finishSwitch
  split <;> simp

@[simp] theorem Part.completeSwitch_place (p : Part) (k : Kind) (bus : Bus) :
    (p.completeSwitch k bus).trk.phase = p.trk.phase ∧ (p.completeSwitch k bus).trk.view = p.trk.view := by
  unfold Part.completeSwitch Part.passSwitch
  split
  · simp
  · split <;> simp

@[simp] theorem Part.failSwitch_trk (p : Part) (k : Kind) (bus : Bus) : (p.failSwitch k bus).trk = p.trk := by
  unfold Part.failSwitch Part.refuseSwitch Part.reportReject
  split
  · rfl
  · split
    · rfl
    · dsimp only
      split <;> simp

/-- R190: after a reset no coach is placed. -/
theorem Part.writeControl_trackerLaw {p : Part} (h : p.trackerLaw) (v : Word) : (p.writeControl v).trackerLaw := by
  unfold Part.writeControl
  split
  · rw [Part.trackerLaw_iff]
    exact Nat.zero_le _
  · exact Part.trackerLaw_congr h (by simp) (by simp)

theorem Part.writeRegister_trackerLaw {p : Part} (h : p.trackerLaw) (n : Nat) (v : Word) :
    (p.writeRegister n v).trackerLaw := by
  unfold Part.writeRegister
  split
  · exact Part.writeControl_trackerLaw h v
  all_goals exact Part.trackerLaw_congr h (by simp) (by simp)

/-- R193: a register write on the port leaves the law where the register's write does. -/
theorem Part.portWrite_trackerLaw {p : Part} (h : p.trackerLaw) {n : Nat} (hn : n < 8) (v : Word) :
    (p.portWrite n v).trackerLaw := by
  rw [Part.portWrite_eq p hn]
  exact Part.writeRegister_trackerLaw h n v

theorem Part.ignoredWrite_trackerLaw {p : Part} (h : p.trackerLaw) (n : Nat) (v : Word) :
    (effectOf (.ignoredRegisterWrite n v) p).trackerLaw := by
  unfold effectOf
  dsimp only
  split
  · next hn =>
    refine Part.portWrite_trackerLaw h ?_ v
    simp only [ignoredRegisterWf, Bool.or_eq_true, Bool.and_eq_true, decide_eq_true_eq] at hn
    omega
  · exact h

/-- R25, command by command: those named reach the tracker's state or its view; the frames of the others leave both. -/
theorem effectOf_tracker (c : Instr) (p : Part) (h : p.trackerLaw) : (effectOf c p).trackerLaw := by
  cases c with
  | powerOnReset =>
    rw [Part.trackerLaw_iff]
    exact Nat.zero_le _
  | distanceAdvanced => exact Part.takeDistanceAdvanced_trackerLaw h
  | motionChange => exact Part.takeMotionChange_trackerLaw h
  | doorChange => exact Part.takeDoorChange_trackerLaw h
  | trackerMark => exact Part.takeTrackerMark_trackerLaw h
  | placeAtStop bus | placeInLeg bus | unplace bus => exact Part.takePosition_trackerLaw h _ bus
  | trackerProfileLoad => exact Part.trackerProfile_trackerLaw h
  | stopListLoadComplete bus => exact Part.completeStopLoad_trackerLaw h bus
  | add => exact Part.trackerLaw_of_trk h (Part.takeAmendment_trk (Part.judgeOnSeat_trk Part.addSegment_trk) p _)
  | cancel => exact Part.trackerLaw_of_trk h (Part.takeAmendment_trk (Part.judgeOnSeat_trk Part.cancelSegment_trk) p _)
  | clear => exact Part.trackerLaw_of_trk h (Part.takeAmendment_trk Part.judgeClear_trk p _)
  | amendInvalidAction => exact Part.trackerLaw_of_trk h (Part.takeAmendment_trk Part.judgeInvalid_trk p _)
  | runSet value | runClear value | engineReset value | freezeSet value | freezeClear value | windowBaseWrite value
  | attentionWrite value | attentionEnableWrite value => exact Part.portWrite_trackerLaw h (by decide) _
  | ignoredRegisterWrite n value => exact Part.ignoredWrite_trackerLaw h n value
  | _ => exact Part.trackerLaw_congr h (by simp [effectOf]) (by simp [effectOf])

/-- Settles O8: every command's effect keeps the law, and so does the tick. -/
theorem stepKeepsTrackerLaw : Obligations.StepKeepsTrackerLaw :=
  step_keeps effectOf_tracker fun _ h => h

end Sys2Proof.Machine
end

section
/-! PROOF. The tracker's marks and its served view (R23, R27): the statements O19 and O20. -/

namespace Sys2Proof.Machine

/-! ### The tracker's marks (R27) -/

/-- No mark of the tracker is among those of other owners. -/
theorem marksOf_filter_owner (ms : List Mark) (o : Owner) :
    marksOf (ms.filter (fun m => decide (m.tag.owner ≠ o))) o = [] := by
  simp [marksOf, List.filter_filter]

/-- R15, R27: a mark of the tracker, its share not full, enters the set or is the tracker's next event. -/
theorem Part.armMark_tracker (p : Part) (tag : MarkTag) (mm : Nat) (ht : tag.owner = .tracker)
    (hs : (marksOf p.odo.marks .tracker).length < 2) :
    p.armMark tag mm = { p with
      odo := { p.odo with marks := p.odo.marks ++
        if p.odo.legDistance < mm then [{ tag := tag, distance := mm }] else [] }
      trk := { p.trk with inbox := p.trk.inbox ++ if p.odo.legDistance < mm then [] else [.mark tag] } } := by
  by_cases hm : p.odo.legDistance < mm
  · rw [Part.armMark_enters p tag mm hm (by rw [ht]; exact hs)]
    simp [hm]
  · rw [Part.armMark_fires p tag mm (by omega)]
    cases tag with
    | approach g => simp [Part.fireMark, hm]
    | pass g => simp [Part.fireMark, hm]
    | notice id g => cases ht

/-- R27: the part as the arming makes its first request: the tracker's marks dropped, its generation advanced,
its waiting events set aside. -/
def Part.readyToArm (p : Part) : Part := { p with
  odo := { p.odo with marks := p.odo.marks.filter (fun m => decide (m.tag.owner ≠ .tracker)) }
  trk := { p.trk with gen := p.trk.gen + 1#16, passDue := false, inbox := [] } }

/-- R27: the second request of the arming, and the events that wait behind what fired at once. -/
def Part.armPass (p : Part) (k : Nat) (gen : Half16) (waiting : List OdoEvent) : Part :=
  let q := p.armMark (.pass gen) (passMm (legAt p.trk.view k) p.trk.o)
  { q with trk := { q.trk with inbox := q.trk.inbox ++ waiting } }

/-- R27: the arming is its two requests in turn. -/
theorem Part.armForLeg_eq (p : Part) (k : Nat) :
    p.armForLeg k = (p.readyToArm.armMark (.approach (p.trk.gen + 1#16)) (approachMm (legAt p.trk.view k) p.trk.a)).armPass
      k (p.trk.gen + 1#16) p.trk.inbox := rfl

/-- An owner has at most as many marks more as there are new marks. -/
theorem marksOf_append_length_le (ms ns : List Mark) (o : Owner) :
    (marksOf (ms ++ ns) o).length ≤ (marksOf ms o).length + ns.length := by
  simp only [marksOf, List.filter_append, List.length_append]
  exact Nat.add_le_add_left (List.length_filter_le _ _) _

/-- Settles O19: the set is cleared of the tracker's marks, so that both marks find a place. -/
theorem armingForALeg : Obligations.ArmingForALeg := by
  intro p k
  dsimp only
  have cleared : marksOf p.readyToArm.odo.marks .tracker = [] := marksOf_filter_owner _ _
  rw [Part.armForLeg_eq, Part.armMark_tracker _ _ _ rfl (by rw [cleared]; decide), Part.armPass,
    Part.armMark_tracker _ _ _ rfl]
  · simp [Part.readyToArm, approachMm, passMm]
  · refine Nat.lt_of_le_of_lt (marksOf_append_length_le _ _ _) ?_
    rw [cleared]
    split <;> simp

/-! ### The served view (R23) -/

/-- What comes before the first served stop, and the served stops, where the first record is served. -/
theorem servedFrom_served {q i : Nat} {r : StopRecord} {rs : List StopRecord} (h : r.serves q = true) :
    servedFrom q i (r :: rs) =
      (0, { code := r.code, mapX := r.mapX, index := i, divide := r.divide, join := r.join
            legLength := if (servedFrom q (i + 1) rs).2.isEmpty then 0 else r.legLength + (servedFrom q (i + 1) rs).1 }
          :: (servedFrom q (i + 1) rs).2) := by
  simp only [servedFrom, h, if_true]

/-- A first record that is not served adds its leg length to what comes before the first served stop. -/
theorem servedFrom_passed {q i : Nat} {r : StopRecord} {rs : List StopRecord} (h : r.serves q = false) :
    servedFrom q i (r :: rs)
      = (r.legLength + (servedFrom q (i + 1) rs).1, (servedFrom q (i + 1) rs).2) := by
  simp [servedFrom, h]

/-- The codes of the served stops. -/
theorem servedFrom_codes (q i : Nat) (rs : List StopRecord) :
    (servedFrom q i rs).2.map (·.code) = (rs.filter (·.serves q)).map (·.code) := by
  induction rs generalizing i with
  | nil => rfl
  | cons r rs ih =>
    cases h : r.serves q with
    | true => simp [servedFrom_served h, h, ih]
    | false => simp [servedFrom_passed h, h, ih]

/-- A served stop is one of a record: its index counted from the first record's. -/
theorem servedFrom_record {q i : Nat} {rs : List StopRecord} {v : ServedStop} (hv : v ∈ (servedFrom q i rs).2) :
    i ≤ v.index ∧ ∃ r, rs[v.index - i]? = some r ∧ v.code = r.code ∧ v.mapX = r.mapX ∧ v.divide = r.divide ∧
      v.join = r.join ∧ r.serves q = true := by
  induction rs generalizing i with
  | nil => cases hv
  | cons r rs ih =>
    have later (h : v ∈ (servedFrom q (i + 1) rs).2) :
        i ≤ v.index ∧ ∃ r', (r :: rs)[v.index - i]? = some r' ∧ v.code = r'.code ∧ v.mapX = r'.mapX ∧
          v.divide = r'.divide ∧ v.join = r'.join ∧ r'.serves q = true := by
      obtain ⟨hle, r', hr', hfields⟩ := ih h
      refine ⟨by omega, r', ?_, hfields⟩
      rw [show v.index - i = v.index - (i + 1) + 1 by omega, List.getElem?_cons_succ]
      exact hr'
    cases h : r.serves q with
    | false =>
      rw [servedFrom_passed h] at hv
      exact later hv
    | true =>
      rw [servedFrom_served h, List.mem_cons] at hv
      rcases hv with rfl | hv
      · exact ⟨Nat.le_refl i, r, by simp, rfl, rfl, rfl, rfl, h⟩
      · exact later hv

/-- What comes before the first served stop is the sum of the leg lengths up to its record. -/
theorem servedFrom_before {q i : Nat} {rs : List StopRecord} {w : ServedStop}
    (hw : (servedFrom q i rs).2.head? = some w) :
    (servedFrom q i rs).1 = ((rs.take (w.index - i)).map (·.legLength)).sum := by
  induction rs generalizing i with
  | nil => cases hw
  | cons r rs ih =>
    cases h : r.serves q with
    | true =>
      rw [servedFrom_served h] at hw ⊢
      simp only [List.head?_cons, Option.some.injEq] at hw
      subst hw
      simp
    | false =>
      rw [servedFrom_passed h] at hw ⊢
      obtain ⟨hle, -⟩ := servedFrom_record (List.mem_of_mem_head? hw)
      rw [show w.index - i = w.index - (i + 1) + 1 by omega, List.take_succ_cons, List.map_cons, List.sum_cons,
        ← ih hw]

/-- R23: a served stop's leg is the sum of the leg lengths from its record up to the next served one. -/
theorem servedFrom_leg {q i j : Nat} {rs : List StopRecord} {v w : ServedStop}
    (hv : (servedFrom q i rs).2[j]? = some v) (hw : (servedFrom q i rs).2[j + 1]? = some w) :
    v.index < w.index ∧ v.legLength = (((rs.take (w.index - i)).drop (v.index - i)).map (·.legLength)).sum := by
  induction rs generalizing i j with
  | nil => cases hv
  | cons r rs ih =>
    have later {j : Nat} (hv : (servedFrom q (i + 1) rs).2[j]? = some v)
        (hw : (servedFrom q (i + 1) rs).2[j + 1]? = some w) : v.index < w.index ∧
          v.legLength = ((((r :: rs).take (w.index - i)).drop (v.index - i)).map (·.legLength)).sum := by
      obtain ⟨hlt, hleg⟩ := ih hv hw
      obtain ⟨hle, -⟩ := servedFrom_record (List.mem_of_getElem? hv)
      refine ⟨hlt, ?_⟩
      rw [show w.index - i = w.index - (i + 1) + 1 by omega, show v.index - i = v.index - (i + 1) + 1 by omega,
        List.take_succ_cons, List.drop_succ_cons]
      exact hleg
    cases h : r.serves q with
    | false =>
      rw [servedFrom_passed h] at hv hw
      exact later hv hw
    | true =>
      rw [servedFrom_served h] at hv hw
      cases j with
      | succ j => exact later hv hw
      | zero =>
        simp only [List.getElem?_cons_zero, Option.some.injEq] at hv
        rw [List.getElem?_cons_succ, ← List.head?_eq_getElem?] at hw
        obtain ⟨hle, -⟩ := servedFrom_record (List.mem_of_mem_head? hw)
        have hne : (servedFrom q (i + 1) rs).2.isEmpty = false := by
          cases hs : (servedFrom q (i + 1) rs).2 with
          | nil => rw [hs] at hw; cases hw
          | cons x xs => rfl
        subst hv
        refine ⟨hle, ?_⟩
        simp only [hne, Bool.false_eq_true, if_false, Nat.sub_self, List.drop_zero]
        rw [show w.index - i = w.index - (i + 1) + 1 by omega, List.take_succ_cons, List.map_cons, List.sum_cons,
          ← servedFrom_before hw]

/-- R23: the last served stop has no leg. -/
theorem servedFrom_last {q i : Nat} {rs : List StopRecord} {v : ServedStop}
    (hv : (servedFrom q i rs).2.getLast? = some v) : v.legLength = 0 := by
  induction rs generalizing i with
  | nil => cases hv
  | cons r rs ih =>
    cases h : r.serves q with
    | false =>
      rw [servedFrom_passed h] at hv
      exact ih hv
    | true =>
      rw [servedFrom_served h] at hv
      cases hs : (servedFrom q (i + 1) rs).2 with
      | nil =>
        rw [hs] at hv
        simp only [List.getLast?_singleton, Option.some.injEq] at hv
        subst hv
        rfl
      | cons x xs =>
        rw [hs, List.getLast?_cons_cons, ← hs] at hv
        exact ih hv

/-- Settles O20: the served stops of the whole list, whose first record has index 0. -/
theorem servedViewOfPortion : Obligations.ServedViewOfPortion := by
  intro stops q
  refine ⟨rfl, servedFrom_codes q 0 stops, fun j v hv => ?_, fun j v w hv hw => ?_, fun v hv => servedFrom_last hv⟩
  · obtain ⟨-, r, hr, hfields⟩ := servedFrom_record (List.mem_of_getElem? hv)
    exact ⟨r, hr, hfields⟩
  · exact servedFrom_leg hv hw

end Sys2Proof.Machine
end

section
/-! PROOF. The tracker's moves (R28 to R35): departures, confirmed stops, HALTED and DOUBT, marks; O21 to O24. -/

namespace Sys2Proof.Machine

/-! ### Reports taken (R29, R30, R31) -/

/-- The part as the tracker has heard a motion report and not yet judged it. -/
def Part.hearMotion (p : Part) (m : Motion) (rest : List Motion) : Part :=
  { p with trk := { p.trk with motion := m, motionIn := rest } }

/-- The part as the tracker has heard a door report and not yet judged it. -/
def Part.hearDoor (p : Part) (d : Door) (rest : List Door) : Part :=
  { p with trk := { p.trk with door := d, doorIn := rest } }

/-- The part with other events waiting at the tracker. -/
def Part.withInbox (p : Part) (rest : List OdoEvent) : Part := { p with trk := { p.trk with inbox := rest } }

/-- What MOTION_CHANGE does, by what the judgement of the report does. -/
theorem exec_motionChange {s : State} {m : Motion} {rest : List Motion} {q : Part} (h : s.part.trk.motionIn = m :: rest)
    (hq : (s.part.hearMotion m rest).judgeMotion = q) : exec .motionChange s = .next { s with part := q } := by
  refine exec_next (·.takeMotionChange) rfl ?_
  simp only [Part.takeMotionChange, h]
  exact hq

/-- What DOOR_CHANGE does, by what the judgement of the report does. -/
theorem exec_doorChange {s : State} {d : Door} {rest : List Door} {q : Part} (h : s.part.trk.doorIn = d :: rest)
    (hq : (s.part.hearDoor d rest).judgeDoor = q) : exec .doorChange s = .next { s with part := q } := by
  refine exec_next (·.takeDoorChange) rfl ?_
  simp only [Part.takeDoorChange, h]
  exact hq

/-- What DISTANCE_ADVANCED does, by what the judgement of the event does. -/
theorem exec_distanceAdvanced {s : State} {d : Nat} {rest : List OdoEvent} {q : Part}
    (h : s.part.trk.inbox = .advanced d :: rest) (hq : (s.part.withInbox rest).judgeDistance = q) :
    exec .distanceAdvanced s = .next { s with part := q } := by
  refine exec_next (·.takeDistanceAdvanced) rfl ?_
  simp only [Part.takeDistanceAdvanced, h]
  exact hq

/-- What TRACKER_MARK does, by what the judgement of the mark does. -/
theorem exec_trackerMark {s : State} {tag : MarkTag} {rest : List OdoEvent} {q : Part}
    (h : s.part.trk.inbox = .mark tag :: rest) (hq : (s.part.withInbox rest).judgeMark tag = q) :
    exec .trackerMark s = .next { s with part := q } := by
  refine exec_next (·.takeTrackerMark) rfl ?_
  simp only [Part.takeTrackerMark, h]
  exact hq

/-! ### The confirmation condition (R30) -/

/-- R30: what confirms a stop. -/
theorem Part.confirms_iff (p : Part) (k : Nat) : p.confirms k = true ↔
    p.trk.motion = .still ∧ p.trk.door = .released ∧
      legAt p.trk.view k * 1000 ≤ p.odo.legDistance + p.trk.w * 1000 := by
  simp [Part.confirms, Part.inWindow, and_assoc]

/-- R30: the stop window, as a comparison. -/
theorem Part.inWindow_iff (p : Part) (k : Nat) :
    p.inWindow k = true ↔ legAt p.trk.view k * 1000 ≤ p.odo.legDistance + p.trk.w * 1000 := by
  simp [Part.inWindow]

theorem Part.not_confirms_of_moving {p : Part} (k : Nat) (h : p.trk.motion = .moving) : ¬ p.confirms k = true := by
  simp [Part.confirms_iff, h]

theorem Part.not_confirms_of_locked {p : Part} (k : Nat) (h : p.trk.door = .locked) : ¬ p.confirms k = true := by
  simp [Part.confirms_iff, h]

theorem Part.not_confirms_of_below {p : Part} {k : Nat}
    (h : p.odo.legDistance + p.trk.w * 1000 < legAt p.trk.view k * 1000) : ¬ p.confirms k = true := by
  rw [Part.confirms_iff]
  omega

/-- R30: a motion report in a leg state that completes the condition. -/
theorem Part.judgeMotion_confirms {p : Part} {k : Nat} (hk : p.trk.phase.runLeg = some k) (h : p.confirms k = true) :
    p.judgeMotion = p.confirm k := by
  cases hp : p.trk.phase <;> simp_all [Phase.runLeg, Part.judgeMotion]

/-- R30: a door report in a leg state that completes the condition. -/
theorem Part.judgeDoor_confirms {p : Part} {k : Nat} (hk : p.trk.phase.runLeg = some k) (h : p.confirms k = true) :
    p.judgeDoor = p.confirm k := by
  cases hp : p.trk.phase <;> simp_all [Phase.runLeg, Part.judgeDoor]

/-- R45, R30: a distance advanced event in a leg state. -/
theorem Part.judgeDistance_onLeg {p : Part} {k : Nat} (hk : p.trk.phase.runLeg = some k) :
    p.judgeDistance = if p.confirms k then p.sendProgress.confirm k else p.sendProgress := by
  simp only [Part.judgeDistance, hk]
  rfl

/-- R45: a distance advanced event in a state without a leg. -/
theorem Part.judgeDistance_legless {p : Part} (hk : p.trk.phase.runLeg = none) : p.judgeDistance = p := by
  simp only [Part.judgeDistance, hk]

/-! ### Moves as one update -/

/-- R29: a departure as one update, from the terminus or onto a leg. -/
theorem Part.depart_eq (p : Part) (k : Nat) : p.depart k =
    let code := codeAt p.trk.view k
    let record := p.journeyRecord code (if k + 1 < p.trk.view.length then legAt p.trk.view k else 0)
    if k + 1 < p.trk.view.length then
      (Part.publish { p with trk := { p.trk with departure := some record, phase := .running k } } .depart
        (some code)).armForLeg k
    else Part.publish { p with
      odo := { p.odo with marks := p.odo.marks.filter (fun m => decide (m.tag.owner ≠ .tracker)) }
      trk := { p.trk with departure := some record, passDue := false, phase := .ended } } .depart (some code) := by
  unfold Part.depart
  dsimp only
  split <;> rfl

/-- R30: a confirmed stop as one update, a set of Leg Distance and two journey events. -/
theorem Part.confirm_eq (p : Part) (k : Nat) : p.confirm k =
    let code := codeAt p.trk.view (k + 1)
    ((Part.setLeg { p with
      odo := { p.odo with marks := p.odo.marks.filter (fun m => decide (m.tag.owner ≠ .tracker)) }
      trk := { p.trk with
        arrival := some (p.journeyRecord code (legAt p.trk.view k)), passDue := false, phase := .atStop (k + 1) } }
      0).publish .arrive (some code)).publish .doors (some code) := rfl

/-- R29: MOVING with LOCKED at a served stop is a departure. -/
theorem Part.testDeparture_departs {p : Part} {k : Nat} (hm : p.trk.motion = .moving) (hd : p.trk.door = .locked) :
    p.testDeparture k = p.depart k := if_pos ⟨hm, hd⟩

/-- R29: at a stand, or with the doors released, the coach stays at the served stop. -/
theorem Part.testDeparture_stays {p : Part} {k : Nat} (h : p.trk.motion = .still ∨ p.trk.door = .released) :
    p.testDeparture k = p := by
  refine if_neg fun hmoving => ?_
  rcases h with h | h <;> simp [h] at hmoving

/-- R29: the motion report that completes the departure. -/
theorem Part.judgeMotion_departs {p : Part} {k : Nat} (hp : p.trk.phase = .atStop k) (hm : p.trk.motion = .moving)
    (hd : p.trk.door = .locked) : p.judgeMotion = p.depart k := by
  rw [Part.judgeMotion_atStop hp, Part.testDeparture_departs hm hd]

/-- R29: the door report that completes the departure. -/
theorem Part.judgeDoor_departs {p : Part} {k : Nat} (hp : p.trk.phase = .atStop k) (hm : p.trk.motion = .moving)
    (hd : p.trk.door = .locked) : p.judgeDoor = p.depart k := by
  rw [Part.judgeDoor_atStop hp, if_neg (by simp [hd]), Part.testDeparture_departs hm hd]

/-- Settles O21: departures and confirmed stops, each by the reports that can complete its condition. -/
theorem servedStopsAreLeftAndReached : Obligations.ServedStopsAreLeftAndReached := by
  refine ⟨fun p cause code => rfl, fun s k hp => ⟨fun rest hin hdoor => ?_, fun rest hin hmotion => ?_⟩,
    fun s k hk hwindow => ⟨fun rest hin hdoor => ?_, fun rest hin hmotion => ?_, fun d rest hin hmotion hdoor => ?_⟩⟩
  · have departs := Part.judgeMotion_departs (p := s.part.hearMotion .moving rest) hp rfl hdoor
    exact exec_motionChange hin (departs.trans (Part.depart_eq _ _))
  · have departs := Part.judgeDoor_departs (p := s.part.hearDoor .locked rest) hp hmotion rfl
    exact exec_doorChange hin (departs.trans (Part.depart_eq _ _))
  · have confirms := Part.judgeMotion_confirms (p := s.part.hearMotion .still rest) hk
      ((Part.confirms_iff _ _).mpr ⟨rfl, hdoor, hwindow⟩)
    simp only [List.append_nil]
    exact exec_motionChange hin (confirms.trans (Part.confirm_eq _ _))
  · have confirms := Part.judgeDoor_confirms (p := s.part.hearDoor .released rest) hk
      ((Part.confirms_iff _ _).mpr ⟨hmotion, rfl, hwindow⟩)
    simp only [List.append_nil]
    exact exec_doorChange hin (confirms.trans (Part.confirm_eq _ _))
  · have confirms := (Part.judgeDistance_onLeg (p := s.part.withInbox rest) hk).trans
      (if_pos ((Part.confirms_iff _ _).mpr ⟨hmotion, hdoor, hwindow⟩))
    exact exec_distanceAdvanced hin (confirms.trans (Part.confirm_eq _ _))

/-! ### HALTED, DOUBT and resume (R31, R32) -/

/-- R32: a resume with no pass due. -/
theorem Part.resume_eq {p : Part} {k : Nat} (h : p.trk.passDue = false) :
    p.resume k = (p.enter (p.runningOrApproaching k)).publish .resume none := by
  simp only [Part.resume, h, Bool.false_eq_true, if_false]

/-- R31, R32: a resume with a pass due takes it. -/
theorem Part.resume_passDue {p : Part} {k : Nat} (h : p.trk.passDue = true) : p.resume k = p.takePassDue k := by
  simp only [Part.resume, h, if_true]

/-- R31: standing below the window of a leg. -/
theorem Part.judgeMotion_stands {p : Part} {k : Nat} (hp : p.trk.phase = .running k ∨ p.trk.phase = .approaching k)
    (hm : p.trk.motion = .still) (hb : p.odo.legDistance + p.trk.w * 1000 < legAt p.trk.view k * 1000) :
    p.judgeMotion = if p.trk.door = .locked then p.enterHalted k else p.enterDoubt k := by
  have outside : ¬ p.inWindow k = true := by rw [Part.inWindow_iff]; omega
  rw [Part.judgeMotion_onLeg hp, if_neg (Part.not_confirms_of_below hb)]
  simp only [Part.motionOnLeg, hm, if_neg outside]
  cases p.trk.door <;> rfl

/-- R31: standing within the window of a leg, the doors locked. -/
theorem Part.judgeMotion_waits {p : Part} {k : Nat} (hp : p.trk.phase = .running k ∨ p.trk.phase = .approaching k)
    (hm : p.trk.motion = .still) (hd : p.trk.door = .locked)
    (hw : legAt p.trk.view k * 1000 ≤ p.odo.legDistance + p.trk.w * 1000) : p.judgeMotion = p := by
  rw [Part.judgeMotion_onLeg hp, if_neg (Part.not_confirms_of_locked k hd)]
  simp only [Part.motionOnLeg, hm, if_pos ((Part.inWindow_iff _ _).mpr hw)]

/-- R31: moving on a leg takes the pass that is due, and nothing else. -/
theorem Part.judgeMotion_moves {p : Part} {k : Nat} (hp : p.trk.phase = .running k ∨ p.trk.phase = .approaching k)
    (hm : p.trk.motion = .moving) : p.judgeMotion = if p.trk.passDue then p.takePassDue k else p := by
  rw [Part.judgeMotion_onLeg hp, if_neg (Part.not_confirms_of_moving k hm)]
  simp only [Part.motionOnLeg, hm]

/-- R31: the doors released at a stand below the window of a leg. -/
theorem Part.judgeDoor_doubts {p : Part} {k : Nat} (hp : p.trk.phase = .running k ∨ p.trk.phase = .approaching k)
    (hd : p.trk.door = .released) (hm : p.trk.motion = .still)
    (hb : p.odo.legDistance + p.trk.w * 1000 < legAt p.trk.view k * 1000) : p.judgeDoor = p.enterDoubt k := by
  rw [Part.judgeDoor_onLeg hp, if_neg (Part.not_confirms_of_below hb)]
  refine if_pos ⟨hd, hm, ?_⟩
  rw [Part.inWindow_iff]
  omega

/-- R31: the doors locked on a leg, or a door report while moving. -/
theorem Part.judgeDoor_stays {p : Part} {k : Nat} (hp : p.trk.phase = .running k ∨ p.trk.phase = .approaching k)
    (h : p.trk.door = .locked ∨ p.trk.motion = .moving) : p.judgeDoor = p := by
  have unconfirmed := h.elim (Part.not_confirms_of_locked k) (Part.not_confirms_of_moving k)
  rw [Part.judgeDoor_onLeg hp, if_neg unconfirmed]
  refine if_neg fun hdoubt => ?_
  rcases h with h | h <;> simp [h] at hdoubt

/-- R32: the doors released in HALTED where that confirms no stop. -/
theorem Part.judgeDoor_halted_doubts {p : Part} {k : Nat} (hp : p.trk.phase = .halted k) (hd : p.trk.door = .released)
    (hc : ¬ p.confirms k = true) : p.judgeDoor = p.enterDoubt k := by
  rw [Part.judgeDoor_halted hp, if_neg hc, if_pos hd]

/-- R32: moving in HALTED. -/
theorem Part.judgeMotion_resumes {p : Part} {k : Nat} (hp : p.trk.phase = .halted k) (hm : p.trk.motion = .moving) :
    p.judgeMotion = p.resume k := by
  rw [Part.judgeMotion_halted hp, if_neg (Part.not_confirms_of_moving k hm), if_pos hm]

/-- R32: the doors locked in DOUBT. -/
theorem Part.judgeDoor_doubt_locked {p : Part} {k : Nat} (hp : p.trk.phase = .doubt k) (hd : p.trk.door = .locked) :
    p.judgeDoor = if p.trk.motion = .moving then p.resume k else p.enterHalted k := by
  rw [Part.judgeDoor_doubt hp, if_neg (Part.not_confirms_of_locked k hd), if_neg (by simp [hd])]

/-- Settles O22: each case by what its report finds in the state it is taken in. -/
theorem haltDoubtAndResume : Obligations.HaltDoubtAndResume := by
  intro s k
  refine ⟨fun rest hp hin hbelow => ⟨fun hd => ?_, fun hd => ?_⟩,
    fun rest hp hin => ⟨fun hm hbelow => ?_, fun hm => ?_⟩, fun rest hp hin hnot => ?_,
    fun rest hp hin hdue => ?_, fun rest hp hin => ⟨fun hm => ?_, fun hm hdue => ?_⟩⟩
  · have stands := Part.judgeMotion_stands (p := s.part.hearMotion .still rest) hp rfl hbelow
    exact exec_motionChange hin (stands.trans (if_pos hd))
  · have stands := Part.judgeMotion_stands (p := s.part.hearMotion .still rest) hp rfl hbelow
    exact exec_motionChange hin (stands.trans (if_neg (by simp [Part.hearMotion, hd])))
  · exact exec_doorChange hin (Part.judgeDoor_doubts (p := s.part.hearDoor .released rest) hp rfl hm hbelow)
  · exact exec_doorChange hin (Part.judgeDoor_stays (p := s.part.hearDoor .released rest) hp (.inr hm))
  · have unconfirmed : ¬ (s.part.hearDoor .released rest).confirms k = true :=
      hnot.elim (Part.not_confirms_of_below (p := s.part.hearDoor .released rest))
        (Part.not_confirms_of_moving (p := s.part.hearDoor .released rest) k)
    exact exec_doorChange hin (Part.judgeDoor_halted_doubts hp rfl unconfirmed)
  · have resumes := Part.judgeMotion_resumes (p := s.part.hearMotion .moving rest) hp rfl
    exact exec_motionChange hin (resumes.trans (Part.resume_eq hdue))
  · have locks := Part.judgeDoor_doubt_locked (p := s.part.hearDoor .locked rest) hp rfl
    exact exec_doorChange hin (locks.trans (if_neg (by simp [Part.hearDoor, hm])))
  · have locks := Part.judgeDoor_doubt_locked (p := s.part.hearDoor .locked rest) hp rfl
    exact exec_doorChange hin (locks.trans ((if_pos hm).trans (Part.resume_eq hdue)))

/-! ### Reports that keep the state, and pass due (R29 to R35, R45) -/

/-- R30: what leaves a stop unconfirmed. -/
theorem Part.not_confirms_of {p : Part} {k : Nat} (h : p.trk.motion = .moving ∨ p.trk.door = .locked ∨
    p.odo.legDistance + p.trk.w * 1000 < legAt p.trk.view k * 1000) : ¬ p.confirms k = true := by
  rcases h with hm | hd | hb
  · exact Part.not_confirms_of_moving k hm
  · exact Part.not_confirms_of_locked k hd
  · exact Part.not_confirms_of_below hb

/-- R29, R31, R32, R35: the motion reports that leave the tracker's state. -/
theorem Part.judgeMotion_keeps_state {p : Part}
    (h : (p.trk.phase = .unplaced ∨ p.trk.phase = .ended ∨ p.trk.phase = .lost) ∨
      (∃ k, p.trk.phase = .atStop k ∧ (p.trk.motion = .still ∨ p.trk.door = .released)) ∨
      (∃ k, p.trk.phase = .doubt k ∧ (p.trk.motion = .moving ∨ p.trk.door = .locked ∨
        p.odo.legDistance + p.trk.w * 1000 < legAt p.trk.view k * 1000)) ∨
      (∃ k, (p.trk.phase = .running k ∨ p.trk.phase = .approaching k) ∧
        ((p.trk.motion = .moving ∧ p.trk.passDue = false) ∨ (p.trk.motion = .still ∧ p.trk.door = .locked ∧
          legAt p.trk.view k * 1000 ≤ p.odo.legDistance + p.trk.w * 1000)))) : p.judgeMotion = p := by
  rcases h with hp | ⟨k, hp, hstays⟩ | ⟨k, hp, hnot⟩ | ⟨k, hp, ⟨hm, hdue⟩ | ⟨hm, hd, hw⟩⟩
  · exact Part.judgeMotion_placeless hp
  · rw [Part.judgeMotion_atStop hp, Part.testDeparture_stays hstays]
  · rw [Part.judgeMotion_doubt hp, if_neg (Part.not_confirms_of hnot)]
  · rw [Part.judgeMotion_moves hp hm, if_neg (by simp [hdue])]
  · exact Part.judgeMotion_waits hp hm hd hw

/-- R29, R31, R32, R35: the door reports that leave the tracker's state. -/
theorem Part.judgeDoor_keeps_state {p : Part}
    (h : (p.trk.phase = .unplaced ∨ p.trk.phase = .ended ∨ p.trk.phase = .lost) ∨
      (∃ k, p.trk.phase = .atStop k ∧ p.trk.door = .locked ∧ p.trk.motion = .still) ∨
      (∃ k, (p.trk.phase = .running k ∨ p.trk.phase = .approaching k) ∧
        (p.trk.door = .locked ∨ p.trk.motion = .moving))) : p.judgeDoor = p := by
  rcases h with hp | ⟨k, hp, hd, hm⟩ | ⟨k, hp, hstays⟩
  · exact Part.judgeDoor_placeless hp
  · rw [Part.judgeDoor_atStop hp, if_neg (by simp [hd]), Part.testDeparture_stays (.inl hm)]
  · exact Part.judgeDoor_stays hp hstays

/-- R33, R34: a pass or an overrun does not look at the tracker's state. -/
theorem Part.passOrOverrun_enter (p : Part) (x : Phase) (k : Nat) :
    (p.enter x).passOrOverrun k = p.passOrOverrun k := by
  unfold Part.passOrOverrun
  split
  · exact (if_pos ‹_›).symm
  · exact (if_neg ‹_›).symm

/-- R28: a PASS mark of the present generation, taken while MOVING on leg k. -/
theorem Part.judgeMark_passes {p : Part} {k : Nat} (hp : p.trk.phase = .running k ∨ p.trk.phase = .approaching k)
    (hm : p.trk.motion = .moving) : p.judgeMark (.pass p.trk.gen) = p.passOrOverrun k := by
  simp only [Part.judgeMark, if_true]
  rw [Part.takePass_onLeg hp, if_pos hm]

/-- R31, R32: moving in a leg state other than DOUBT with a pass due. -/
theorem Part.judgeMotion_takes_pass {p : Part} {k : Nat}
    (hp : p.trk.phase = .running k ∨ p.trk.phase = .approaching k ∨ p.trk.phase = .halted k)
    (hm : p.trk.motion = .moving) (hdue : p.trk.passDue = true) : p.judgeMotion = p.takePassDue k := by
  rcases hp with hp | hp | hp
  · rw [Part.judgeMotion_moves (.inl hp) hm, if_pos hdue]
  · rw [Part.judgeMotion_moves (.inr hp) hm, if_pos hdue]
  · rw [Part.judgeMotion_resumes hp hm, Part.resume_passDue hdue]

/-- R31, R32: the pass that is due is the pass of the PASS mark, taken on the leg. -/
theorem exec_trackerMark_passDue (s : State) (k : Nat) (trk : Tracker) :
    exec .trackerMark { s with part := { s.part with trk := { trk with
      passDue := false, phase := .running k, motion := .moving, inbox := .mark (.pass trk.gen) :: trk.inbox } } }
      = .next { s with part := Part.takePassDue { s.part with trk := { trk with motion := .moving } } k } := by
  refine exec_trackerMark rfl ?_
  refine (Part.judgeMark_passes (k := k) (.inl rfl) rfl).trans ?_
  exact Part.passOrOverrun_enter
    { s.part with trk := { trk with passDue := false, motion := .moving } } (.running k) k

/-- Settles O23: what a report finds leaves the state, or takes the pass that is due. -/
theorem reportsThatKeepTheState : Obligations.ReportsThatKeepTheState := by
  refine ⟨fun s d rest hin => ⟨fun hk => ?_, fun k hk hnot => ?_⟩,
    fun s => ⟨fun m rest hin h => ?_, fun d rest hin h => ?_, fun k rest hp hin => ?_, fun k hdue => ⟨?_, ?_⟩⟩⟩
  · exact exec_distanceAdvanced hin (Part.judgeDistance_legless (p := s.part.withInbox rest) hk)
  · have unconfirmed := Part.not_confirms_of (p := s.part.withInbox rest) hnot
    exact exec_distanceAdvanced hin ((Part.judgeDistance_onLeg (p := s.part.withInbox rest) hk).trans
      (if_neg unconfirmed))
  · exact exec_motionChange hin (Part.judgeMotion_keeps_state (p := s.part.hearMotion m rest) h)
  · exact exec_doorChange hin (Part.judgeDoor_keeps_state (p := s.part.hearDoor d rest) h)
  · have releases := Part.judgeDoor_atStop (p := s.part.hearDoor .released rest) hp
    exact exec_doorChange hin (releases.trans (if_pos rfl))
  · intro rest hp hin
    have passes := Part.judgeMotion_takes_pass (p := s.part.hearMotion .moving rest) hp rfl hdue
    exact (exec_motionChange hin passes).trans
      (exec_trackerMark_passDue s k { s.part.trk with motionIn := rest }).symm
  · intro rest hp hin hm
    have locks := Part.judgeDoor_doubt_locked (p := s.part.hearDoor .locked rest) hp rfl
    have passes := locks.trans ((if_pos hm).trans (Part.resume_passDue hdue))
    refine (exec_doorChange hin passes).trans ?_
    refine Eq.trans ?_ (exec_trackerMark_passDue s k { s.part.trk with door := .locked, doorIn := rest }).symm
    simp only [Part.hearDoor, hm]

/-! ### Marks taken (R28, R33, R34) -/

/-- R28: an APPROACH mark of another generation, or in a state without a leg. -/
theorem Part.judgeMark_discards {p : Part} {tag : MarkTag} {g : Half16} (ht : tag = .approach g ∨ tag = .pass g)
    (h : g ≠ p.trk.gen ∨ p.trk.phase.runLeg = none) : p.judgeMark tag = p := by
  rcases ht with rfl | rfl <;> simp only [Part.judgeMark]
  · split
    · next hg => exact Part.takeApproach_legless (h.resolve_left (not_not_intro hg))
    · rfl
  · split
    · next hg => exact Part.takePass_legless (h.resolve_left (not_not_intro hg))
    · rfl

/-- R28: a PASS mark taken at a stand is due. -/
theorem Part.takePass_due {p : Part} {k : Nat} (h : (p.trk.phase = .halted k ∨ p.trk.phase = .doubt k) ∨
    ((p.trk.phase = .running k ∨ p.trk.phase = .approaching k) ∧ p.trk.motion = .still)) :
    p.takePass = p.setPassDue := by
  rcases h with hp | ⟨hp, hm⟩
  · exact Part.takePass_standing hp
  · rw [Part.takePass_onLeg hp, if_neg (by simp [hm])]

/-- Settles O24: a mark of the present generation on a leg, by the state and the motion it finds. -/
theorem trackerMarksActByState : Obligations.TrackerMarksActByState := by
  refine ⟨fun s tag rest g hin => ⟨fun ht h => ?_, fun ht hg => ⟨fun k hp => ?_, fun k hk hr => ?_⟩,
    fun ht hg k hp => ?_⟩, fun s k rest hin hp hm => ⟨fun hlt => ⟨_, rfl, rfl, ?_⟩, fun hle => ?_⟩⟩
  · exact exec_trackerMark hin (Part.judgeMark_discards (p := s.part.withInbox rest) ht h)
  · subst ht hg
    exact exec_trackerMark hin
      ((if_pos rfl).trans (Part.takeApproach_running (p := s.part.withInbox rest) hp))
  · subst ht hg
    exact exec_trackerMark hin
      ((if_pos rfl).trans (Part.takeApproach_onLeg (p := s.part.withInbox rest) hk hr))
  · subst ht hg
    exact exec_trackerMark hin ((if_pos rfl).trans (Part.takePass_due (p := s.part.withInbox rest) hp))
  · have passes := Part.judgeMark_passes (p := s.part.withInbox rest) hp hm
    exact exec_trackerMark hin (passes.trans (if_pos hlt))
  · have passes := Part.judgeMark_passes (p := s.part.withInbox rest) hp hm
    exact exec_trackerMark hin (passes.trans (if_neg (Nat.not_lt.mpr hle)))

end Sys2Proof.Machine
end

section
/-! PROOF. The tracker's coach-profile load, its remap (R24, R40, R41) and its position requests (R36 to R38, R183);
O26 and O25. -/

namespace Sys2Proof.Machine

/-! ### Coach-profile load (R24) -/

/-- R24: the tracker with a profile's portion, A, W and O in force. -/
def Part.withTrackerProfile (p : Part) (f : Profile) (rest : List Profile) : Part := { p with trk := { p.trk with
  profiles := rest, portion := some f.portion, a := f.a, w := f.w, o := f.o } }

/-- R24: the profile at the front is taken. -/
theorem Part.trackerProfile_cons {p : Part} {f : Profile} {rest : List Profile} (h : p.trk.profiles = f :: rest) :
    p.trackerProfile =
      if p.trk.portion ≠ some f.portion then (p.withTrackerProfile f rest).rebuildAndRemap
      else if p.trk.a ≠ f.a ∨ p.trk.o ≠ f.o then
        match p.trk.phase.runLeg with
        | none => p.withTrackerProfile f rest
        | some k => (p.withTrackerProfile f rest).armForLeg k
      else p.withTrackerProfile f rest := by
  simp only [Part.trackerProfile, h]
  rfl

/-- R24: with the portion unchanged and no leg, or A and O unchanged, the values are taken and nothing else. -/
theorem Part.trackerProfile_same {p : Part} {f : Profile} {rest : List Profile} (h : p.trk.profiles = f :: rest)
    (hq : p.trk.portion = some f.portion) (hs : (p.trk.a = f.a ∧ p.trk.o = f.o) ∨ p.trk.phase.runLeg = none) :
    p.trackerProfile = p.withTrackerProfile f rest := by
  rw [Part.trackerProfile_cons h, if_neg (not_not_intro hq)]
  rcases hs with ⟨ha, ho⟩ | hk
  · exact if_neg (by simp [ha, ho])
  · rw [hk]
    exact ite_self _

/-- R24: with the portion unchanged, a change of A or O on a leg arms for it again. -/
theorem Part.trackerProfile_rearms {p : Part} {f : Profile} {rest : List Profile} {k : Nat}
    (h : p.trk.profiles = f :: rest) (hq : p.trk.portion = some f.portion) (hs : p.trk.a ≠ f.a ∨ p.trk.o ≠ f.o)
    (hk : p.trk.phase.runLeg = some k) : p.trackerProfile = (p.withTrackerProfile f rest).armForLeg k := by
  rw [Part.trackerProfile_cons h, if_neg (not_not_intro hq), if_pos hs, hk]

/-! ### Remaps (R40) -/

theorem Part.remap_unplaced {p : Part} (h : p.trk.phase = .unplaced) (old : List ServedStop) : p.remap old = p :=
  if_pos h

/-- R40 case 1: fewer than two served stops. -/
theorem Part.remap_short {p : Part} (hp : p.trk.phase ≠ .unplaced) (hv : p.trk.view.length < 2)
    (old : List ServedStop) : p.remap old = p.remapLost := by
  rw [Part.remap, if_neg hp, if_pos hv]

/-- R40 case 2: LOST and ENDED stay. -/
theorem Part.remap_placeless {p : Part} (hv : 2 ≤ p.trk.view.length) (hp : p.trk.phase = .lost ∨ p.trk.phase = .ended)
    (old : List ServedStop) : p.remap old = p.publish .remap none := by
  rcases hp with hp | hp <;> rw [Part.remap, if_neg (by simp [hp]), if_neg (Nat.not_lt.mpr hv)] <;>
    simp only [hp, Phase.leg]

/-- A state with a current stop is placed. -/
theorem Phase.ne_unplaced_of_leg {x : Phase} {k : Nat} (h : x.leg = some k) : x ≠ .unplaced := by
  rintro rfl
  cases h

/-- R40 case 3: the reference code is not served any more. -/
theorem Part.remap_missing {p : Part} {old : List ServedStop} {k : Nat} (hv : 2 ≤ p.trk.view.length)
    (hk : p.trk.phase.leg = some k) (hi : indexOfCode p.trk.view (codeAt old k) = none) :
    p.remap old = p.remapLost := by
  rw [Part.remap, if_neg (Phase.ne_unplaced_of_leg hk), if_neg (Nat.not_lt.mpr hv)]
  simp only [hk, hi]

/-- R40 case 4: the reference code is served. -/
theorem Part.remap_found {p : Part} {old : List ServedStop} {k j : Nat} (hv : 2 ≤ p.trk.view.length)
    (hk : p.trk.phase.leg = some k) (hi : indexOfCode p.trk.view (codeAt old k) = some j) :
    p.remap old = p.remapFound j := by
  rw [Part.remap, if_neg (Phase.ne_unplaced_of_leg hk), if_neg (Nat.not_lt.mpr hv)]
  simp only [hk, hi]

/-- R40 case 4 in AT_STOP. -/
theorem Part.remapFound_atStop {p : Part} {k : Nat} (hp : p.trk.phase = .atStop k) (j : Nat) :
    p.remapFound j = (p.enter (.atStop j)).publish .remap none := by
  simp only [Part.remapFound, hp]

/-- R40 case 4 on a leg whose reference is the last served stop now. -/
theorem Part.remapFound_ends {p : Part} {k j : Nat} (hp : p.trk.phase.runLeg = some k)
    (hj : ¬ j + 1 < p.trk.view.length) : p.remapFound j = (p.dropMarks.enter .ended).publish .remap none := by
  unfold Part.remapFound
  cases hx : p.trk.phase with
  | running k | approaching k | halted k | doubt k => exact if_neg hj
  | atStop k | unplaced | ended | lost => rw [hx] at hp; cases hp

/-- R40 case 4 in RUNNING and APPROACHING: the distance test of R32 on the leg that now begins at the reference. -/
theorem Part.remapFound_onLeg {p : Part} {k j : Nat} (hp : p.trk.phase = .running k ∨ p.trk.phase = .approaching k)
    (hj : j + 1 < p.trk.view.length) :
    p.remapFound j = ((p.enter (p.runningOrApproaching j)).publish .remap none).armForLeg j := by
  rcases hp with hp | hp <;> simp only [Part.remapFound, hp, if_pos hj]

theorem Part.remapFound_halted {p : Part} {k j : Nat} (hp : p.trk.phase = .halted k)
    (hj : j + 1 < p.trk.view.length) :
    p.remapFound j = ((p.enter (.halted j)).publish .remap none).armForLeg j := by
  simp only [Part.remapFound, hp, if_pos hj]

theorem Part.remapFound_doubt {p : Part} {k j : Nat} (hp : p.trk.phase = .doubt k)
    (hj : j + 1 < p.trk.view.length) :
    p.remapFound j = ((p.enter (.doubt j)).publish .remap none).armForLeg j := by
  simp only [Part.remapFound, hp, if_pos hj]

/-- Settles O26: the load by what it changes, the remap by R40's cases. -/
theorem trackerTakesProfileAndRemaps : Obligations.TrackerTakesProfileAndRemaps := by
  refine ⟨fun s f rest hin => ⟨fun hq => ⟨fun hs => ?_, fun k hs hk => ?_⟩, fun hq => ?_⟩, fun p old => ?_⟩
  · exact exec_next (·.trackerProfile) rfl (Part.trackerProfile_same hin hq hs)
  · exact exec_next (·.trackerProfile) rfl (Part.trackerProfile_rearms hin hq hs hk)
  · exact exec_next (·.trackerProfile) rfl ((Part.trackerProfile_cons hin).trans (if_pos hq))
  · refine ⟨fun hp => Part.remap_unplaced hp old, fun hp hv => Part.remap_short hp hv old,
      fun hv hp => Part.remap_placeless hv hp old,
      fun hv k hk => ⟨fun hi => Part.remap_missing hv hk hi, fun j hi => ?_⟩⟩
    rw [Part.remap_found hv hk hi]
    exact ⟨fun hp => Part.remapFound_atStop hp j, fun hp hj => Part.remapFound_ends hp (by omega),
      fun hj => ⟨fun hp => Part.remapFound_onLeg hp hj, fun hp => Part.remapFound_halted hp hj,
        fun hp => Part.remapFound_doubt hp hj⟩⟩

/-! ### Head-block writes that no bus error cuts (R171) -/

/-- The cell that each written byte is, at its bus address. -/
def busCells (base : Word) (bytes : List (Nat × Byte)) : List Host.Cell :=
  bytes.map (fun x => (busAddress base x.1, x.2))

/-- R171: with no bus error a write puts every byte of its fields and of the sequence word. -/
theorem Part.headWrite_done (p : Part) {bus : Bus} (h : bus.writeErrors = []) (fields : List FieldWrite) :
    p.headWrite bus fields = { p with
      mem := Memory.writeAll p.mem
        (busCells p.regs.windowBase (fieldBytes (fields ++ [sequenceField (p.ed.seq + 1#32)])))
      ed := { p.ed with seq := p.ed.seq + 1#32 } } := by
  have put (m : Memory) (fs : List FieldWrite) : writeFields p.regs.windowBase bus m fs
      = (Memory.writeAll m (busCells p.regs.windowBase (fieldBytes fs)), none) := by
    rw [writeFields_eq_putBytes, putBytes_done _ _ _ (by simp [h])]
    rfl
  have split : Memory.writeAll p.mem
        (busCells p.regs.windowBase (fieldBytes (fields ++ [sequenceField (p.ed.seq + 1#32)])))
      = Memory.writeAll (Memory.writeAll p.mem (busCells p.regs.windowBase (fieldBytes fields)))
          (busCells p.regs.windowBase (fieldBytes [sequenceField (p.ed.seq + 1#32)])) := by
    simp [Memory.writeAll, busCells, fieldBytes]
  rw [split]
  simp only [Part.headWrite, put]

/-- A byte of a field that is written. -/
theorem mem_fieldBytes {fields : List FieldWrite} {f : FieldWrite} (hf : f ∈ fields) {i : Nat} (hi : i < f.size) :
    (f.offset + i, BitVec.ofNat 8 (f.value / 256 ^ i)) ∈ fieldBytes fields := by
  refine List.mem_flatMap.mpr ⟨f, hf, List.mem_map.mpr ⟨i, List.mem_range.mpr hi, rfl⟩⟩

/-- Of writes to different addresses each stands. -/
theorem Memory.read_writeAll_mem {m : Memory} (hm : Memory.wf m = true) {cells : List Host.Cell}
    (hn : (cells.map (·.1)).Nodup) {c : Host.Cell} (hc : c ∈ cells) :
    Memory.read (Memory.writeAll m cells) c.1 = c.2 := by
  induction cells generalizing m with
  | nil => cases hc
  | cons d rest ih =>
    rw [List.map_cons, List.nodup_cons] at hn
    obtain ⟨hd, hrest⟩ := hn
    show Memory.read (Memory.writeAll (Memory.write m d.1 d.2) rest) c.1 = c.2
    rcases List.mem_cons.mp hc with rfl | hc
    · rw [Memory.read_writeAll_other _ _ fun x hx he => hd (List.mem_map.mpr ⟨x, hx, he.symm⟩)]
      exact Memory.read_write_same hm _ _
    · exact ih (Memory.wf_write hm _ _) hrest hc

/-- Offsets of the window's first bytes, none twice, are bus addresses, none twice. -/
theorem busCells_nodup (base : Word) {bytes : List (Nat × Byte)} (hn : (bytes.map (·.1)).Nodup)
    (hlt : ∀ x ∈ bytes, x.1 < 4294967296) : ((busCells base bytes).map (·.1)).Nodup := by
  rw [busCells, List.map_map]
  refine List.pairwise_map.mpr (List.Pairwise.imp_of_mem ?_ (List.pairwise_map.mp hn))
  intro x y hx hy hne he
  exact hne (busAddress_inj base (hlt x hx) (hlt y hy) he)

/-! ### Answers to position requests (R36 to R38) -/

/-- A code is served where the view names it. -/
theorem indexOfCode_eq_none {view : List ServedStop} {code : Nat} :
    indexOfCode view code = none ↔ view.any (fun v => v.code == code) = false := by
  rw [indexOfCode, findIndex_none, List.any_eq_false]
  simp

/-- The place of a code that is served. -/
theorem exists_indexOfCode {view : List ServedStop} {code : Nat} (h : view.any (fun v => v.code == code) = true) :
    ∃ j, indexOfCode view code = some j := by
  cases hi : indexOfCode view code with
  | none => rw [indexOfCode_eq_none.mp hi] at h; cases h
  | some j => exact ⟨j, rfl⟩

/-- R36, R37: no request for a place is met while fewer than two stops are served. -/
theorem Part.answerPosition_noStops {p : Part} {r : PositionRequest} (hr : r.kind ≠ .unplace)
    (hv : p.trk.view.length < 2) : p.answerPosition r = (p, .noStops) := by
  unfold Part.answerPosition
  cases hk : r.kind with
  | placeAtStop => exact if_pos hv
  | placeInLeg => exact if_pos hv
  | unplace => exact absurd hk hr

/-- R36, R37: nor one for a stop that is not served. -/
theorem Part.answerPosition_notServed {p : Part} {r : PositionRequest} (hr : r.kind ≠ .unplace)
    (hv : 2 ≤ p.trk.view.length) (hi : indexOfCode p.trk.view r.code = none) :
    p.answerPosition r = (p, .notServed) := by
  unfold Part.answerPosition Part.answerPlaceAtStop Part.answerPlaceInLeg
  rw [hi, if_neg (Nat.not_lt.mpr hv)]
  cases hk : r.kind with
  | placeAtStop => rfl
  | placeInLeg => rfl
  | unplace => exact absurd hk hr

/-- R36: a placement at a served stop. -/
theorem Part.answerPosition_placeAtStop {p : Part} {r : PositionRequest} {j : Nat} (hr : r.kind = .placeAtStop)
    (hv : 2 ≤ p.trk.view.length) (hi : indexOfCode p.trk.view r.code = some j) :
    p.answerPosition r = (p.placeAtStop j, .done) := by
  simp only [Part.answerPosition, hr, Part.answerPlaceAtStop, if_neg (Nat.not_lt.mpr hv), hi]

/-- R37: the last served stop has no leg. -/
theorem Part.answerPosition_lastStop {p : Part} {r : PositionRequest} {j : Nat} (hr : r.kind = .placeInLeg)
    (hv : 2 ≤ p.trk.view.length) (hi : indexOfCode p.trk.view r.code = some j) (hj : j + 1 = p.trk.view.length) :
    p.answerPosition r = (p, .lastStop) := by
  simp only [Part.answerPosition, hr, Part.answerPlaceInLeg, if_neg (Nat.not_lt.mpr hv), hi, if_pos hj]

/-- R27: arming requests leave the motion state. -/
@[simp] theorem Part.armForLeg_motion (p : Part) (k : Nat) : (p.armForLeg k).odo.motion = p.odo.motion := by
  rw [armingForALeg p k]

/-- R32, R37: the state that a placement in a leg enters, by the Leg Distance it sets. -/
theorem Part.setLeg_enters (p : Part) (mm j : Nat) :
    (p.setLeg mm).enter ((p.setLeg mm).runningOrApproaching j) = { p.setLeg mm with trk := { (p.setLeg mm).trk with
      phase := if (legAt p.trk.view j - p.trk.a) * 1000 ≤ (p.setLeg mm).odo.legDistance then .approaching j
        else .running j } } := rfl

/-- R37: a placement in a leg, with the odometer's motion state as it was before the arming. -/
theorem Part.placeInLeg_eq (p : Part) (j metres : Nat) :
    let inLeg := p.setLeg (min (min metres (legAt p.trk.view j) * 1000) 4294967295)
    let phase : Phase :=
      if (legAt p.trk.view j - p.trk.a) * 1000 ≤ inLeg.odo.legDistance then .approaching j else .running j
    let placed := (Part.publish { inLeg with trk := { inLeg.trk with phase := phase } } .place none).armForLeg j
    p.placeInLeg j metres = Part.judgeMotion { placed with trk := { placed.trk with motion := p.odo.motion } } := by
  unfold Part.placeInLeg placedMm legDistanceMax
  dsimp only
  rw [Part.setLeg_enters, Part.armForLeg_motion]
  rfl

/-- R37: a placement in a leg. -/
theorem Part.answerPosition_placeInLeg {p : Part} {r : PositionRequest} {j : Nat} (hr : r.kind = .placeInLeg)
    (hv : 2 ≤ p.trk.view.length) (hi : indexOfCode p.trk.view r.code = some j) (hj : j + 1 < p.trk.view.length) :
    p.answerPosition r = (p.placeInLeg j r.metres, .done) := by
  simp only [Part.answerPosition, hr, Part.answerPlaceInLeg, if_neg (Nat.not_lt.mpr hv), hi, if_neg (Nat.ne_of_lt hj)]

/-- R38: UNPLACE is always met. -/
theorem Part.answerPosition_unplace {p : Part} {r : PositionRequest} (hr : r.kind = .unplace) :
    p.answerPosition r = (p.unplaceCoach, .done) := by
  simp only [Part.answerPosition, hr]

/-! ### The step that takes a position request (R183, R188) -/

/-- R183: the part as the tracker answers the request handed to it: the host's writes have landed. -/
def Part.handedPosition (p : Part) (bus : Bus) : Part := { p with
  mem := Memory.writeAll (Memory.writeAll p.mem bus.host) bus.late, trk := { p.trk with request := none } }

/-- R183: a request of the row's kind is answered, and the position write made. -/
theorem Part.takePosition_eq {p : Part} {r : PositionRequest} (h : p.trk.request = some r) (bus : Bus) :
    p.takePosition r.kind bus = ((p.handedPosition bus).answerPosition r).1.positionWrite bus
      ((p.handedPosition bus).answerPosition r).2 := by
  simp only [Part.takePosition, h, if_true]
  rfl

/-- R183: each kind of request has its row. -/
theorem exec_position {s : State} {r : PositionRequest} {c : Instr} {bus : Bus} {q : Part}
    (h : s.part.trk.request = some r) (hstop : r.kind = .placeAtStop → c = .placeAtStop bus)
    (hleg : r.kind = .placeInLeg → c = .placeInLeg bus) (hun : r.kind = .unplace → c = .unplace bus)
    (hq : ((s.part.handedPosition bus).answerPosition r).1.positionWrite bus
      ((s.part.handedPosition bus).answerPosition r).2 = q) : exec c s = .next { s with part := q } := by
  have row : exec c s = s.onPart (·.takePosition r.kind bus) := by
    cases hk : r.kind with
    | placeAtStop => rw [hstop hk]; rfl
    | placeInLeg => rw [hleg hk]; rfl
    | unplace => rw [hun hk]; rfl
  exact exec_next _ row ((Part.takePosition_eq h bus).trans hq)

/-- R36 to R38: an answer leaves memory. -/
@[simp] theorem Part.answerPosition_mem (p : Part) (r : PositionRequest) : (p.answerPosition r).1.mem = p.mem := by
  unfold Part.answerPosition Part.answerPlaceAtStop Part.answerPlaceInLeg
  (repeat' split) <;> simp

/-- R36 to R38: an answer leaves the registers. -/
theorem Part.answerPosition_regs (p : Part) (r : PositionRequest) : (p.answerPosition r).1.regs = p.regs := by simp

/-- R36 to R38: an answer leaves the edition unit. -/
theorem Part.answerPosition_ed (p : Part) (r : PositionRequest) : (p.answerPosition r).1.ed = p.ed := by simp

/-- R188: the write is owed while RUN is 0, and where it has not had its turn. -/
theorem Part.positionWrite_owed {p : Part} {bus : Bus} (h : p.regs.run = false ∨ bus.wait = true)
    (r : PositionResult) : p.positionWrite bus r = p.owe (.position r) := by
  refine if_pos ?_
  rcases h with h | h <;> simp [h]

/-- R183: otherwise it is made. -/
theorem Part.positionWrite_made {p : Part} {bus : Bus} (hr : p.regs.run = true) (hw : bus.wait = false)
    (r : PositionResult) : p.positionWrite bus r = p.headWrite bus (positionFields r) :=
  if_neg (by simp [hr, hw])

/-- R171, R183: the bytes of a position write, with their offsets in turn. -/
theorem positionBytes_offsets (r : PositionResult) (seq : Word) :
    (fieldBytes (positionFields r ++ [sequenceField seq])).map (·.1) = [0x91, 0x90, 4, 5, 6, 7] := rfl

/-- R171, R183: a position write that no bus error cuts leaves all but memory and the sequence counter. -/
theorem Part.positionWrite_frame (p : Part) {bus : Bus} (hb : bus.writeErrors = []) (r : PositionResult) :
    let q := p.headWrite bus (positionFields r)
    { q with mem := p.mem, ed := p.ed } = p ∧ q.ed = { p.ed with seq := p.ed.seq + 1#32 } := by
  rw [Part.headWrite_done p hb]
  exact ⟨rfl, rfl⟩

/-- R171, R183: a position write that no bus error cuts, byte by byte. -/
theorem Part.positionWrite_reads {p : Part} {bus : Bus} (hc : p.memoryCanonical) (hb : bus.writeErrors = [])
    (r : PositionResult) :
    let base := p.regs.windowBase
    let q := p.headWrite bus (positionFields r)
    Memory.read q.mem (busAddress base 0x91) = BitVec.ofNat 8 r.code ∧
    Memory.read q.mem (busAddress base 0x90) = 0#8 ∧
    (∀ i, i < 4 → Memory.read q.mem (busAddress base (4 + i)) = BitVec.ofNat 8 (q.ed.seq.toNat / 256 ^ i)) ∧
    ∀ a, (∀ x, x ∈ [0x91, 0x90, 4, 5, 6, 7] → a ≠ busAddress base x) →
      Memory.read q.mem a = Memory.read p.mem a := by
  dsimp only
  rw [Part.headWrite_done p hb]
  have offsets := positionBytes_offsets r (p.ed.seq + 1#32)
  have low : ∀ x ∈ fieldBytes (positionFields r ++ [sequenceField (p.ed.seq + 1#32)]), x.1 < 4294967296 := by
    intro x hx
    have hm : x.1 ∈ [0x91, 0x90, 4, 5, 6, 7] := offsets ▸ List.mem_map_of_mem hx
    simp at hm
    omega
  have nodup := busCells_nodup p.regs.windowBase (by rw [offsets]; decide) low
  have byte {f : FieldWrite} (hf : f ∈ positionFields r ++ [sequenceField (p.ed.seq + 1#32)]) {i : Nat}
      (hi : i < f.size) := Memory.read_writeAll_mem hc nodup (List.mem_map_of_mem (mem_fieldBytes hf hi))
  refine ⟨?_, ?_, fun i hi => ?_, fun a ha => ?_⟩
  · simpa using byte (f := { offset := 0x91, size := 1, value := r.code }) (i := 0) (by simp [positionFields])
      Nat.one_pos
  · simpa using byte (f := { offset := 0x90, size := 1, value := 0 }) (i := 0) (by simp [positionFields]) Nat.one_pos
  · exact byte (f := sequenceField (p.ed.seq + 1#32)) (by simp) hi
  · refine Memory.read_writeAll_other _ _ fun c hcell => ?_
    obtain ⟨x, hx, rfl⟩ := List.mem_map.mp hcell
    exact ha x.1 (offsets ▸ List.mem_map_of_mem hx)

/-- Settles O25: the answers, what they do, and the step that writes one. -/
theorem positionRequestsAreAnswered : Obligations.PositionRequestsAreAnswered := by
  refine ⟨⟨fun p r => ⟨fun hr => ?_, fun hr hv => Part.answerPosition_noStops hr hv, fun hr hv hs => ?_,
      fun hr hv hs => ?_, fun hr hv j hi => ⟨fun hj => ?_, fun hj => ?_⟩⟩,
    fun p code metres j hv hi => ⟨?_, fun hj => ?_⟩, fun p code metres => ?_,
    fun s => ⟨fun m rest hin => ?_, fun d rest hin => ?_⟩⟩, fun s r c bus h hstop hleg hun => ⟨?_, ?_, ?_⟩⟩
  · rw [Part.answerPosition_unplace hr]
  · exact Part.answerPosition_notServed hr hv (indexOfCode_eq_none.mpr hs)
  · obtain ⟨j, hi⟩ := exists_indexOfCode hs
    rw [Part.answerPosition_placeAtStop hr hv hi]
  · exact Part.answerPosition_lastStop hr hv hi hj
  · rw [Part.answerPosition_placeInLeg hr hv hi hj]
  · rw [Part.answerPosition_placeAtStop rfl hv hi]
    rfl
  · rw [Part.answerPosition_placeInLeg rfl hv hi hj]
    exact p.placeInLeg_eq j metres
  · rw [Part.answerPosition_unplace rfl]
    rfl
  · exact exec_motionChange hin rfl
  · exact exec_doorChange hin rfl
  · intro howed
    exact exec_position h hstop hleg hun (Part.positionWrite_owed (by rwa [Part.answerPosition_regs]) _)
  · intro hrun hwait
    exact exec_position h hstop hleg hun (Part.positionWrite_made (by rwa [Part.answerPosition_regs]) hwait _)
  · intro hrun hwait hb hc
    have made := Part.positionWrite_made (bus := bus)
      (by rwa [Part.answerPosition_regs (s.part.handedPosition bus) r]) hwait
    have canonical : ((s.part.handedPosition bus).answerPosition r).1.memoryCanonical := by
      rw [Part.memoryCanonical, Part.answerPosition_mem]
      exact Memory.wf_writeAll (Memory.wf_writeAll hc _) _
    have frame := Part.positionWrite_frame ((s.part.handedPosition bus).answerPosition r).1 hb
      ((s.part.handedPosition bus).answerPosition r).2
    have reads := Part.positionWrite_reads canonical hb ((s.part.handedPosition bus).answerPosition r).2
    dsimp only at frame reads
    rw [Part.answerPosition_mem, Part.answerPosition_regs] at reads
    have counter := congrArg (·.seq) (Part.answerPosition_ed (s.part.handedPosition bus) r)
    rw [counter] at frame
    obtain ⟨others, ed⟩ := frame
    obtain ⟨result, kind, sequence, outside⟩ := reads
    exact ⟨_, exec_position h hstop hleg hun (made _), rfl, others, ed, result, kind, sequence, outside⟩

end Sys2Proof.Machine
end

section
/-! PROOF. The records of the three tables (R21, R64, R86, 11.3): the order of the checks, where the fields stand, and
the records taken one after another. -/

namespace Sys2Proof.Machine

/-! ### Checks made in order (R174) -/

/-- A row of a rule's table of checks and the model's check of it. -/
def SameCheck (row : Prop × Result) (check : Bool × Result) : Prop := (row.1 ↔ check.1 = true) ∧ row.2 = check.2

/-- The first failure of checks is the first row of their table that holds. -/
theorem firstFailure_refusesFirst {table : List (Prop × Result)} {checks : List (Bool × Result)}
    (h : List.Forall₂ SameCheck table checks) : refusesFirst table (firstFailure checks) := by
  induction h with
  | nil => simp [refusesFirst, firstFailure]
  | @cons row check rows rest hrow _ ih =>
    obtain ⟨c, r⟩ := row
    obtain ⟨bad, r'⟩ := check
    obtain ⟨hc, rfl⟩ : (c ↔ bad = true) ∧ r = r' := hrow
    cases bad with
    | true =>
      have hold : c := hc.mpr rfl
      refine ⟨⟨fun hnone => (nomatch hnone), fun hall => absurd hold (hall _ List.mem_cons_self)⟩, fun x => ⟨?_, ?_⟩⟩
      · intro hx
        obtain rfl : r = x := Option.some.inj hx
        exact ⟨0, c, rfl, hold, fun j _ hj => absurd hj (Nat.not_lt_zero j)⟩
      · rintro ⟨i, d, hi, -, hbefore⟩
        cases i with
        | zero =>
          obtain ⟨-, rfl⟩ := Prod.mk.inj (Option.some.inj hi)
          rfl
        | succ i => exact absurd hold (hbefore 0 _ (Nat.succ_pos i) rfl)
    | false =>
      have fails : ¬ c := fun hold => nomatch hc.mp hold
      obtain ⟨hnone, hsome⟩ := ih
      refine ⟨?_, fun x => (hsome x).trans ⟨?_, ?_⟩⟩
      · show firstFailure rest = none ↔ _
        rw [hnone, List.forall_mem_cons]
        exact ⟨fun hall => ⟨fails, hall⟩, fun hall => hall.2⟩
      · rintro ⟨i, d, hi, hd, hbefore⟩
        refine ⟨i + 1, d, hi, hd, fun j y hj hy => ?_⟩
        cases j with
        | zero => exact (Option.some.inj hy) ▸ fails
        | succ j => exact hbefore j y (Nat.lt_of_succ_lt_succ hj) hy
      · rintro ⟨i, d, hi, hd, hbefore⟩
        cases i with
        | zero =>
          obtain ⟨rfl, -⟩ := Prod.mk.inj (Option.some.inj hi)
          exact absurd hd fails
        | succ i => exact ⟨i, d, hi, hd, fun j y hj hy => hbefore (j + 1) y (Nat.succ_lt_succ hj) hy⟩

/-- Checks after others are made where none of those fails. -/
theorem firstFailure_append (xs ys : List (Bool × Result)) :
    firstFailure (xs ++ ys) = match firstFailure xs with
      | some r => some r
      | none => firstFailure ys := by
  induction xs with
  | nil => rfl
  | cons x xs ih =>
    obtain ⟨bad, r⟩ := x
    cases bad with
    | true => rfl
    | false => exact ih

/-- The checks of several things in turn. -/
theorem firstFailure_flatMap {α : Type} (checks : α → List (Bool × Result)) (xs : List α) :
    firstFailure (xs.flatMap checks) = xs.findSome? (fun x => firstFailure (checks x)) := by
  induction xs with
  | nil => rfl
  | cons x xs ih =>
    rw [List.flatMap_cons, firstFailure_append, List.findSome?_cons, ih]
    cases firstFailure (checks x) <;> rfl

/-- The rows of several things in turn are the checks of them. -/
theorem sameChecks_flatMap {α : Type} {rows : α → List (Prop × Result)} {checks : α → List (Bool × Result)}
    (h : ∀ x, List.Forall₂ SameCheck (rows x) (checks x)) (xs : List α) :
    List.Forall₂ SameCheck (xs.flatMap rows) (xs.flatMap checks) := by
  induction xs with
  | nil => exact .nil
  | cons x xs ih => exact List.rel_append (h x) ih

/-- A value among those of earlier records. -/
theorem any_eq_iff {α : Type} (field : α → Nat) (xs : List α) (n : Nat) :
    (∃ q ∈ xs, field q = n) ↔ xs.any (fun q => field q == n) = true := by
  simp

/-! ### The checks of a stop record (R21) -/

/-- R21: the scheduled times are within the day. -/
theorem lateTime_iff (t : Option Nat) : lateTime t = true ↔ ∃ m, t = some m ∧ 1439 < m := by
  cases t <;> simp [lateTime]

theorem stopCheck_refusesFirst (n : Nat) (before : List StopRecord) (i : Nat) (r : StopRecord) : refusesFirst
    [ (r.code = 0, .range), (∃ q ∈ before, q.code = r.code, .duplicate), (r.mask = 0 ∨ 15 < r.mask, .range),
      (i + 1 < n ∧ (r.legLength < 1 ∨ 1000000 < r.legLength), .range), (i + 1 = n ∧ r.legLength ≠ 0, .range),
      (∃ q, before.getLast? = some q ∧ r.mapX ≤ q.mapX, .order),
      (∃ m, (r.arrival = some m ∨ r.departure = some m) ∧ 1439 < m, .range) ] (stopCheck n before i r) := by
  refine firstFailure_refusesFirst (.cons ⟨?_, rfl⟩ (.cons ⟨any_eq_iff _ _ _, rfl⟩ (.cons ⟨?_, rfl⟩ (.cons ⟨?_, rfl⟩
    (.cons ⟨?_, rfl⟩ (.cons ⟨?_, rfl⟩ (.cons ⟨?_, rfl⟩ .nil)))))))
  · simp
  · simp only [Bool.or_eq_true, decide_eq_true_eq]
    omega
  · simp only [Bool.and_eq_true, Bool.or_eq_true, decide_eq_true_eq]
    omega
  · simp
  · cases before.getLast? <;> simp
  · simp only [Bool.or_eq_true, lateTime_iff, or_and_right, exists_or]

/-! ### The checks of a seat entry (R64) -/

/-- R64: the checks of an entry itself. -/
def seatEntryRows (before : List RawEntry) (e : RawEntry) : List (Bool × Result) :=
  [ (decide (e.number = 0) || decide (999 < e.number), .range),
    (before.any (fun q => q.number == e.number), .duplicate),
    ((match before.getLast? with
      | none => false
      | some q => decide (e.number < q.number)), .order),
    (decide (4 < e.count), .count) ]

/-- R64: the checks of a segment. -/
def segmentRows (g : RawSegment) : List (Bool × Result) :=
  [ (decide (segKindOf g.kind = none), .range), (decide (g.fromCode = 0) || decide (g.toCode = 0), .range) ]

/-- R64: the checks of an entry are its own, then those of its segments. -/
theorem seatEntryCheck_eq (before : List RawEntry) (i : Nat) (e : RawEntry) :
    seatEntryCheck before i e = firstFailure (seatEntryRows before e ++ e.segments.flatMap segmentRows) := by
  rw [firstFailure_append, firstFailure_flatMap]
  rfl

/-- 11.3: the named kinds of a segment. -/
theorem segKindOf_eq_none (n : Nat) : segKindOf n = none ↔ n ≠ 1 ∧ n ≠ 2 := by
  unfold segKindOf
  split <;> simp_all

theorem seatEntryCheck_refusesFirst (before : List RawEntry) (i : Nat) (e : RawEntry) : refusesFirst
    ([ (e.number = 0 ∨ 999 < e.number, .range), (∃ q ∈ before, q.number = e.number, .duplicate),
       (∃ q, before.getLast? = some q ∧ e.number < q.number, .order), (4 < e.count, .count) ]
      ++ e.segments.flatMap (fun g =>
        [(g.kind ≠ 1 ∧ g.kind ≠ 2, .range), (g.fromCode = 0 ∨ g.toCode = 0, .range)])) (seatEntryCheck before i e) := by
  rw [seatEntryCheck_eq]
  refine firstFailure_refusesFirst (List.rel_append (.cons ⟨?_, rfl⟩ (.cons ⟨any_eq_iff _ _ _, rfl⟩
    (.cons ⟨?_, rfl⟩ (.cons ⟨?_, rfl⟩ .nil))))
    (sameChecks_flatMap (fun g => .cons ⟨?_, rfl⟩ (.cons ⟨?_, rfl⟩ .nil)) _))
  · simp [segKindOf_eq_none]
  · simp
  · simp
  · cases before.getLast? <;> simp
  · simp

/-! ### The checks of a notice (R86) -/

/-- 11.3: the trigger codes in order. -/
theorem triggerOf_eq (n : Nat) :
    triggerOf n = [Trigger.approach, .distance, .depart, .arrive, .pass, .doors, .halt][n]? := by
  unfold triggerOf
  split <;> simp_all
  omega

/-- 11.3: the stop filter codes in order. -/
theorem stopFilterOf_eq (n : Nat) :
    stopFilterOf n = [StopFilter.all, .divideAhead, .terminusAhead, .code, .joinAhead][n]? := by
  unfold stopFilterOf
  split <;> simp_all
  omega

/-- 11.3: the end condition codes in order. -/
theorem endConditionOf_eq (n : Nat) :
    endConditionOf n = [EndCondition.timer, .arrive, .depart, .legChange][n]? := by
  unfold endConditionOf
  split <;> simp_all
  omega

/-- 11.1: a notice without a target. -/
theorem targets_none_iff (n : Nat) : (n.testBit 0 = false ∧ n.testBit 1 = false) ↔ n % 4 = 0 := by
  simp only [Nat.testBit_zero, Nat.testBit_succ, decide_eq_false_iff_not]
  omega

theorem noticeCheck_refusesFirst (before : List RawNotice) (i : Nat) (d : RawNotice) : refusesFirst
    [ (d.id = 0, .range), (∃ q ∈ before, q.id = d.id, .duplicate),
      (6 < d.trigger ∨ 4 < d.filter ∨ 3 < d.endCondition, .range), (d.filter = 3 ∧ d.filterCode = 0, .range),
      (d.targets.testBit 0 = false ∧ d.targets.testBit 1 = false, .range), (63 < d.page, .range),
      (7 < d.priority, .range), (d.duration = 0 ∨ 1023 < d.duration, .range), (1023 < d.gap, .range),
      (3 < d.tones, .range) ] (noticeCheck before i d) := by
  refine firstFailure_refusesFirst (.cons ⟨?_, rfl⟩ (.cons ⟨any_eq_iff _ _ _, rfl⟩ (.cons ⟨?_, rfl⟩ (.cons ⟨?_, rfl⟩
    (.cons ⟨?_, rfl⟩ (.cons ⟨?_, rfl⟩ (.cons ⟨?_, rfl⟩ (.cons ⟨?_, rfl⟩ (.cons ⟨?_, rfl⟩
      (.cons ⟨?_, rfl⟩ .nil))))))))))
  · simp
  · simp only [triggerOf_eq, stopFilterOf_eq, endConditionOf_eq, List.getElem?_eq_none_iff, List.length_cons,
      List.length_nil, Bool.or_eq_true, decide_eq_true_eq]
    omega
  · simp
  · rw [targets_none_iff, decide_eq_true_eq]
  all_goals simp

/-! ### Where the fields stand (11.3) -/

/-- A read followed by another succeeds where both do. -/
theorem bind_eq_ok {ε α β : Type} {x : Except ε α} {f : α → Except ε β} {b : β} (h : (x >>= f) = .ok b) :
    ∃ a, x = .ok a ∧ f a = .ok b := by
  cases x with
  | error e => cases h
  | ok a => exact ⟨a, rfl, h⟩

/-- 11.3: a stop record's fields. -/
theorem View.stop_fields {v : View} {a : Nat} {r : StopRecord} (h : v.stop a = .ok r) :
    ∃ name short flags arrival departure,
      v.u16 a = .ok r.code ∧ v.u16 (a + 2) = .ok name ∧ r.name = optional16 name ∧ v.u16 (a + 4) = .ok short ∧
      r.shortName = optional16 short ∧ v.u8 (a + 6) = .ok r.mask ∧ v.u8 (a + 7) = .ok flags ∧
      r.divide = flags.testBit 0 ∧ r.join = flags.testBit 1 ∧ v.u32 (a + 8) = .ok r.legLength ∧
      v.u16 (a + 12) = .ok r.mapX ∧ v.u16 (a + 14) = .ok arrival ∧ r.arrival = optional16 arrival ∧
      v.u16 (a + 16) = .ok departure ∧ r.departure = optional16 departure := by
  obtain ⟨code, hcode, h⟩ := bind_eq_ok h
  obtain ⟨name, hname, h⟩ := bind_eq_ok h
  obtain ⟨short, hshort, h⟩ := bind_eq_ok h
  obtain ⟨mask, hmask, h⟩ := bind_eq_ok h
  obtain ⟨flags, hflags, h⟩ := bind_eq_ok h
  obtain ⟨leg, hleg, h⟩ := bind_eq_ok h
  obtain ⟨mapX, hmapX, h⟩ := bind_eq_ok h
  obtain ⟨arrival, harrival, h⟩ := bind_eq_ok h
  obtain ⟨departure, hdeparture, h⟩ := bind_eq_ok h
  cases h
  exact ⟨name, short, flags, arrival, departure, hcode, hname, rfl, hshort, rfl, hmask, hflags, rfl, rfl, hleg, hmapX,
    harrival, rfl, hdeparture, rfl⟩

/-- 11.3: a segment place's fields. -/
theorem View.segment_fields {v : View} {a : Nat} {g : RawSegment} (h : v.segment a = .ok g) :
    ∃ label note, v.u8 a = .ok g.kind ∧ v.u16 (a + 2) = .ok g.fromCode ∧ v.u16 (a + 4) = .ok g.toCode ∧
      v.u16 (a + 6) = .ok label ∧ g.label = optional16 label ∧ v.u16 (a + 8) = .ok note ∧
      g.note = optional16 note := by
  obtain ⟨kind, hkind, h⟩ := bind_eq_ok h
  obtain ⟨f, hf, h⟩ := bind_eq_ok h
  obtain ⟨t, ht, h⟩ := bind_eq_ok h
  obtain ⟨label, hlabel, h⟩ := bind_eq_ok h
  obtain ⟨note, hnote, h⟩ := bind_eq_ok h
  cases h
  exact ⟨label, note, hkind, hf, ht, hlabel, rfl, hnote, rfl⟩

/-- 11.3: segment places follow one another, 12 bytes each. -/
theorem View.segments_places {v : View} {n a : Nat} {gs : List RawSegment} (h : v.segments n a = .ok gs) :
    gs.length = n ∧ ∀ (i : Nat) (g : RawSegment), gs[i]? = some g → v.segment (a + 12 * i) = .ok g := by
  induction n generalizing a gs with
  | zero =>
    cases h
    exact ⟨rfl, fun i g hi => nomatch hi⟩
  | succ n ih =>
    obtain ⟨s, hs, h⟩ := bind_eq_ok h
    obtain ⟨rest, hrest, h⟩ := bind_eq_ok h
    cases h
    obtain ⟨hlen, hplace⟩ := ih hrest
    refine ⟨congrArg (· + 1) hlen, fun i g hi => ?_⟩
    cases i with
    | zero => exact Option.some.inj hi ▸ hs
    | succ i =>
      rw [show a + 12 * (i + 1) = a + 12 + 12 * i by omega]
      exact hplace i g hi

/-- 11.3: a seat entry's fields, and its segments in their places. -/
theorem View.seatEntry_fields {v : View} {a : Nat} {e : RawEntry} (h : v.seatEntry a = .ok e) :
    v.u16 a = .ok e.number ∧ v.u8 (a + 2) = .ok e.count ∧
      v.segments (if 4 < e.count then 0 else e.count) (a + 4) = .ok e.segments := by
  obtain ⟨number, hnumber, h⟩ := bind_eq_ok h
  obtain ⟨count, hcount, h⟩ := bind_eq_ok h
  obtain ⟨segments, hsegments, h⟩ := bind_eq_ok h
  cases h
  exact ⟨hnumber, hcount, hsegments⟩

/-- 11.3: a notice definition's fields. -/
theorem View.notice_fields {v : View} {a : Nat} {d : RawNotice} (h : v.notice a = .ok d) :
    v.u8 a = .ok d.id ∧ v.u8 (a + 1) = .ok d.trigger ∧ v.u16 (a + 2) = .ok d.metres ∧
      v.u8 (a + 4) = .ok d.filter ∧ v.u8 (a + 5) = .ok d.targets ∧ v.u16 (a + 6) = .ok d.filterCode ∧
      v.u8 (a + 8) = .ok d.page ∧ v.u8 (a + 9) = .ok d.priority ∧ v.u16 (a + 10) = .ok d.duration ∧
      v.u16 (a + 12) = .ok d.gap ∧ v.u8 (a + 14) = .ok d.endCondition ∧ v.u8 (a + 15) = .ok d.tones := by
  obtain ⟨id, hid, h⟩ := bind_eq_ok h
  obtain ⟨trigger, htrigger, h⟩ := bind_eq_ok h
  obtain ⟨metres, hmetres, h⟩ := bind_eq_ok h
  obtain ⟨filter, hfilter, h⟩ := bind_eq_ok h
  obtain ⟨targets, htargets, h⟩ := bind_eq_ok h
  obtain ⟨code, hcode, h⟩ := bind_eq_ok h
  obtain ⟨page, hpage, h⟩ := bind_eq_ok h
  obtain ⟨priority, hpriority, h⟩ := bind_eq_ok h
  obtain ⟨duration, hduration, h⟩ := bind_eq_ok h
  obtain ⟨gap, hgap, h⟩ := bind_eq_ok h
  obtain ⟨ending, hending, h⟩ := bind_eq_ok h
  obtain ⟨tones, htones, h⟩ := bind_eq_ok h
  cases h
  exact ⟨hid, htrigger, hmetres, hfilter, htargets, hcode, hpage, hpriority, hduration, hgap, hending, htones⟩

/-! ### Records one after another (R22, log 59) -/

/-- Records that can be read and pass their checks are taken, and the reading goes on behind them. -/
theorem readRecords_taken {α : Type} {read : Nat → Except MemFail α} {check : List α → Nat → α → Option Result}
    {size : Nat} (n : Nat) {rs before : List α} {i a : Nat}
    (h : ∀ (j : Nat) (r : α), rs[j]? = some r →
      read (a + size * j) = .ok r ∧ check (before ++ rs.take j) (i + j) r = none) :
    readRecords read check size (rs.length + n) i a before
      = readRecords read check size n (i + rs.length) (a + size * rs.length) (before ++ rs) := by
  induction rs generalizing before i a with
  | nil => simp
  | cons r rs ih =>
    obtain ⟨hread, hcheck⟩ := h 0 r rfl
    simp only [Nat.mul_zero, Nat.add_zero, List.take_zero, List.append_nil] at hread hcheck
    have hrest : ∀ (j : Nat) (r' : α), rs[j]? = some r' →
        read (a + size + size * j) = .ok r' ∧ check ((before ++ [r]) ++ rs.take j) (i + 1 + j) r' = none := by
      intro j r' hj
      have := h (j + 1) r' hj
      rwa [List.take_succ_cons, List.append_cons before, Nat.mul_succ, Nat.add_comm (size * j), ← Nat.add_assoc,
        Nat.add_comm j 1, ← Nat.add_assoc] at this
    rw [List.length_cons, Nat.add_right_comm, readRecords]
    simp only [hread, hcheck]
    rw [ih hrest, List.append_cons before r rs, Nat.mul_succ, Nat.add_comm (size * rs.length), Nat.add_comm rs.length 1,
      Nat.add_assoc, Nat.add_assoc]

/-- R21, R64, R86: the records of a copy. -/
theorem readRecords_inOrder {α : Type} (read : Nat → Except MemFail α) (check : List α → Nat → α → Option Result)
    (size n first : Nat) : recordsInOrder read check size n first (readRecords read check size n 0 first []) := by
  intro rs hle h place
  obtain ⟨m, rfl⟩ := Nat.exists_eq_add_of_le hle
  have taken := readRecords_taken (read := read) (check := check) (size := size) m (before := []) (i := 0)
    (fun j r hj => by simpa using h j r hj)
  rw [taken, List.nil_append, Nat.zero_add]
  refine ⟨fun hlen => ?_, fun hlt => ?_⟩
  · obtain rfl : m = 0 := by omega
    rfl
  · obtain ⟨m, rfl⟩ : ∃ m', m = m' + 1 := ⟨m - 1, by omega⟩
    refine ⟨fun f hf => ?_, fun r e hr he => ?_⟩
    · simp only [readRecords, show read (first + size * rs.length) = .error f from hf, place]
    · simp only [readRecords, show read (first + size * rs.length) = .ok r from hr, he, place]

end Sys2Proof.Machine
end

section
/-! PROOF. The three table loads: their start under one pin, their end (R22, R65, R66, R87, R46, R67, R178); O27. -/

namespace Sys2Proof.Machine

/-! ### What a load reads (R22, R65, R87, log 37) -/

/-- A load whose record count cannot be read reports the copy. -/
theorem View.loadRecords_unread {α : Type} {v : View} {a : Nat} {f : MemFail} (h : v.u16 (a + 12) = .error f)
    (countBad : Nat → Bool) (records : Nat → Except (Nat × Reject) (List α)) :
    v.loadRecords a countBad records = .error { cause := f.cause, address := a } := by
  simp only [View.loadRecords, h]

/-- A load whose record count is out of range reports the copy. -/
theorem View.loadRecords_badCount {α : Type} {v : View} {a n : Nat} (h : v.u16 (a + 12) = .ok n)
    {countBad : Nat → Bool} (hn : countBad n = true) (records : Nat → Except (Nat × Reject) (List α)) :
    v.loadRecords a countBad records = .error { cause := .check, address := a } := by
  simp only [View.loadRecords, h, hn, if_true]

/-- The cause that a load reports of a record that fails (R169). -/
def Reject.cause : Reject → ErrorCause
  | .memory f => f.cause
  | .result _ => .check

/-- The fault a load reports names the record. -/
theorem loadFault_eq (at_ : Nat) (e : Reject) : loadFault (at_, e) = { cause := e.cause, address := at_ } := by
  cases e <;> rfl

/-- A load of a record count within range is its records, or the fault of the first that fails. -/
theorem View.loadRecords_counted {α : Type} {v : View} {a n : Nat} (h : v.u16 (a + 12) = .ok n)
    {countBad : Nat → Bool} (hn : countBad n = false) (records : Nat → Except (Nat × Reject) (List α)) :
    (∀ rs, records n = .ok rs → v.loadRecords a countBad records = .ok rs) ∧
    ∀ at_ e, records n = .error (at_, e) →
      v.loadRecords a countBad records = .error { cause := e.cause, address := at_ } := by
  simp only [View.loadRecords, h, hn, Bool.false_eq_true, if_false]
  exact ⟨fun rs hrs => by rw [hrs], fun at_ e he => by rw [he, ← loadFault_eq]⟩

/-- R21: the record counts of a stop list. -/
theorem stopCountBad_iff (n : Nat) : stopCountBad n = true ↔ n = 0 ∨ 64 < n := by
  simp [stopCountBad]

/-! ### The start of a load (R22, R65, R87, R178) -/

/-- A kind's state with the pin of a load in flight dropped (R178). -/
def KindState.dropLoad (s : KindState) (l : LoadState) : KindState :=
  match l with
  | .loading c _ _ => s.unpin c
  | .idle => s
  | .owed => s

/-- Dropping the pin of a load in flight changes the kind's state alone. -/
theorem Part.dropLoadPin_eq (p : Part) (k : Kind) (l : LoadState) :
    p.dropLoadPin k l = p.changeKind k (·.dropLoad l) := by
  cases l with
  | loading c a e => rfl
  | idle | owed => simp [Part.dropLoadPin, Part.changeKind, KindState.dropLoad]

/-- A dropped pin leaves what is live. -/
theorem KindState.dropLoad_live (s : KindState) (l : LoadState) : (s.dropLoad l).live = s.live ∧
    (s.dropLoad l).liveAddress = s.liveAddress ∧ (s.dropLoad l).liveEdition = s.liveEdition := by
  cases l with
  | loading c a e => cases c <;> exact ⟨rfl, rfl, rfl⟩
  | idle | owed => exact ⟨rfl, rfl, rfl⟩

/-- The later of two settings of a kind stands. -/
@[simp] theorem Edition.setKind_setKind (e : Edition) (k : Kind) (s t : KindState) :
    (e.setKind k s).setKind k t = e.setKind k t := by
  cases k <;> rfl

/-- R22, R65, R87, R178: while RUN is 1 a load drops the pin of the load it abandons and takes one on the live copy. -/
theorem Part.beginLoad_pins {p : Part} {k : Kind} {copy : Copy} {address : Nat} (hr : p.regs.run = true)
    (hl : (p.ed.kind k).live = some copy) (ha : (p.ed.kind k).liveAddress = some address) (l : LoadState) :
    p.beginLoad k l = ({ p with ed := p.ed.setKind k (((p.ed.kind k).dropLoad l).pin copy) },
      .loading copy address (p.ed.kind k).liveEdition) := by
  obtain ⟨hlive, haddress, hedition⟩ := (p.ed.kind k).dropLoad_live l
  have dropped : (p.dropLoadPin k l).ed.kind k = (p.ed.kind k).dropLoad l := by
    simp [Part.dropLoadPin_eq]
  rw [Part.beginLoad_running p k l hr copy address (by rw [dropped, hlive, hl]) (by rw [dropped, haddress, ha]),
    dropped, hedition, Part.dropLoadPin_eq]
  simp [Part.pin, Part.changeKind]

/-- R22: the tracker's load begun. -/
theorem Part.startStopLoad_pins {p : Part} {copy : Copy} {address : Nat} {left : KindState}
    (hr : p.regs.run = true) (hl : p.ed.stops.live = some copy) (ha : p.ed.stops.liveAddress = some address)
    (hleft : p.ed.stops.dropLoad p.trk.load = left) :
    p.startStopLoad = { p with
      trk := { p.trk with load := .loading copy address p.ed.stops.liveEdition }
      ed := { p.ed with stops := left.pin copy } } := by
  subst hleft
  rw [Part.startStopLoad, Part.beginLoad_pins (k := .stopList) hr hl ha]
  rfl

/-- R65: the engine's load begun. -/
theorem Part.startSeatLoad_pins {p : Part} {copy : Copy} {address : Nat} {left : KindState}
    (hr : p.regs.run = true) (hl : p.ed.reservations.live = some copy)
    (ha : p.ed.reservations.liveAddress = some address)
    (hleft : p.ed.reservations.dropLoad p.res.load = left) :
    p.startSeatLoad = { p with
      res := { p.res with load := .loading copy address p.ed.reservations.liveEdition }
      ed := { p.ed with reservations := left.pin copy } } := by
  subst hleft
  rw [Part.startSeatLoad, Part.beginLoad_pins (k := .reservationTable) hr hl ha]
  rfl

/-- R87: the scheduler's load begun. -/
theorem Part.startNoticeLoad_pins {p : Part} {copy : Copy} {address : Nat} {left : KindState}
    (hr : p.regs.run = true) (hl : p.ed.notices.live = some copy) (ha : p.ed.notices.liveAddress = some address)
    (hleft : p.ed.notices.dropLoad p.ntc.load = left) :
    p.startNoticeLoad = { p with
      ntc := { p.ntc with load := .loading copy address p.ed.notices.liveEdition }
      ed := { p.ed with notices := left.pin copy } } := by
  subst hleft
  rw [Part.startNoticeLoad, Part.beginLoad_pins (k := .noticeTable) hr hl ha]
  rfl

/-- R22, R178: the tracker told to load while RUN is 1. -/
theorem Part.stopLoadTold_pins {p : Part} {copy : Copy} {address : Nat} (hr : p.regs.run = true)
    (hl : p.ed.stops.live = some copy) (ha : p.ed.stops.liveAddress = some address) (ht : p.trk.told ≠ 0) :
    p.stopLoadTold = { p with
      trk := { p.trk with told := p.trk.told - 1, load := .loading copy address p.ed.stops.liveEdition }
      ed := { p.ed with stops := (p.ed.stops.dropLoad p.trk.load).pin copy } } := by
  rw [Part.stopLoadTold, if_neg ht]
  exact Part.startStopLoad_pins (p := { p with trk := { p.trk with told := p.trk.told - 1 } }) hr hl ha rfl

/-- R46: the tracker owing a load at a sweep boundary. -/
theorem Part.trackerBoundary_pins {p : Part} {copy : Copy} {address : Nat} (hr : p.regs.run = true)
    (hl : p.ed.stops.live = some copy) (ha : p.ed.stops.liveAddress = some address) (hb : p.trk.boundaries ≠ 0)
    (ho : p.trk.load = .owed) :
    p.trackerBoundary = { p with
      trk := { p.trk with
        boundaries := p.trk.boundaries - 1, load := .loading copy address p.ed.stops.liveEdition }
      ed := { p.ed with stops := p.ed.stops.pin copy } } := by
  rw [Part.trackerBoundary, if_neg hb]
  dsimp only
  rw [if_pos ⟨ho, hr⟩]
  have kept : p.ed.stops.dropLoad p.trk.load = p.ed.stops := by
    rw [ho]
    rfl
  exact Part.startStopLoad_pins (p := { p with trk := { p.trk with boundaries := p.trk.boundaries - 1 } })
    hr hl ha kept

/-- R65, R178: the engine told to load while RUN is 1. -/
theorem Part.seatLoadTold_pins {p : Part} {copy : Copy} {address : Nat} (hr : p.regs.run = true)
    (hl : p.ed.reservations.live = some copy) (ha : p.ed.reservations.liveAddress = some address)
    (ht : p.res.told ≠ 0) :
    p.seatLoadTold = { p with
      res := { p.res with told := p.res.told - 1, load := .loading copy address p.ed.reservations.liveEdition }
      ed := { p.ed with reservations := (p.ed.reservations.dropLoad p.res.load).pin copy } } := by
  rw [Part.seatLoadTold, if_neg ht]
  exact Part.startSeatLoad_pins (p := { p with res := { p.res with told := p.res.told - 1 } }) hr hl ha rfl

/-- R67: the engine owing a load at a sweep boundary. -/
theorem Part.reservationBoundary_pins {p : Part} {copy : Copy} {address : Nat} (hr : p.regs.run = true)
    (hl : p.ed.reservations.live = some copy) (ha : p.ed.reservations.liveAddress = some address)
    (hb : p.res.boundaries ≠ 0) (ho : p.res.load = .owed) :
    p.reservationBoundary = { p with
      res := { p.res with
        boundaries := p.res.boundaries - 1, load := .loading copy address p.ed.reservations.liveEdition }
      ed := { p.ed with reservations := p.ed.reservations.pin copy } } := by
  rw [Part.reservationBoundary, if_neg hb]
  dsimp only
  rw [if_pos ⟨ho, hr⟩]
  have kept : p.ed.reservations.dropLoad p.res.load = p.ed.reservations := by
    rw [ho]
    rfl
  exact Part.startSeatLoad_pins (p := { p with res := { p.res with boundaries := p.res.boundaries - 1 } })
    hr hl ha kept

/-- R87, R178: the scheduler told to load while RUN is 1. -/
theorem Part.noticeLoadTold_pins {p : Part} {copy : Copy} {address : Nat} (hr : p.regs.run = true)
    (hl : p.ed.notices.live = some copy) (ha : p.ed.notices.liveAddress = some address) (ht : p.ntc.told ≠ 0) :
    p.noticeLoadTold = { p with
      ntc := { p.ntc with told := p.ntc.told - 1, load := .loading copy address p.ed.notices.liveEdition }
      ed := { p.ed with notices := (p.ed.notices.dropLoad p.ntc.load).pin copy } } := by
  rw [Part.noticeLoadTold, if_neg ht]
  exact Part.startNoticeLoad_pins (p := { p with ntc := { p.ntc with told := p.ntc.told - 1 } }) hr hl ha rfl

/-! ### The end of a load (R22, R66, R87, log 13) -/

/-- R22: the part as the tracker's load ends: the host's writes have landed, the pin is dropped. -/
def Part.stopLoadEnded (p : Part) (bus : Bus) (copy : Copy) : Part := { p with
  mem := Memory.writeAll p.mem bus.host, ed := { p.ed with stops := p.ed.stops.unpin copy }
  trk := { p.trk with load := .idle } }

/-- R66: the part as the engine's load ends. -/
def Part.seatLoadEnded (p : Part) (bus : Bus) (copy : Copy) : Part := { p with
  mem := Memory.writeAll p.mem bus.host, ed := { p.ed with reservations := p.ed.reservations.unpin copy }
  res := { p.res with load := .idle } }

/-- R87: the part as the scheduler's load ends. -/
def Part.noticeLoadEnded (p : Part) (bus : Bus) (copy : Copy) : Part := { p with
  mem := Memory.writeAll p.mem bus.host, ed := { p.ed with notices := p.ed.notices.unpin copy }
  ntc := { p.ntc with load := .idle } }

/-- R22: a fault leaves the store, the records read replace it. -/
theorem Part.completeStopLoad_eq {p : Part} {copy : Copy} {address edition : Nat}
    (h : p.trk.load = .loading copy address edition) (bus : Bus) :
    p.completeStopLoad bus = match ((p.hostWrites bus).view bus).loadStops address with
      | .error f => (p.stopLoadEnded bus copy).memoryError .tracker f.address f.cause
      | .ok stops => Part.rebuildAndRemap { p.stopLoadEnded bus copy with
          trk := { (p.stopLoadEnded bus copy).trk with stops := stops } } := by
  simp only [Part.completeStopLoad, h]
  rfl

/-- R66: likewise the seat store. -/
theorem Part.completeSeatLoad_eq {p : Part} {copy : Copy} {address edition : Nat}
    (h : p.res.load = .loading copy address edition) (bus : Bus) :
    p.completeSeatLoad bus = match ((p.hostWrites bus).view bus).loadSeats address with
      | .error f => (p.seatLoadEnded bus copy).memoryError .reservations f.address f.cause
      | .ok entries => Part.evaluateAll { p.seatLoadEnded bus copy with
          res := (p.seatLoadEnded bus copy).res.loaded (entries.map RawEntry.toEntry) edition } := by
  simp only [Part.completeSeatLoad, h]
  rfl

/-- R87: likewise the notice store. -/
theorem Part.completeNoticeLoad_eq {p : Part} {copy : Copy} {address edition : Nat}
    (h : p.ntc.load = .loading copy address edition) (bus : Bus) :
    p.completeNoticeLoad bus = match ((p.hostWrites bus).view bus).loadNotices address with
      | .error f => (p.noticeLoadEnded bus copy).memoryError .notices f.address f.cause
      | .ok ds => (p.noticeLoadEnded bus copy).newNotices (ds.map RawNotice.toDef) := by
  simp only [Part.completeNoticeLoad, h]
  rfl

/-! ### What the codes of a record stand for (11.3) -/

/-- R64: a checked segment's kind is that of its code, and its other fields stand as written. -/
theorem RawEntry.toEntry_segments (e : RawEntry) : e.toEntry.number = e.number ∧
    e.toEntry.segments.length = e.segments.length ∧
    ∀ (i : Nat) (g : RawSegment), e.segments[i]? = some g → ∃ kind : SegKind,
      e.toEntry.segments[i]? = some { kind := kind, fromCode := g.fromCode, toCode := g.toCode, label := g.label
                                      note := g.note, resolution := .unresolved } ∧
      (g.kind = 1 → kind = .reserved) ∧ (g.kind = 2 → kind = .blocked) := by
  refine ⟨rfl, List.length_map _, fun i g hg => ⟨(segKindOf g.kind).getD .reserved, ?_, ?_, ?_⟩⟩
  · show (e.segments.map RawSegment.toSegment)[i]? = _
    rw [List.getElem?_map, hg]
    rfl
  · intro h
    rw [h]
    rfl
  · intro h
    rw [h]
    rfl

/-- R86: a checked definition's trigger, filter and end condition are those of its codes. -/
theorem RawNotice.toDef_codes (d : RawNotice) :
    ∃ (trigger : Trigger) (filter : StopFilter) (ending : EndCondition),
      d.toDef = { id := d.id, trigger := trigger, metres := d.metres, filter := filter, filterCode := d.filterCode
                  toEnd := d.targets.testBit 0, toDoor := d.targets.testBit 1, page := d.page, priority := d.priority
                  duration := d.duration, gap := d.gap, endCondition := ending, tones := d.tones } ∧
      (∀ x, [Trigger.approach, .distance, .depart, .arrive, .pass, .doors, .halt][d.trigger]? = some x →
        trigger = x) ∧
      (∀ x, [StopFilter.all, .divideAhead, .terminusAhead, .code, .joinAhead][d.filter]? = some x → filter = x) ∧
      ∀ x, [EndCondition.timer, .arrive, .depart, .legChange][d.endCondition]? = some x → ending = x := by
  refine ⟨_, _, _, rfl, fun x hx => ?_, fun x hx => ?_, fun x hx => ?_⟩
  · rw [triggerOf_eq, hx]
    rfl
  · rw [stopFilterOf_eq, hx]
    rfl
  · rw [endConditionOf_eq, hx]
    rfl

/-- 11.3: a seat entry's segments by their places. -/
theorem View.seatEntry_segments {v : View} {a : Nat} {e : RawEntry} (h : v.seatEntry a = .ok e) :
    (e.count ≤ 4 → e.segments.length = e.count) ∧ (4 < e.count → e.segments = []) ∧
      ∀ (i : Nat) (g : RawSegment), e.segments[i]? = some g → v.segment (a + 4 + 12 * i) = .ok g := by
  obtain ⟨-, -, hsegments⟩ := View.seatEntry_fields h
  obtain ⟨hlen, hplaces⟩ := View.segments_places hsegments
  refine ⟨fun hc => ?_, fun hc => ?_, hplaces⟩
  · rw [hlen, if_neg (Nat.not_lt.mpr hc)]
  · rw [if_pos hc] at hlen
    exact List.eq_nil_of_length_eq_zero hlen

/-- Settles O27: the records by their readers and checks, the loads by their start and their end. -/
theorem loadsPinAndReplaceTheStore : Obligations.LoadsPinAndReplaceTheStore := by
  refine ⟨fun v a n => ⟨readRecords_inOrder _ _ _ _ _, readRecords_inOrder _ _ _ _ _, readRecords_inOrder _ _ _ _ _⟩,
    stopCheck_refusesFirst, seatEntryCheck_refusesFirst, noticeCheck_refusesFirst,
    fun v a => ⟨fun r hr => View.stop_fields hr, fun e he => ?_, fun d hd => View.notice_fields hd⟩,
    RawEntry.toEntry_segments, RawNotice.toDef_codes, fun v a => ⟨fun f hf => ?_, fun n hn => ?_⟩,
    fun s copy address hr => ⟨fun hl ha => ⟨fun ht => ?_, fun hb ho => ?_⟩,
      fun hl ha => ⟨fun ht => ?_, fun hb ho => ?_⟩, fun hl ha ht => ?_⟩,
    fun s bus copy address edition => ⟨fun h => ⟨fun f hf => ?_, fun stops hs => ?_⟩,
      fun h => ⟨fun f hf => ?_, fun entries hs => ?_⟩, fun h => ⟨fun f hf => ?_, fun table hs => ?_⟩⟩⟩
  · obtain ⟨hnumber, hcount, -⟩ := View.seatEntry_fields he
    obtain ⟨hfew, hmany, hplaces⟩ := View.seatEntry_segments he
    exact ⟨hnumber, hcount, hfew, hmany, fun i g hg => View.segment_fields (hplaces i g hg)⟩
  · exact ⟨_, rfl, View.loadRecords_unread hf _ _, View.loadRecords_unread hf _ _, View.loadRecords_unread hf _ _⟩
  · refine ⟨fun h => ⟨_, rfl, View.loadRecords_badCount hn ((stopCountBad_iff n).mpr h) _⟩,
      fun h => ⟨_, rfl, View.loadRecords_badCount hn (decide_eq_true h) _⟩,
      fun h => ⟨_, rfl, View.loadRecords_badCount hn (decide_eq_true h) _⟩, fun hlow hhigh => ?_, fun hhigh => ?_,
      fun hhigh => ?_⟩
    · have good : stopCountBad n = false := by
        rw [Bool.eq_false_iff, Ne, stopCountBad_iff]
        omega
      obtain ⟨hok, herror⟩ := View.loadRecords_counted hn good (v.stops a)
      exact ⟨hok, fun at_ e he => ⟨_, rfl, herror at_ e he⟩⟩
    · have good : seatEntryCountBad n = false := decide_eq_false (Nat.not_lt.mpr hhigh)
      obtain ⟨hok, herror⟩ := View.loadRecords_counted hn good (v.seatEntries a)
      exact ⟨hok, fun at_ e he => ⟨_, rfl, herror at_ e he⟩⟩
    · have good : noticeCountBad n = false := decide_eq_false (Nat.not_lt.mpr hhigh)
      obtain ⟨hok, herror⟩ := View.loadRecords_counted hn good (v.notices a)
      exact ⟨hok, fun at_ e he => ⟨_, rfl, herror at_ e he⟩⟩
  · exact exec_next (·.stopLoadTold) rfl (Part.stopLoadTold_pins hr hl ha ht)
  · exact exec_next (·.trackerBoundary) rfl (Part.trackerBoundary_pins hr hl ha hb ho)
  · exact exec_next (·.seatLoadTold) rfl (Part.seatLoadTold_pins hr hl ha ht)
  · exact exec_next (·.reservationBoundary) rfl (Part.reservationBoundary_pins hr hl ha hb ho)
  · exact exec_next (·.noticeLoadTold) rfl (Part.noticeLoadTold_pins hr hl ha ht)
  · refine exec_next (·.completeStopLoad bus) rfl ((Part.completeStopLoad_eq h bus).trans ?_)
    rw [show ((s.part.hostWrites bus).view bus).loadStops address = .error f from hf]
    rfl
  · refine exec_next (·.completeStopLoad bus) rfl ((Part.completeStopLoad_eq h bus).trans ?_)
    rw [show ((s.part.hostWrites bus).view bus).loadStops address = .ok stops from hs]
    rfl
  · refine exec_next (·.completeSeatLoad bus) rfl ((Part.completeSeatLoad_eq h bus).trans ?_)
    rw [show ((s.part.hostWrites bus).view bus).loadSeats address = .error f from hf]
    rfl
  · refine exec_next (·.completeSeatLoad bus) rfl ((Part.completeSeatLoad_eq h bus).trans ?_)
    rw [show ((s.part.hostWrites bus).view bus).loadSeats address = .ok entries from hs]
    rfl
  · refine exec_next (·.completeNoticeLoad bus) rfl ((Part.completeNoticeLoad_eq h bus).trans ?_)
    rw [show ((s.part.hostWrites bus).view bus).loadNotices address = .error f from hf]
    rfl
  · refine exec_next (·.completeNoticeLoad bus) rfl ((Part.completeNoticeLoad_eq h bus).trans ?_)
    rw [show ((s.part.hostWrites bus).view bus).loadNotices address = .ok table from hs]
    rfl

end Sys2Proof.Machine
end

section
/-! PROOF. Route position arithmetic (chapter 3): what each stage gives, said once by the record's state, and the
bounds of the marker, the lit count and the strip filter; O37. -/

namespace Sys2Proof.Machine

/-! ### Stages 1 to 3 (R49 to R51) -/

/-- R47: the four leg states. -/
theorem Phase.runLeg_eq_some_iff {x : Phase} {k : Nat} :
    x.runLeg = some k ↔ x = .running k ∨ x = .approaching k ∨ x = .halted k ∨ x = .doubt k := by
  cases x <;> simp [Phase.runLeg]

/-- R47: the states that are no leg states. -/
theorem Phase.runLeg_eq_none_iff {x : Phase} :
    x.runLeg = none ↔ (∃ k, x = .atStop k) ∨ x = .ended ∨ x = .unplaced ∨ x = .lost := by
  cases x <;> simp [Phase.runLeg]

/-- R50: in a leg state the marker stands at the leg fraction between the two stops. -/
theorem PositionRecord.stage2_onLeg {r : PositionRecord} {k near far len : Nat} (hk : r.phase.runLeg = some k)
    (hnear : r.xNear = some near) (hfar : r.xFar = some far) (hlen : r.len = some len) :
    r.stage2 = some (legMarker near far len (metresRun r.distance)) := by
  rcases Phase.runLeg_eq_some_iff.mp hk with h | h | h | h <;> simp only [PositionRecord.stage2, h, hnear, hfar, hlen]

/-- R51: in a leg state the leg fraction of the bar is lit. -/
theorem PositionRecord.lit_onLeg {r : PositionRecord} {k len : Nat} (hk : r.phase.runLeg = some k)
    (hlen : r.len = some len) (b : Nat) : r.lit b = b * min (metresRun r.distance) len / len := by
  rcases Phase.runLeg_eq_some_iff.mp hk with h | h | h | h <;> simp only [PositionRecord.lit, h, hlen]

/-- R50, R51: at a stop the marker is the stop's and the bar is empty. -/
theorem PositionRecord.stages_atStop {r : PositionRecord} {k : Nat} (h : r.phase = .atStop k) (b : Nat) :
    r.stage2 = r.xNear ∧ r.lit b = 0 := by
  simp only [PositionRecord.stage2, PositionRecord.lit, h, and_self]

/-- R50, R51: in ENDED the marker is the last stop's and the bar is full. -/
theorem PositionRecord.stages_ended {r : PositionRecord} (h : r.phase = .ended) (b : Nat) :
    r.stage2 = r.xNear ∧ r.lit b = b := by
  simp only [PositionRecord.stage2, PositionRecord.lit, h, and_self]

/-- R50, R51: without a place there is no marker and the bar is empty. -/
theorem PositionRecord.stages_nowhere {r : PositionRecord} (h : r.phase = .unplaced ∨ r.phase = .lost) (b : Nat) :
    r.stage2 = none ∧ r.lit b = 0 := by
  rcases h with h | h <;> simp only [PositionRecord.stage2, PositionRecord.lit, h, and_self]

/-- R49: the leg fraction is at most 1, so a leg fraction of `n` is at most `n`. -/
theorem legFraction_le (n metres len : Nat) : n * min metres len / len ≤ n :=
  Nat.div_le_of_le_mul (by rw [Nat.mul_comm len]; exact Nat.mul_le_mul_left n (Nat.min_le_right metres len))

/-- R50: the marker lies between the two stops of the leg. -/
theorem legMarker_between {near far : Nat} (h : near ≤ far) (len metres : Nat) :
    near ≤ legMarker near far len metres ∧ legMarker near far len metres ≤ far := by
  refine ⟨Nat.le_add_right _ _, ?_⟩
  calc legMarker near far len metres ≤ near + (far - near) := Nat.add_le_add_left (legFraction_le _ metres len) near
    _ = far := Nat.add_sub_cancel' h

/-! ### Stage 4 (R52) -/

/-- R52: a strip no wider than its window stands still. -/
theorem scrollOffset_narrow {wp ws : Nat} (h : ws ≤ wp) (m : Nat) : scrollOffset (some m) wp ws = 0 := by
  simp only [scrollOffset, if_pos h]

/-- R52: a wider strip is scrolled to the marker in the window's centre, as far as the strip's two ends allow. -/
theorem scrollOffset_wide {wp ws : Nat} (h : wp < ws) (m : Nat) : scrollOffset (some m) wp ws
    = if m < 8 * wp then 0 else if 16 * (ws - wp) < m - 8 * wp then 16 * (ws - wp) else m - 8 * wp := by
  simp only [scrollOffset, if_neg (Nat.not_le.mpr h)]
  split
  · omega
  · split <;> omega

/-! ### Stage 5 (R54) -/

/-- R54: the strip filter by its four weights. -/
theorem filterPixel_eq (ul ur ll lr fx fy : Nat) : filterPixel ul ur ll lr fx fy
    = (ul * ((16 - fx) * (16 - fy)) + ur * (fx * (16 - fy)) + ll * ((16 - fx) * fy) + lr * (fx * fy) + 128) / 256 := by
  simp only [filterPixel, Nat.mul_assoc]

/-- R54: the four weights of the strip filter sum to 256. -/
theorem filterWeights_sum {fx fy : Nat} (hx : fx ≤ 15) (hy : fy ≤ 15) :
    (16 - fx) * (16 - fy) + fx * (16 - fy) + (16 - fx) * fy + fx * fy = 256 :=
  calc (16 - fx) * (16 - fy) + fx * (16 - fy) + (16 - fx) * fy + fx * fy
      = (16 - fx + fx) * (16 - fy + fy) := by ring
    _ = 256 := by rw [Nat.sub_add_cancel (by omega), Nat.sub_add_cancel (by omega)]

/-- R54: weights that sum to 256 give a rounded mean between any two bounds of the four sources. -/
theorem weightedMean_between {a b c d u v w x low high : Nat} (hsum : u + v + w + x = 256)
    (hlow : low ≤ a ∧ low ≤ b ∧ low ≤ c ∧ low ≤ d) (hhigh : a ≤ high ∧ b ≤ high ∧ c ≤ high ∧ d ≤ high) :
    low ≤ (a * u + b * v + c * w + d * x + 128) / 256 ∧ (a * u + b * v + c * w + d * x + 128) / 256 ≤ high := by
  have spread (n : Nat) : n * u + n * v + n * w + n * x = n * 256 := by rw [← hsum]; ring
  obtain ⟨la, lb, lc, ld⟩ := hlow
  obtain ⟨ha, hb, hc, hd⟩ := hhigh
  have least : low * 256 ≤ a * u + b * v + c * w + d * x := by rw [← spread]; gcongr
  have greatest : a * u + b * v + c * w + d * x ≤ high * 256 := by rw [← spread]; gcongr
  omega

/-- R54: a filtered pixel lies between the least and the greatest of its four source pixels. -/
theorem filterPixel_between (ul ur ll lr : Nat) {fx fy : Nat} (hx : fx ≤ 15) (hy : fy ≤ 15) :
    min (min ul ur) (min ll lr) ≤ filterPixel ul ur ll lr fx fy ∧
      filterPixel ul ur ll lr fx fy ≤ max (max ul ur) (max ll lr) := by
  rw [filterPixel_eq]
  exact weightedMean_between (filterWeights_sum hx hy) (by omega) (by omega)

/-- Settles O37: stages 2 and 3 by the record's state, the scroll offset by the widths, the filter by its weights. -/
theorem routePositionArithmetic : Obligations.RoutePositionArithmetic := by
  refine ⟨fun r k near far len b hnear hfar hlen hphase => ?_, fun r k b h => PositionRecord.stages_atStop h b,
    fun r b h => PositionRecord.stages_ended h b, fun r b h => PositionRecord.stages_nowhere h b,
    fun wp ws m => ⟨rfl, fun h => scrollOffset_narrow h m, fun h => scrollOffset_wide h m⟩,
    fun ul ur ll lr fx fy => ⟨filterPixel_eq ul ur ll lr fx fy, filterPixel_between ul ur ll lr⟩⟩
  have hk := Phase.runLeg_eq_some_iff.mpr hphase
  have hmarker := PositionRecord.stage2_onLeg hk hnear hfar hlen
  have hlit := PositionRecord.lit_onLeg hk hlen b
  refine ⟨hmarker, hlit, fun hle _ m hm => ?_, fun _ => ?_⟩
  · obtain rfl := Option.some.inj (hmarker.symm.trans hm)
    exact legMarker_between hle len _
  · rw [hlit]
    exact legFraction_le b _ len

end Sys2Proof.Machine
end

section
/-! PROOF. The panels that one event marks (R114, R115), and the position record's journey and progress events (R47,
R48, R59, R60); O38. -/

namespace Sys2Proof.Machine

/-! ### Marks made one after another (R114, R115) -/

/-- R114: the panel of this address may enter its line's refresh list: it is not listed, and ONLINE or FAILING. -/
def Part.enters (p : Part) (l : Line) (a : Nat) : Prop :=
  a ∉ p.cmp.refresh l ∧ ((p.line l).health a).drawn = true

/-- R114: `new` is what marks of these panels, one after another, add to a line's refresh list: those of the line that
may enter, each once, in the order of the marks. -/
def Part.addsOf (p : Part) (qs : List PanelDraw) (l : Line) (new : List Nat) : Prop :=
  new.Nodup ∧ new.Sublist ((qs.filter (fun q => decide (q.line = l))).map (·.address)) ∧
    ∀ a, a ∈ new ↔ p.enters l a ∧ ∃ q ∈ qs, q.line = l ∧ q.address = a

/-- R114: a mark of a configured panel adds its address to its own line's list, where it may enter. -/
theorem Part.markPanel_refresh {p : Part} {q : PanelDraw} (hq : q ∈ p.cmp.panels) (l : Line) :
    ∃ new, (p.markPanel q.line q.address).cmp.refresh l = p.cmp.refresh l ++ new ∧ p.addsOf [q] l new := by
  have hconf : p.cmp.configured q.line q.address = true := List.any_eq_true.mpr ⟨q, hq, by simp⟩
  rw [Part.markPanel_eq]
  by_cases hl : q.line = l
  · subst hl
    by_cases he : p.enters q.line q.address
    · rw [if_pos ⟨he.1, he.2, hconf⟩]
      refine ⟨[q.address], Composer.refresh_setRefresh _ _ _, List.nodup_singleton _, by simp, fun a => ?_⟩
      simp only [List.mem_singleton, exists_eq_left, true_and]
      exact ⟨fun h => ⟨h ▸ he, h.symm⟩, fun h => h.2.symm⟩
    · rw [if_neg fun h => he ⟨h.1, h.2.1⟩]
      refine ⟨[], (List.append_nil _).symm, List.nodup_nil, List.nil_sublist _, fun a => ?_⟩
      simp only [List.not_mem_nil, List.mem_singleton, exists_eq_left, true_and, false_iff]
      exact fun h => he (h.2 ▸ h.1)
  · refine ⟨[], ?_, List.nodup_nil, List.nil_sublist _, fun a => by simp [hl]⟩
    rw [List.append_nil]
    split
    · exact Composer.refresh_setRefresh_of_ne _ _ (Ne.symm hl)
    · rfl

/-- R114: what a first mark adds and what the later marks then add is what the marks together add. -/
theorem Part.addsOf_cons {p t : Part} {q : PanelDraw} {qs : List PanelDraw} {l : Line} {first rest : List Nat}
    (ht : t.cmp.refresh l = p.cmp.refresh l ++ first) (hline : t.line l = p.line l) (hfirst : p.addsOf [q] l first)
    (hrest : t.addsOf qs l rest) : p.addsOf (q :: qs) l (first ++ rest) := by
  obtain ⟨hnodup, hsub, hmem⟩ := hfirst
  obtain ⟨hnodup', hsub', hmem'⟩ := hrest
  have henters (a : Nat) : t.enters l a ↔ p.enters l a ∧ a ∉ first := by
    unfold Part.enters
    rw [hline, ht, List.mem_append, not_or, and_right_comm]
  simp only [henters] at hmem'
  refine ⟨List.Nodup.append hnodup hnodup' fun a ha ha' => ((hmem' a).mp ha').1.2 ha, ?_, fun a => ?_⟩
  · rw [← List.singleton_append, List.filter_append, List.map_append]
    exact hsub.append hsub'
  · rw [List.mem_append, hmem', hmem]
    simp only [List.mem_cons, exists_eq_or_imp]
    tauto

/-- R114, R115: marks of configured panels, one after another. -/
theorem Part.markPanels_refresh (qs : List PanelDraw) {p : Part} (hqs : ∀ q ∈ qs, q ∈ p.cmp.panels) (l : Line) :
    ∃ new, (qs.foldl (fun p q => p.markPanel q.line q.address) p).cmp.refresh l = p.cmp.refresh l ++ new ∧
      p.addsOf qs l new := by
  induction qs generalizing p with
  | nil => exact ⟨[], (List.append_nil _).symm, List.nodup_nil, List.nil_sublist _, by simp⟩
  | cons q qs ih =>
    obtain ⟨first, hfirst, hadds⟩ := Part.markPanel_refresh (hqs q List.mem_cons_self) l
    obtain ⟨rest, hrest, hadds'⟩ := ih (p := p.markPanel q.line q.address) fun x hx => by
      rw [Part.markPanel_panels]
      exact hqs x (List.mem_cons_of_mem q hx)
    refine ⟨first ++ rest, ?_, Part.addsOf_cons hfirst (Part.markPanel_line _ _ _ _) hadds hadds'⟩
    rw [List.foldl_cons, hrest, hfirst, List.append_assoc]

/-- R114, R115: the marks of one event are exactly those of the panels that its test names. -/
theorem Part.markWhere_marksExactly (p : Part) (test : PanelDraw → Bool) :
    p.marksExactly (p.markWhere test) (fun q => test q = true) := by
  intro l
  obtain ⟨new, hnew, hnodup, hsub, hmem⟩ := Part.markPanels_refresh (p.cmp.panels.filter test) (p := p)
    (fun q hq => List.mem_of_mem_filter hq) l
  refine ⟨new, hnew, hnodup, hsub.trans ((List.filter_sublist.filter _).map _), fun a => (hmem a).trans ?_⟩
  simp only [Part.enters, List.mem_filter]
  constructor
  · rintro ⟨⟨hout, hdrawn⟩, q, ⟨hq, htest⟩, hl, ha⟩
    exact ⟨hout, hdrawn, q, hq, hl, ha, htest⟩
  · rintro ⟨hout, hdrawn, q, hq, hl, ha, htest⟩
    exact ⟨⟨hout, hdrawn⟩, q, ⟨hq, htest⟩, hl, ha⟩

/-- What is marked depends on which panels are named. -/
theorem Part.marksExactly_congr {p t : Part} {named named' : PanelDraw → Prop} (h : p.marksExactly t named)
    (hn : ∀ q, named q ↔ named' q) : p.marksExactly t named' := by
  rwa [← funext fun q => propext (hn q)]

/-- Two changes of the refresh lists alone are one. -/
theorem Part.sameButRefresh_trans {p q t : Part} (hq : p.sameButRefresh q) (ht : q.sameButRefresh t) :
    p.sameButRefresh t := by
  unfold Part.sameButRefresh at *
  rw [← ht] at hq
  exact hq

/-- R114: a mark changes refresh lists alone. -/
theorem Part.markPanel_sameButRefresh (p : Part) (l : Line) (a : Nat) : p.sameButRefresh (p.markPanel l a) := by
  rw [Part.markPanel_eq]
  split
  · cases l <;> rfl
  · rfl

/-- R115: the marks of one event change refresh lists alone. -/
theorem Part.markWhere_sameButRefresh (p : Part) (test : PanelDraw → Bool) : p.sameButRefresh (p.markWhere test) :=
  foldl_law p.sameButRefresh _
    (fun t q ht => Part.sameButRefresh_trans ht (t.markPanel_sameButRefresh q.line q.address)) _ p rfl

/-- The refresh lists are apart from the position record. -/
theorem Part.sameButRefresh_position {p t : Part} (h : p.sameButRefresh t) : t.cmp.position = p.cmp.position :=
  congrArg (·.cmp.position) h

/-- An event that names no panel marks none. -/
theorem Part.markWhere_none (p : Part) {test : PanelDraw → Bool} (h : ∀ q, test q = false) : p.markWhere test = p := by
  have hnone : p.cmp.panels.filter test = [] := List.filter_eq_nil_iff.mpr fun q _ => by simp [h q]
  unfold Part.markWhere
  rw [hnone, List.foldl_nil]

/-! ### The position record (R47, R48) -/

/-- R47: the record takes the event's state. -/
theorem PositionRecord.journey_phase (r : PositionRecord) (e : JourneyEvent) (legDistance : Nat) :
    (r.journey e legDistance).phase = e.phase := by
  cases h : e.phase <;> simp only [PositionRecord.journey, PositionRecord.evaluated, PositionRecord.copied, h]

/-- R47: the marker is stage 2 of the record as it now stands; stage 2 does not read the marker. -/
theorem PositionRecord.journey_marker (r : PositionRecord) (e : JourneyEvent) (legDistance : Nat) :
    (r.journey e legDistance).marker = (r.journey e legDistance).stage2 := rfl

/-- R47: in a leg state the record copies the leg of the served view and the present Leg Distance. -/
theorem PositionRecord.journey_onLeg (r : PositionRecord) {e : JourneyEvent} {k : Nat} (hk : e.phase.runLeg = some k)
    (legDistance : Nat) :
    (r.journey e legDistance).xNear = e.view[k]?.map (·.mapX) ∧
      (r.journey e legDistance).xFar = e.view[k + 1]?.map (·.mapX) ∧
      (r.journey e legDistance).len = e.view[k]?.map (·.legLength) ∧
      (r.journey e legDistance).distance = legDistance := by
  rcases Phase.runLeg_eq_some_iff.mp hk with h | h | h | h <;>
    simp only [PositionRecord.journey, PositionRecord.evaluated, PositionRecord.copied, h, and_self]

/-- R47: outside the leg states the record keeps no far stop, no length and no distance. -/
theorem PositionRecord.journey_offLeg (r : PositionRecord) {e : JourneyEvent} (hk : e.phase.runLeg = none)
    (legDistance : Nat) :
    (r.journey e legDistance).xFar = none ∧ (r.journey e legDistance).len = none ∧
      (r.journey e legDistance).distance = 0 := by
  rcases Phase.runLeg_eq_none_iff.mp hk with ⟨k, h⟩ | h | h | h <;>
    simp only [PositionRecord.journey, PositionRecord.evaluated, PositionRecord.copied, h, and_self]

/-- R47: at a stop the record keeps the stop's map x. -/
theorem PositionRecord.journey_atStop (r : PositionRecord) {e : JourneyEvent} {k : Nat} (h : e.phase = .atStop k)
    (legDistance : Nat) : (r.journey e legDistance).xNear = e.view[k]?.map (·.mapX) := by
  simp only [PositionRecord.journey, PositionRecord.evaluated, PositionRecord.copied, h]

/-- R47: in ENDED the record keeps the last served stop's map x. -/
theorem PositionRecord.journey_ended (r : PositionRecord) {e : JourneyEvent} (h : e.phase = .ended)
    (legDistance : Nat) : (r.journey e legDistance).xNear = e.view.getLast?.map (·.mapX) := by
  simp only [PositionRecord.journey, PositionRecord.evaluated, PositionRecord.copied, h]

/-- R47: without a place the record keeps no map x. -/
theorem PositionRecord.journey_nowhere (r : PositionRecord) {e : JourneyEvent}
    (h : e.phase = .unplaced ∨ e.phase = .lost) (legDistance : Nat) : (r.journey e legDistance).xNear = none := by
  rcases h with h | h <;> simp only [PositionRecord.journey, PositionRecord.evaluated, PositionRecord.copied, h]

/-- R48: without a leg state, and below the record's distance, a progress event changes nothing. -/
theorem PositionRecord.progress_ignored {r : PositionRecord} {mm : Nat} (h : r.phase.runLeg = none ∨ mm < r.distance) :
    r.progress mm = r := by
  unfold PositionRecord.progress
  split
  · rfl
  · next k hk =>
    rcases h with h | h
    · exact absurd (hk.symm.trans h) (Option.some_ne_none k)
    · rw [if_neg (Nat.not_le.mpr h)]

/-- R48: in a leg state a distance no less than the record's replaces it. -/
theorem PositionRecord.progress_taken {r : PositionRecord} {k mm : Nat} (hk : r.phase.runLeg = some k)
    (h : r.distance ≤ mm) : r.progress mm = PositionRecord.evaluated { r with distance := mm } := by
  simp only [PositionRecord.progress, hk, if_pos h]

/-! ### The two events at the composer (R59, R60, R115) -/

/-- R59, R60: the marker differs and the panel shows a strip, or the lit count of one of its bars differs. -/
theorem PanelDraw.moved_iff (q : PanelDraw) (before after : PositionRecord) :
    q.moved before after = true ↔
      (after.marker ≠ before.marker ∧ q.strip = true) ∨ ∃ b ∈ q.bars, before.lit b ≠ after.lit b := by
  simp only [PanelDraw.moved, Bool.or_eq_true, Bool.and_eq_true, List.any_eq_true, decide_eq_true_iff,
    ne_comm (a := after.marker)]

/-- R59, R60: a record that stays moves no panel. -/
theorem PanelDraw.moved_self (q : PanelDraw) (r : PositionRecord) : q.moved r r = false := by
  simp [PanelDraw.moved]

/-- The composer with its next event taken and the position record changed (R47, R48). -/
def Part.withPosition (p : Part) (rest : List ComposerEvent) (after : PositionRecord) : Part :=
  { p with cmp := { p.cmp with events := rest, position := after } }

/-- A journey event taken: the record changes, and with it the END, the DOOR and the moved panels are marked. -/
theorem Part.composerJourney_eq {p : Part} {e : JourneyEvent} {rest : List ComposerEvent}
    (h : p.cmp.events = .journey e :: rest) : p.composerJourney
      = (p.withPosition rest (p.cmp.position.journey e p.odo.legDistance)).markWhere (fun q =>
          decide (q.line ≠ .seat) || q.moved p.cmp.position (p.cmp.position.journey e p.odo.legDistance)) := by
  simp only [Part.composerJourney, h, Part.withPosition]

/-- A progress event taken: the record changes, and the moved panels are marked. -/
theorem Part.composerProgress_eq {p : Part} {mm : Nat} {rest : List ComposerEvent}
    (h : p.cmp.events = .progress mm :: rest) : p.composerProgress
      = (p.withPosition rest (p.cmp.position.progress mm)).markWhere (fun q =>
          q.moved p.cmp.position (p.cmp.position.progress mm)) := by
  simp only [Part.composerProgress, h, Part.withPosition]

/-- The marks do not read the position record or the events. -/
theorem Part.withPosition_marks (p : Part) (rest : List ComposerEvent) (after : PositionRecord)
    (test : PanelDraw → Bool) :
    p.marksExactly ((p.withPosition rest after).markWhere test) (fun q => test q = true) ∧
      (p.withPosition rest after).sameButRefresh ((p.withPosition rest after).markWhere test) ∧
      ((p.withPosition rest after).markWhere test).cmp.position = after :=
  ⟨(p.withPosition rest after).markWhere_marksExactly test, Part.markWhere_sameButRefresh _ test,
    Part.sameButRefresh_position (Part.markWhere_sameButRefresh _ test)⟩

/-- R48: an ignored progress event is only taken. -/
theorem Part.composerProgress_ignored {p : Part} {mm : Nat} {rest : List ComposerEvent}
    (h : p.cmp.events = .progress mm :: rest) (hi : p.cmp.position.phase.runLeg = none ∨ mm < p.cmp.position.distance) :
    p.composerProgress = { p with cmp := { p.cmp with events := rest } } := by
  rw [Part.composerProgress_eq h, PositionRecord.progress_ignored hi]
  exact Part.markWhere_none _ fun q => q.moved_self _

/-- Settles O38: the journey event by what the record copies, the progress event by whether it is taken, each with the
marks of what moved. -/
theorem positionRecordFollowsTheTracker : Obligations.PositionRecordFollowsTheTracker := by
  refine ⟨fun s e rest h => ?_, fun s mm rest h => ⟨fun hi => ?_, fun k hk hle => ?_⟩⟩
  · refine ⟨{ s with part := s.part.composerJourney }, rfl, rfl, ?_⟩
    dsimp only
    rw [Part.composerJourney_eq h]
    obtain ⟨hmarks, hsame, hposition⟩ := s.part.withPosition_marks rest
      (s.part.cmp.position.journey e s.part.odo.legDistance) _
    rw [hposition]
    exact ⟨PositionRecord.journey_phase _ e _, PositionRecord.journey_marker _ e _,
      fun k hk => PositionRecord.journey_onLeg _ hk _, fun hk => PositionRecord.journey_offLeg _ hk _,
      fun k hk => PositionRecord.journey_atStop _ hk _, fun he => PositionRecord.journey_ended _ he _,
      fun he => PositionRecord.journey_nowhere _ he _,
      Part.marksExactly_congr hmarks fun q => by rw [Bool.or_eq_true, decide_eq_true_iff, PanelDraw.moved_iff], hsame⟩
  · exact exec_next (·.composerProgress) rfl (Part.composerProgress_ignored h hi)
  · refine ⟨{ s with part := s.part.composerProgress }, rfl, rfl, ?_⟩
    dsimp only
    rw [Part.composerProgress_eq h, PositionRecord.progress_taken hk hle]
    obtain ⟨hmarks, hsame, hposition⟩ := s.part.withPosition_marks rest
      (PositionRecord.evaluated { s.part.cmp.position with distance := mm }) _
    exact ⟨hposition, Part.marksExactly_congr hmarks fun q => q.moved_iff _ _, hsame⟩

end Sys2Proof.Machine
end

section
/-! PROOF. The seats of the reservation engine (R68 to R74): the resolution of a segment, what a seat shows, and the
evaluation of the seat store; O29 and O30. -/

namespace Sys2Proof.Machine

/-! ### Resolving (R68) -/

/-- R68: the index of a code in a view of codes. -/
theorem findIndex_code (view : List Nat) (code : Nat) :
    findIndex (· == code) view = if code ∈ view then some (view.idxOf code) else none := by
  induction view with
  | nil => rfl
  | cons x rest ih =>
    unfold findIndex
    by_cases hx : x = code
    · simp [hx]
    · rw [if_neg (by simpa using hx), ih, List.idxOf_cons_ne _ hx]
      by_cases hr : code ∈ rest <;> simp [hr, Ne.symm hx]

/-- R68: a segment of which no code is served is UNRESOLVED. -/
theorem resolve_unserved {view : List Nat} {f t : Nat} (hf : f ∉ view) (ht : t ∉ view) :
    resolve view f t = .unresolved := by
  simp only [resolve, findIndex_code, if_neg hf, if_neg ht]

/-- R68: a segment of which a code is served, the view's ends standing for a code that is not. -/
theorem resolve_served {view : List Nat} {f t : Nat} (h : f ∈ view ∨ t ∈ view) :
    resolve view f t =
      (let fi := if f ∈ view then view.idxOf f else 0
       let ti := if t ∈ view then view.idxOf t else view.length - 1
       if fi < ti then .resolved fi ti (decide (f ∉ view)) (decide (t ∉ view)) else .empty fi ti) := by
  by_cases hf : f ∈ view <;> by_cases ht : t ∈ view
  · simp [resolve, findIndex_code, hf, ht]
  · simp [resolve, findIndex_code, hf, ht]
  · simp [resolve, findIndex_code, hf, ht]
  · exact absurd h (not_or.mpr ⟨hf, ht⟩)

/-! ### What a resolution gives (R69, R70, R72, R73) -/

/-- R70, R79: two segments of one kind whose spans meet. -/
theorem Segment.overlaps_iff (g h : Segment) : g.overlaps h = true ↔
    g.kind = h.kind ∧ ∃ fg tg fh th, g.span = some (fg, tg) ∧ h.span = some (fh, th) ∧ fg < th ∧ fh < tg := by
  rcases hg : g.span with _ | ⟨fg, tg⟩ <;> rcases hh : h.span with _ | ⟨fh, th⟩ <;> simp [Segment.overlaps, hg, hh]

/-- R73: a segment of the kind whose span holds the leg. -/
theorem Segment.covers_iff (kind : SegKind) (c : Nat) (g : Segment) : g.covers kind c = true ↔
    g.kind = kind ∧ ∃ fi ti, g.span = some (fi, ti) ∧ fi ≤ c ∧ c < ti := by
  rcases hg : g.span with _ | ⟨fi, ti⟩ <;> simp [Segment.covers, hg]

/-- R73: a RESERVED segment whose span begins after the leg. -/
theorem Segment.reservedAfter_iff (c : Nat) (g : Segment) : g.reservedAfter c = true ↔
    g.kind = .reserved ∧ ∃ fi ti, g.span = some (fi, ti) ∧ c < fi := by
  rcases hg : g.span with _ | ⟨fi, ti⟩ <;> simp [Segment.reservedAfter, hg]

/-! ### What a seat shows (R73) -/

/-- R73: the candidate of the smallest fi, of two with the same fi the earlier in store order. -/
def firstByRank (segments : List Segment) (candidate : Segment → Prop) (g : Segment) : Prop :=
  candidate g ∧ (∀ h, candidate h → g.rank ≤ h.rank) ∧ ∃ i : Nat, segments[i]? = some g ∧
    ∀ (j : Nat) (h : Segment), j < i → segments[j]? = some h → candidate h → h.rank ≠ g.rank

/-- R73: in store order the first candidate found is that one. -/
theorem find_firstByRank {segments : List Segment} (hs : segments.Pairwise (fun x y => x.rank ≤ y.rank))
    {test : Segment → Bool} {candidate : Segment → Prop} (hc : ∀ g, candidate g ↔ g ∈ segments ∧ test g = true)
    (h : ∃ g, candidate g) : ∃ g, segments.find? test = some g ∧ firstByRank segments candidate g := by
  obtain ⟨x, hx⟩ := h
  obtain ⟨g, hg⟩ := Option.isSome_iff_exists.mp (List.find?_isSome.mpr ⟨x, (hc x).mp hx⟩)
  refine ⟨g, hg, (hc g).mpr ⟨List.mem_of_find?_eq_some hg, List.find?_some hg⟩, ?_⟩
  obtain ⟨-, earlier, later, rfl, hearlier⟩ := List.find?_eq_some_iff_append.mp hg
  have notEarlier {y : Segment} (hy : candidate y) : y ∉ earlier := fun hm => by
    have htest := ((hc y).mp hy).2
    have hfalse := hearlier y hm
    rw [htest] at hfalse
    cases hfalse
  refine ⟨fun y hy => ?_, earlier.length, by simp, fun j y hj hyj hy => ?_⟩
  · rcases List.mem_append.mp ((hc y).mp hy).1 with hm | hm
    · exact absurd hm (notEarlier hy)
    · rcases List.mem_cons.mp hm with rfl | hm
      · exact Nat.le_refl _
      · exact (List.pairwise_cons.mp (List.pairwise_append.mp hs).2.1).1 y hm
  · rw [List.getElem?_append_left hj] at hyj
    exact absurd (List.mem_of_getElem? hyj) (notEarlier hy)

/-- Where there is no candidate, none is found. -/
theorem find_noCandidate {segments : List Segment} {test : Segment → Bool} {candidate : Segment → Prop}
    (hc : ∀ g, candidate g ↔ g ∈ segments ∧ test g = true) (h : ¬ ∃ g, candidate g) :
    segments.find? test = none :=
  List.find?_eq_none.mpr fun g hm ht => h ⟨g, (hc g).mpr ⟨hm, ht⟩⟩

/-- R73: the display state by the first row that finds a segment. -/
theorem classify_rows (c : Nat) (segments : List Segment) :
    (∀ g, segments.find? (Segment.covers .blocked c) = some g → classify c segments = (.blocked, some g)) ∧
    (segments.find? (Segment.covers .blocked c) = none →
      (∀ g, segments.find? (Segment.covers .reserved c) = some g → classify c segments = (.reservedNow, some g)) ∧
      (segments.find? (Segment.covers .reserved c) = none →
        (∀ g, segments.find? (Segment.reservedAfter c) = some g → classify c segments = (.reservedLater, some g)) ∧
        (segments.find? (Segment.reservedAfter c) = none → classify c segments = (.free, none)))) := by
  refine ⟨fun g hg => ?_, fun hb => ⟨fun g hg => ?_, fun hr => ⟨fun g hg => ?_, fun hl => ?_⟩⟩⟩
  · simp only [classify, hg]
  · simp only [classify, hb, hg]
  · simp only [classify, hb, hr, hg]
  · simp only [classify, hb, hr, hl]

/-- Settles O29: the resolution by what is served, the display by the first row that finds a segment. -/
theorem seatResolutionAndDisplay : Obligations.SeatResolutionAndDisplay := by
  refine ⟨fun view f t => ⟨resolve_unserved, fun h => ⟨fun hlt => ?_, fun hle => ?_⟩⟩,
    fun g h fi ti f t => ⟨fun hg => ?_, fun hg => ?_, fun hg => ?_, Segment.overlaps_iff g h⟩, fun c segments hs => ?_⟩
  · rw [resolve_served h]
    exact if_pos hlt
  · rw [resolve_served h]
    exact if_neg (Nat.not_lt.mpr hle)
  · simp only [Segment.rank, Segment.span, Resolution.endIndex, hg, and_self]
  · simp only [Segment.rank, Segment.span, Resolution.endIndex, hg, and_self]
  · simp only [Segment.rank, Segment.span, Resolution.endIndex, hg, and_self]
  · intro covering later first
    have hcovering (kind : SegKind) (g : Segment) :
        covering kind g ↔ g ∈ segments ∧ g.covers kind c = true := by rw [Segment.covers_iff]
    have hlater (g : Segment) : later g ↔ g ∈ segments ∧ g.reservedAfter c = true := by
      rw [Segment.reservedAfter_iff]
    obtain ⟨blocked, rest⟩ := classify_rows c segments
    refine ⟨fun hb => ?_, fun hb hr => ?_, fun hb hr hl => ?_, fun hb hr hl => ?_⟩
    · obtain ⟨g, hg, hfirst⟩ := find_firstByRank hs (hcovering .blocked) hb
      exact ⟨g, blocked g hg, hfirst⟩
    · obtain ⟨g, hg, hfirst⟩ := find_firstByRank hs (hcovering .reserved) hr
      exact ⟨g, (rest (find_noCandidate (hcovering .blocked) hb)).1 g hg, hfirst⟩
    · obtain ⟨g, hg, hfirst⟩ := find_firstByRank hs hlater hl
      obtain ⟨-, rest⟩ := rest (find_noCandidate (hcovering .blocked) hb)
      exact ⟨g, (rest (find_noCandidate (hcovering .reserved) hr)).1 g hg, hfirst⟩
    · obtain ⟨-, rest⟩ := rest (find_noCandidate (hcovering .blocked) hb)
      exact (rest (find_noCandidate (hcovering .reserved) hr)).2 (find_noCandidate hlater hl)

/-! ### Review (R70) -/

/-- R70: a segment that by itself is doubtful. -/
theorem Segment.doubtful_iff (g : Segment) : g.doubtful = true ↔
    g.resolution = .unresolved ∨ (∃ fi ti, g.resolution = .empty fi ti) ∨
      ∃ fi ti f t, g.resolution = .resolved fi ti f t ∧ (f = true ∨ t = true) := by
  cases hg : g.resolution with
  | resolved fi ti f t =>
    rw [Segment.doubtful, hg, Bool.or_eq_true]
    exact ⟨fun h => .inr (.inr ⟨fi, ti, f, t, rfl, h⟩),
      fun h => by obtain h | ⟨_, _, h⟩ | ⟨_, _, _, _, h, hft⟩ := h <;> cases h; exact hft⟩
  | empty fi ti => simp [Segment.doubtful, hg]
  | unresolved => simp [Segment.doubtful, hg]

/-- R70: some two segments at different places overlap. -/
theorem anyOverlap_iff (segments : List Segment) : anyOverlap segments = true ↔
    ∃ (m n : Nat) (g h : Segment), m < n ∧ segments[m]? = some g ∧ segments[n]? = some h ∧ g.overlaps h = true := by
  induction segments with
  | nil => simp [anyOverlap]
  | cons x rest ih =>
    rw [anyOverlap, Bool.or_eq_true, List.any_eq_true, ih]
    constructor
    · rintro (⟨y, hy, ho⟩ | ⟨m, n, g, h, hmn, hg, hh, ho⟩)
      · obtain ⟨n, hn⟩ := List.mem_iff_getElem?.mp hy
        exact ⟨0, n + 1, x, y, Nat.succ_pos n, rfl, hn, ho⟩
      · exact ⟨m + 1, n + 1, g, h, Nat.succ_lt_succ hmn, hg, hh, ho⟩
    · rintro ⟨m, n, g, h, hmn, hg, hh, ho⟩
      obtain _ | n := n
      · exact absurd hmn (Nat.not_lt_zero m)
      · rw [List.getElem?_cons_succ] at hh
        obtain _ | m := m
        · rw [List.getElem?_cons_zero, Option.some.injEq] at hg
          subst hg
          exact .inl ⟨h, List.mem_of_getElem? hh, ho⟩
        · exact .inr ⟨m, n, g, h, Nat.lt_of_succ_lt_succ hmn, by simpa using hg, hh, ho⟩

/-- R70: the resolution part of the review flag. -/
theorem reviewPart_iff (segments : List Segment) : reviewPart segments = true ↔
    (∃ g ∈ segments, g.resolution = .unresolved ∨ (∃ fi ti, g.resolution = .empty fi ti) ∨
      ∃ fi ti f t, g.resolution = .resolved fi ti f t ∧ (f = true ∨ t = true)) ∨
    ∃ (m n : Nat) (g h : Segment) (fg tg fh th : Nat), m < n ∧ segments[m]? = some g ∧ segments[n]? = some h ∧
      g.kind = h.kind ∧ g.span = some (fg, tg) ∧ h.span = some (fh, th) ∧ fg < th ∧ fh < tg := by
  simp only [reviewPart, Bool.or_eq_true, List.any_eq_true, Segment.doubtful_iff, anyOverlap_iff,
    Segment.overlaps_iff, exists_and_left]

/-! ### Cleanup and display by the reference state (R71 to R73) -/

/-- R72: a segment that cleanup at a leg keeps: its end index is above the leg, or it is UNRESOLVED. -/
def Segment.endsAfter (c : Nat) (g : Segment) : Bool :=
  match g.resolution.endIndex with
  | some ti => decide (c < ti)
  | none => true

/-- R72: cleanup at a leg keeps those segments. -/
theorem cleanup_some (c : Nat) (segments : List Segment) :
    cleanup (some c) segments = segments.filter (Segment.endsAfter c) := by
  refine List.filter_congr fun g _ => ?_
  cases hg : g.resolution.endIndex <;> simp [Segment.endsBy, Segment.endsAfter, hg, ← decide_not]

/-- R71, R73: at a leg the leg cleans up, and the seat shows what it classifies. -/
theorem Reservations.shows_onLeg {r : Reservations} {k : Nat} (hp : r.refPhase.leg ≠ none) (hk : r.refLeg = some k) :
    r.cleanupLeg = some k ∧ ∀ segments q,
      r.display segments q = ((classify k segments).1, (classify k segments).2.map Segment.shown) := by
  cases h : r.refPhase with
  | atStop j | running j | approaching j | halted j | doubt j =>
    simp only [Reservations.cleanupLeg, Reservations.display, h, hk, Option.getD_some, implies_true, and_self]
  | unplaced | ended | lost => exact absurd (by rw [h]; rfl) hp

/-- R71, R73: in ENDED the last served stop cleans up, and the seat is off. -/
theorem Reservations.shows_ended {r : Reservations} (h : r.refPhase = .ended) :
    r.cleanupLeg = some (r.refView.length - 1) ∧ ∀ segments q, r.display segments q = (.off, none) := by
  simp only [Reservations.cleanupLeg, Reservations.display, h, implies_true, and_self]

/-- R71, R73: without a place nothing cleans up, and the seat is held. -/
theorem Reservations.shows_nowhere {r : Reservations} (h : r.refPhase = .unplaced ∨ r.refPhase = .lost) :
    r.cleanupLeg = none ∧ ∀ segments q, r.display segments q = (q.display, q.shown) := by
  rcases h with h | h <;>
    simp only [Reservations.cleanupLeg, Reservations.display, h, implies_true, and_self]

/-! ### The evaluation of a seat (R69) -/

/-- R69 steps 1 to 5: an evaluation does what `Reservations.evaluates` says, step by step. -/
theorem Reservations.evaluate_evaluates (r : Reservations) (q : Seat) : r.evaluates q (r.evaluate q) := by
  have kept {k : Nat} (hc : r.cleanupLeg = some k) (ordered : List Segment) :
      cleanup r.cleanupLeg ordered = ordered.filter (Segment.endsAfter k) := by
    rw [hc, cleanup_some]
  refine ⟨rfl, ⟨_, sortBy_perm _ _, sortBy_sorted Segment.rank _, fun n => sortBy_stable Segment.rank n _,
    fun k hp hk => ?_, fun h => ?_, fun h => ?_, reviewPart_iff _⟩, fun k hp hk => ?_, fun h => ?_, fun h => ?_⟩
  · exact kept (Reservations.shows_onLeg hp hk).1 _
  · exact kept (Reservations.shows_ended h).1 _
  · show cleanup r.cleanupLeg _ = _
    rw [(Reservations.shows_nowhere h).1]
    rfl
  · have shown := (Reservations.shows_onLeg hp hk).2 (r.evaluate q).segments q
    exact ⟨congrArg Prod.fst shown, congrArg Prod.snd shown⟩
  · have shown := (Reservations.shows_ended h).2 (r.evaluate q).segments q
    exact ⟨congrArg Prod.fst shown, congrArg Prod.snd shown⟩
  · have shown := (Reservations.shows_nowhere h).2 (r.evaluate q).segments q
    exact ⟨congrArg Prod.fst shown, congrArg Prod.snd shown⟩

/-! ### The evaluation of the seat store (R69, R74, R82) -/

/-- R69: the reference view that an evaluation resolves against. -/
theorem Part.readReference_eq (p : Part) : p.readReference = { p with res := { p.res with
    refView := if p.res.refPhase = .unplaced ∨ p.res.refPhase = .lost then p.trk.view.map (·.code)
      else p.res.refView } } := by
  unfold Part.readReference Reservations.readView
  split <;> rfl

/-- R74: the modules to mark are those of the seats that show something else, in store order. -/
theorem changedModules_eq (before after : List Seat) : changedModules before after
    = ((before.zip after).filter
        (fun x => decide (x.1.display ≠ x.2.display ∨ x.1.shown ≠ x.2.shown))).map (fun x => x.2.address) := by
  induction before generalizing after with
  | nil => rfl
  | cons q rest ih =>
    cases after with
    | nil => rfl
    | cons q' rest' =>
      rw [changedModules, ih, List.zip_cons_cons, List.filter_cons]
      by_cases h : q.display ≠ q'.display ∨ q.shown ≠ q'.shown <;> simp [Seat.showsOther, h]

/-- R69, R82: the evaluation of the seats that are named. -/
theorem Part.showSeats_evaluatesSeats (p : Part) (named : Seat → Prop) [DecidablePred named] :
    p.evaluatesSeats (p.readReference.showSeats
      (p.readReference.res.seats.map (fun q => if named q then p.readReference.res.evaluate q else q))) named := by
  rw [Part.readReference_eq]
  refine ⟨rfl, List.length_map _, fun i q q' hq hq' => ?_, ?_, rfl, rfl, rfl⟩
  · have hafter : (p.res.seats.map _)[i]? = some q' := hq'
    rw [List.getElem?_map, hq, Option.map_some, Option.some.injEq] at hafter
    subst hafter
    refine ⟨fun h => ?_, fun h => if_neg h⟩
    rw [if_pos h]
    exact Reservations.evaluate_evaluates _ q
  · exact congrArg _ (changedModules_eq _ _)

/-- R69: the evaluation of the whole store. -/
theorem Part.evaluateAll_evaluatesSeats (p : Part) : p.evaluatesSeats p.evaluateAll (fun _ => True) := by
  have h := p.showSeats_evaluatesSeats (fun _ => True)
  simp only [if_true] at h
  exact h

/-- R82: the evaluation of one seat. -/
theorem Part.evaluateSeat_evaluatesSeats (p : Part) (n : Nat) :
    p.evaluatesSeats (p.evaluateSeat n) (fun q => q.number = n) :=
  p.showSeats_evaluatesSeats (fun q => q.number = n)

/-- R69: the part whose reference is that of a journey event taken. -/
def Part.referred (p : Part) (e : JourneyEvent) (rest : List JourneyEvent) : Part :=
  { p with res := { p.res.refer e with journeys := rest } }

/-- R69: a journey event is taken, and the store evaluated against it. -/
theorem Part.reservationJourney_eq {p : Part} {e : JourneyEvent} {rest : List JourneyEvent}
    (h : p.res.journeys = e :: rest) : p.reservationJourney = (p.referred e rest).evaluateAll := by
  simp only [Part.reservationJourney, h, Part.referred]

/-- R69: the reference leg after a journey event. -/
theorem Reservations.refer_refLeg (r : Reservations) (e : JourneyEvent) :
    (∀ k, e.phase.leg = some k → (r.refer e).refLeg = some k) ∧
      (e.phase.leg = none → (r.refer e).refLeg = r.refLeg) :=
  ⟨fun k h => by simp only [Reservations.refer, h], fun h => by simp only [Reservations.refer, h]⟩

/-- Settles O30: the store's evaluation for any part, and then for the part with the event's reference. -/
theorem journeyEventReevaluatesSeats : Obligations.JourneyEventReevaluatesSeats := by
  refine ⟨Part.evaluateAll_evaluatesSeats, fun s e rest h => ?_⟩
  have taken : exec .reservationJourneyEvent s
      = .next { s with part := (s.part.referred e rest).evaluateAll } :=
    exec_next (·.reservationJourney) rfl (Part.reservationJourney_eq h)
  obtain ⟨hview, hlength, hseats, hmarks, hres, hcmp, hpart⟩ :=
    (s.part.referred e rest).evaluateAll_evaluatesSeats
  obtain ⟨hleg, hnoleg⟩ := s.part.res.refer_refLeg e
  have refLeg : (s.part.referred e rest).evaluateAll.res.refLeg = (s.part.res.refer e).refLeg :=
    congrArg (·.refLeg) hres
  refine ⟨taken, _, taken, rfl, congrArg (·.journeys) hres, congrArg (·.refPhase) hres,
    fun k hk => refLeg.trans (hleg k hk), fun hk => refLeg.trans (hnoleg hk), hview, hlength,
    fun i q q' hq hq' => (hseats i q q' hq hq').1 trivial, hmarks, ?_, hcmp, ?_⟩
  · exact congrArg (fun r : Reservations => { r with
      journeys := s.part.res.journeys, refPhase := s.part.res.refPhase, refLeg := s.part.res.refLeg
      refView := s.part.res.refView, seats := s.part.res.seats }) hres
  · exact congrArg (fun p : Part => { p with res := s.part.res }) hpart

end Sys2Proof.Machine
end

section
/-! PROOF. What a reservation table (R66) and a seat map (R62) leave in the seat store; O28. -/

namespace Sys2Proof.Machine

/-! ### A reservation-table load (R66) -/

/-- R66 steps 2 and 4: a seat takes the segments of the first entry of its number, and none without an entry. -/
theorem loadedSeat_segments (table : List SeatEntry) (q : Seat) :
    (∀ e, table.find? (fun e => e.number == q.number) = some e → (loadedSeat table q).segments = e.segments) ∧
      (table.find? (fun e => e.number == q.number) = none → (loadedSeat table q).segments = []) := by
  refine ⟨fun e h => ?_, fun h => ?_⟩ <;> simp only [loadedSeat, h]

/-- R66 step 3: the entries skipped are those whose number no seat has. -/
theorem skippedNumbers_eq (table : List SeatEntry) (seats : List Seat) : skippedNumbers table seats
    = (table.filter (fun e => decide (∀ q ∈ seats, q.number ≠ e.number))).map (·.number) := by
  rw [skippedNumbers, List.filter_map]
  refine congrArg _ (List.filter_congr fun e _ => ?_)
  rw [Bool.eq_iff_iff]
  simp

/-- R66 step 3: a number skipped is that of an entry, and of no seat. -/
theorem mem_skippedNumbers {table : List SeatEntry} {seats : List Seat} {n : Nat} :
    n ∈ skippedNumbers table seats ↔ ∃ e ∈ table, e.number = n ∧ ∀ q ∈ seats, q.number ≠ n := by
  rw [skippedNumbers_eq, List.mem_map]
  constructor
  · rintro ⟨e, he, rfl⟩
    obtain ⟨hm, hskipped⟩ := List.mem_filter.mp he
    exact ⟨e, hm, rfl, of_decide_eq_true hskipped⟩
  · rintro ⟨e, he, rfl, hskipped⟩
    exact ⟨e, List.mem_filter.mpr ⟨he, decide_eq_true hskipped⟩, rfl⟩

/-- Only of an empty list there is no least number. -/
theorem leastOf_eq_none {ns : List Nat} : leastOf ns = none ↔ ns = [] := by
  cases ns with
  | nil => simp [leastOf]
  | cons n rest => cases h : leastOf rest <;> simp [leastOf, h]

/-- The least number is one of the list and at most each. -/
theorem leastOf_least {ns : List Nat} {n : Nat} (h : leastOf ns = some n) : n ∈ ns ∧ ∀ m ∈ ns, n ≤ m := by
  induction ns generalizing n with
  | nil => cases h
  | cons x rest ih =>
    rw [leastOf] at h
    cases hr : leastOf rest with
    | none =>
      rw [hr, Option.some.injEq] at h
      simp [h, leastOf_eq_none.mp hr]
    | some y =>
      rw [hr, Option.some.injEq] at h
      obtain ⟨hy, hle⟩ := ih hr
      subst h
      refine ⟨?_, fun m hm => ?_⟩
      · rcases Nat.le_total x y with hxy | hxy
        · rw [Nat.min_eq_left hxy]
          exact List.mem_cons_self
        · rw [Nat.min_eq_right hxy]
          exact List.mem_cons_of_mem _ hy
      · rcases List.mem_cons.mp hm with rfl | hm
        · exact Nat.min_le_left _ _
        · exact Nat.le_trans (Nat.min_le_right _ _) (hle m hm)

/-! ### A seat map load (R62) -/

/-- R62: the seat of a map entry stands at the entry's place under its number; a known number keeps its record, a new
one begins with a new record. -/
theorem seatOf_kept_or_new (old : List Seat) (e : SeatPlace) :
    (seatOf old e).number = e.number ∧ (seatOf old e).address = e.address ∧ (seatOf old e).half = e.half ∧
    (∀ q, old.find? (fun o => o.number == e.number) = some q →
      seatOf old e = { q with address := e.address, half := e.half }) ∧
    (old.find? (fun o => o.number == e.number) = none → seatOf old e = newSeat e) := by
  cases h : old.find? (fun o => o.number == e.number) with
  | none => simp [seatOf, h, newSeat]
  | some q => simpa [seatOf, h] using List.find?_some h

/-- R62: the first profile handed over is taken, its seat map and pages replace the engine's, and the store is
evaluated. -/
theorem Part.seatMapLoad_eq {p : Part} {f : Profile} {rest : List Profile} (h : p.res.profiles = f :: rest) :
    p.seatMapLoad = Part.evaluateAll { p with res := { p.res with
      profiles := rest, pages := some f.seatPages, seats := f.seatMap.map (seatOf p.res.seats) } } := by
  simp only [Part.seatMapLoad, h]

/-- Settles O28: the table seat by seat and entry by entry, the seat map entry by entry. -/
theorem seatStoreLoads : Obligations.SeatStoreLoads := by
  refine ⟨fun r table edition => ?_, fun s f rest h => ?_⟩
  · refine ⟨rfl, List.length_map _, fun i q hq => ?_, ?_, fun n hn => ?_, ?_, rfl⟩
    · obtain ⟨hentry, hnone⟩ := loadedSeat_segments table q
      refine ⟨loadedSeat table q, ?_, rfl, hentry, hnone⟩
      show (r.seats.map (loadedSeat table))[i]? = _
      rw [List.getElem?_map, hq]
      rfl
    · show (skippedNumbers table r.seats).length = _
      rw [skippedNumbers_eq, List.length_map]
    · obtain ⟨hm, hle⟩ := leastOf_least hn
      exact ⟨mem_skippedNumbers.mp hm, fun e he hskipped => hle _ (mem_skippedNumbers.mpr ⟨e, he, rfl, hskipped⟩)⟩
    · exact leastOf_eq_none.trans List.length_eq_zero_iff.symm
  · refine ⟨f.seatMap.map (seatOf s.part.res.seats), exec_next (·.seatMapLoad) rfl (Part.seatMapLoad_eq h),
      List.length_map _, fun i e he => ⟨seatOf s.part.res.seats e, ?_, ?_⟩⟩
    · rw [List.getElem?_map, he]
      rfl
    · obtain ⟨hnumber, haddress, hhalf, hkept, hnew⟩ := seatOf_kept_or_new s.part.res.seats e
      refine ⟨hnumber, haddress, hhalf, hkept, fun hnone => ?_⟩
      rw [hnew hnone]
      exact ⟨rfl, rfl, rfl, rfl⟩

end Sys2Proof.Machine
end

section
/-! PROOF. The amendments (R76 to R82, R188): what the engine answers to a record handed to it, and what the edition
unit does with the answer; O31. -/

namespace Sys2Proof.Machine

/-! ### The answer to a record (R181, R188) -/

/-- R181, R188: an answered record waits for its writes; where RUN is 0 or the run was cut off the answer is owed. -/
def State.amendmentAnswer (s : State) (run : DeliveryRun) (p : Part) (r : AmendResult) : Answer :=
  .next { s with part := { p with ed := if run.cut = false ∧ s.part.regs.run = true
    then { p.ed with run := some { run with stage := .answered r } }
    else { p.ed with run := none
                     owed := p.ed.owed ++ [.amend (run.list + 32 * s.part.ed.take) r] } } }

/-- R181, R188: the edition unit with a result, for a part that has the step's registers and take index. -/
theorem Part.amendmentAnswered_some {p : Part} {s : State} (hregs : p.regs = s.part.regs) (hed : p.ed = s.part.ed)
    (run : DeliveryRun) (r : AmendResult) :
    Host.Outcome.next { s with part := p.amendmentAnswered run (some r) } = s.amendmentAnswer run p r := by
  rw [State.amendmentAnswer, ← hregs, ← hed]
  cases hc : run.cut <;> cases hr : p.regs.run <;>
    simp [Part.amendmentAnswered, Part.setRun, Part.owe, takeSlot, hc, hr]

/-- R76: a record is held while the store loads, while it has no edition, and while its edition is below the record's. -/
theorem Reservations.holds_iff (r : Reservations) (edition : Nat) : r.holds edition = true ↔
    r.load ≠ .idle ∨ r.storeEdition = none ∨ ∃ e, r.storeEdition = some e ∧ e < edition := by
  cases h : r.storeEdition <;> simp [Reservations.holds, h]

/-- R77: a record is stale where its edition is below the store's. -/
theorem Reservations.stale_iff (r : Reservations) (edition : Nat) : r.stale edition = true ↔
    ∃ e, r.storeEdition = some e ∧ edition < e := by
  cases h : r.storeEdition <;> simp [Reservations.stale, h]

/-- R76: a store that has an edition no lower than the record's, and does not load, can judge it. -/
theorem Reservations.holds_eq_false {r : Reservations} {e edition : Nat} (hload : r.load = .idle)
    (hstore : r.storeEdition = some e) (hle : edition ≤ e) : r.holds edition = false := by
  simp [Reservations.holds, hload, hstore, hle]

/-- R76: a held record is not judged. -/
theorem Part.answerAmendment_held {p : Part} {a : Amendment} (h : p.res.holds a.edition = true)
    (judge : Part → Amendment → Part × AmendResult) : p.answerAmendment judge a = (p, none) := if_pos h

/-- R77: nor is a stale one. -/
theorem Part.answerAmendment_stale {p : Part} {a : Amendment} {e : Nat} (hload : p.res.load = .idle)
    (hstore : p.res.storeEdition = some e) (hlt : a.edition < e) (judge : Part → Amendment → Part × AmendResult) :
    p.answerAmendment judge a = (p, some .stale) := by
  rw [Part.answerAmendment, Reservations.holds_eq_false hload hstore (Nat.le_of_lt hlt), if_neg Bool.false_ne_true]
  exact if_pos ((p.res.stale_iff a.edition).mpr ⟨e, hstore, hlt⟩)

/-- R78: a record of the store's edition is judged. -/
theorem Part.answerAmendment_judged {p : Part} {a : Amendment} (hload : p.res.load = .idle)
    (hstore : p.res.storeEdition = some a.edition) (judge : Part → Amendment → Part × AmendResult) :
    p.answerAmendment judge a = ((judge p a).1, some (judge p a).2) := by
  rw [Part.answerAmendment, Reservations.holds_eq_false hload hstore (Nat.le_refl _), if_neg Bool.false_ne_true]
  refine if_neg fun h => ?_
  obtain ⟨e, he, hlt⟩ := (p.res.stale_iff a.edition).mp h
  obtain rfl := Option.some.inj (hstore.symm.trans he)
  exact Nat.lt_irrefl _ hlt

/-! ### The rows of the four kinds of record (R78) -/

/-- R78: the command that takes a record by its action, and what its row makes of a record of the store's edition. -/
inductive AmendmentRow (a : Amendment) : Instr → (Part → Amendment → Part × AmendResult) → Prop
  | add (h : a.action = 1) : AmendmentRow a .add (·.judgeOnSeat Part.addSegment)
  | cancel (h : a.action = 2) : AmendmentRow a .cancel (·.judgeOnSeat Part.cancelSegment)
  | clear (h : a.action = 3) : AmendmentRow a .clear Part.judgeClear
  | unnamed (h1 : a.action ≠ 1) (h2 : a.action ≠ 2) (h3 : a.action ≠ 3) :
      AmendmentRow a .amendInvalidAction Part.judgeInvalid

/-- R78: the command of a row takes the record and judges it so. -/
theorem AmendmentRow.takes {a : Amendment} {c : Instr} {judge : Part → Amendment → Part × AmendResult}
    (h : AmendmentRow a c judge) (s : State) :
    ∃ isMine : Nat → Bool, exec c s = s.onPart (·.takeAmendment isMine judge) ∧ isMine a.action = true := by
  cases h with
  | add h | cancel h | clear h => exact ⟨_, rfl, by simp [h]⟩
  | unnamed h1 h2 h3 => exact ⟨_, rfl, by simp [h1, h2, h3]⟩

/-- A row's judgement leaves the registers and the edition unit. -/
theorem AmendmentRow.keeps {a : Amendment} {c : Instr} {judge : Part → Amendment → Part × AmendResult}
    (h : AmendmentRow a c judge) (p : Part) : (judge p a).1.regs = p.regs ∧ (judge p a).1.ed = p.ed := by
  have judged : JudgeKeeps judge := by
    cases h with
    | add h => exact addSegment_keeps
    | cancel h => exact cancelSegment_keeps
    | clear h => exact judgeClear_keeps
    | unnamed h1 h2 h3 => exact judgeInvalid_keeps
  obtain ⟨-, -, -, -, -, -, -, hregs, hed⟩ := judged p a
  exact ⟨hregs, hed⟩

/-! ### A record handed to the engine (R181) -/

section

variable {s : State} {run : DeliveryRun} {a : Amendment} {c : Instr}
  {judge : Part → Amendment → Part × AmendResult} (hrun : s.part.ed.run = some run) (hstage : run.stage = .handed a)
  (hrow : AmendmentRow a c judge)

include hrun hstage hrow

/-- The row of a record's action takes it. -/
theorem exec_amendment_taken {p : Part} {answer : Option AmendResult}
    (ha : s.part.answerAmendment judge a = (p, answer)) :
    exec c s = .next { s with part := (p.raiseIf (raisesAmend answer) .amend).amendmentAnswered run answer } := by
  obtain ⟨isMine, hc, hmine⟩ := hrow.takes s
  exact exec_next _ hc (by simp only [Part.takeAmendment, hrun, hstage, hmine, if_true, ha])

/-- R76: a held record ends the run, and raises nothing. -/
theorem exec_amendment_held (h : s.part.res.holds a.edition = true) :
    exec c s = .next { s with part := { s.part with ed := { s.part.ed with run := none } } } :=
  exec_amendment_taken hrun hstage hrow (Part.answerAmendment_held h judge)

/-- R82: an answer other than APPLIED raises AMEND. -/
theorem exec_amendment_refused {p : Part} {r : AmendResult} (ha : s.part.answerAmendment judge a = (p, some r))
    (hr : r ≠ .applied) (hkeeps : p.regs = s.part.regs ∧ p.ed = s.part.ed) :
    exec c s = s.amendmentAnswer run (p.raise .amend) r := by
  rw [exec_amendment_taken hrun hstage hrow ha, raisesAmend, decide_eq_true hr]
  exact Part.amendmentAnswered_some (p := p.raise .amend) hkeeps.1 hkeeps.2 run r

/-- R77: STALE. -/
theorem exec_amendment_stale {e : Nat} (hload : s.part.res.load = .idle) (hstore : s.part.res.storeEdition = some e)
    (hlt : a.edition < e) : exec c s = s.amendmentAnswer run (s.part.raise .amend) .stale :=
  exec_amendment_refused hrun hstage hrow (Part.answerAmendment_stale hload hstore hlt judge) (by decide) ⟨rfl, rfl⟩

variable (hload : s.part.res.load = .idle) (hstore : s.part.res.storeEdition = some a.edition)

include hload hstore

/-- R78, R82: a judgement other than APPLIED of a record of the store's edition raises AMEND. -/
theorem exec_judged_refused {p : Part} {r : AmendResult} (hp : judge s.part a = (p, r)) (hr : r ≠ .applied) :
    exec c s = s.amendmentAnswer run (p.raise .amend) r := by
  have keeps := hrow.keeps s.part
  rw [hp] at keeps
  exact exec_amendment_refused hrun hstage hrow (by rw [Part.answerAmendment_judged hload hstore, hp]) hr keeps

/-- R78, R82: a record of the store's edition that is applied raises nothing. -/
theorem exec_judged_applied {p : Part} (hp : judge s.part a = (p, .applied)) :
    exec c s = s.amendmentAnswer run p .applied := by
  have keeps := hrow.keeps s.part
  rw [hp] at keeps
  rw [exec_amendment_taken hrun hstage hrow (by rw [Part.answerAmendment_judged hload hstore, hp])]
  exact Part.amendmentAnswered_some keeps.1 keeps.2 run .applied

end

/-! ### The kind and the seat of a record (R78) -/

/-- 11.3: the two segment kinds by their codes. -/
theorem segKindOf_of {n : Nat} {kind : SegKind} (h : (n = 1 ∧ kind = .reserved) ∨ (n = 2 ∧ kind = .blocked)) :
    segKindOf n = some kind := by
  obtain ⟨rfl, rfl⟩ | ⟨rfl, rfl⟩ := h <;> rfl

/-- R78: a record of no segment kind is invalid. -/
theorem Part.judgeOnSeat_invalid {p : Part} {a : Amendment} (h : segKindOf a.kind = none)
    (act : Part → Seat → SegKind → Amendment → Part × AmendResult) : p.judgeOnSeat act a = (p, .invalid) := by
  simp only [Part.judgeOnSeat, h]

/-- R78: the seat of a record is not in the store. -/
theorem Part.judgeOnSeat_unknown {p : Part} {a : Amendment} {kind : SegKind} (hk : segKindOf a.kind = some kind)
    (hq : p.res.seat a.seat = none) (act : Part → Seat → SegKind → Amendment → Part × AmendResult) :
    p.judgeOnSeat act a = (p, .unknownSeat) := by
  simp only [Part.judgeOnSeat, hk, hq]

/-- R78: the action is done on the record's seat. -/
theorem Part.judgeOnSeat_acts {p : Part} {a : Amendment} {kind : SegKind} {q : Seat}
    (hk : segKindOf a.kind = some kind) (hq : p.res.seat a.seat = some q)
    (act : Part → Seat → SegKind → Amendment → Part × AmendResult) : p.judgeOnSeat act a = act p q kind a := by
  simp only [Part.judgeOnSeat, hk, hq]

/-! ### ADD (R79) -/

/-- R79 step 1: the segment that ADD would put, resolved against the present reference view. -/
def Part.newSegment (p : Part) (kind : SegKind) (a : Amendment) : Segment :=
  { kind := kind, fromCode := a.fromCode, toCode := a.toCode, label := a.label, note := a.note
    resolution := resolve p.readReference.res.refView a.fromCode a.toCode }

/-- R79: the segments of a seat that a new one leaves: those that it does not overlap. -/
def Seat.besides (q : Seat) (new : Segment) : List Segment := q.segments.filter (fun g => !new.overlaps g)

/-- R79 step 2: the cleanup of the present reference would remove the segment. -/
theorem Reservations.expires_iff (r : Reservations) (g : Segment) : r.expires g = true ↔
    ∃ c ti, r.cleanupLeg = some c ∧ g.resolution.endIndex = some ti ∧ ti ≤ c := by
  cases hc : r.cleanupLeg <;> cases ht : g.resolution.endIndex <;> simp [Reservations.expires, Segment.endsBy, hc, ht]

/-- R79 step 1: a segment of which no code is served is not put. -/
theorem Part.addSegment_unresolved {p : Part} {q : Seat} {kind : SegKind} {a : Amendment}
    (h : (p.newSegment kind a).resolution = .unresolved) :
    p.addSegment q kind a = (p.readReference, .refusedUnresolved) := if_pos h

/-- R79 step 2: nor one that would be cleaned up at once. -/
theorem Part.addSegment_expired {p : Part} {q : Seat} {kind : SegKind} {a : Amendment}
    (h : (p.newSegment kind a).resolution ≠ .unresolved)
    (he : p.readReference.res.expires (p.newSegment kind a) = true) :
    p.addSegment q kind a = (p.readReference, .expired) := (if_neg h).trans (if_pos he)

/-- R79: where four segments are left, the new one finds no place, and the seat is to be reviewed. -/
theorem Part.addSegment_full {p : Part} {q : Seat} {kind : SegKind} {a : Amendment}
    (h : (p.newSegment kind a).resolution ≠ .unresolved)
    (he : ¬ p.readReference.res.expires (p.newSegment kind a) = true)
    (hfull : 4 ≤ (q.besides (p.newSegment kind a)).length) :
    p.addSegment q kind a
      = (p.readReference.changeSeat q.number (fun x => { x with reviewLatched := true }), .refusedFull) :=
  (if_neg h).trans ((if_neg he).trans (if_pos hfull))

/-- R79: else it is put after those left, and the seat evaluated. -/
theorem Part.addSegment_put {p : Part} {q : Seat} {kind : SegKind} {a : Amendment}
    (h : (p.newSegment kind a).resolution ≠ .unresolved)
    (he : ¬ p.readReference.res.expires (p.newSegment kind a) = true)
    (hfits : (q.besides (p.newSegment kind a)).length < 4) :
    p.addSegment q kind a
      = (p.readReference.amended q.number (q.besides (p.newSegment kind a) ++ [p.newSegment kind a]),
        if (q.besides (p.newSegment kind a)).length = q.segments.length then .applied else .replaced) :=
  (if_neg h).trans ((if_neg he).trans (if_neg (Nat.not_le.mpr hfits)))

/-- Settles O31: ADD by the first of its steps that ends it. -/
theorem addPutsOneSegment : Obligations.AddPutsOneSegment := by
  refine ⟨Part.evaluateSeat_evaluatesSeats, fun s run a kind q hrun hstage haction hload hstore hkind hseat => ?_⟩
  have acts : s.part.judgeOnSeat Part.addSegment a = s.part.addSegment q kind a :=
    Part.judgeOnSeat_acts (segKindOf_of hkind) hseat Part.addSegment
  have refused {p : Part} {r : AmendResult} (hp : s.part.addSegment q kind a = (p, r)) (hr : r ≠ .applied) :=
    exec_judged_refused hrun hstage (.add haction) hload hstore (acts.trans hp) hr
  have applied {p : Part} (hp : s.part.addSegment q kind a = (p, .applied)) :=
    exec_judged_applied hrun hstage (.add haction) hload hstore (acts.trans hp)
  intro seen new kept expires answered
  have hexpires : seen.res.expires new = true ↔ expires := seen.res.expires_iff new
  refine ⟨fun h => ?_, fun h he => ?_, fun h he hfull => ?_, fun h he hfits => ⟨fun hall => ?_, fun hsome => ?_⟩⟩
  · exact refused (Part.addSegment_unresolved h) (by decide)
  · exact refused (Part.addSegment_expired h (hexpires.mpr he)) (by decide)
  · exact refused (Part.addSegment_full h (mt hexpires.mp he) hfull) (by decide)
  · exact applied ((Part.addSegment_put h (mt hexpires.mp he) hfits).trans (congrArg _ (if_pos hall)))
  · exact refused ((Part.addSegment_put h (mt hexpires.mp he) hfits).trans (congrArg _ (if_neg hsome))) (by decide)

end Sys2Proof.Machine
end

section
/-! PROOF. CANCEL, CLEAR and the other answers to a record (R76 to R82), and the delivery run (R181, 11.3); O32. -/

namespace Sys2Proof.Machine

/-! ### CANCEL and CLEAR (R80, R81) -/

/-- R80: CANCEL of a segment that the seat has takes every one of its kind and codes away. -/
theorem Part.cancelSegment_applied {q : Seat} {kind : SegKind} {a : Amendment}
    (h : ∃ g ∈ q.segments, g.named kind a = true) (p : Part) :
    p.cancelSegment q kind a = (p.amended q.number (q.segments.filter (fun g => !g.named kind a)), .applied) :=
  if_pos (List.any_eq_true.mpr h)

/-- R80: CANCEL of one that it has not changes nothing. -/
theorem Part.cancelSegment_notFound {q : Seat} {kind : SegKind} {a : Amendment}
    (h : ∀ g ∈ q.segments, g.named kind a = false) (p : Part) : p.cancelSegment q kind a = (p, .notFound) :=
  if_neg (by rw [List.any_eq_false.mpr fun g hg => by simp [h g hg]]; decide)

/-- R81: CLEAR leaves the seat without segments. -/
theorem Part.judgeClear_applied {p : Part} {a : Amendment} {q : Seat} (h : p.res.seat a.seat = some q) :
    p.judgeClear a = (p.amended q.number [], .applied) := by
  simp only [Part.judgeClear, h]

/-- R78: CLEAR of a seat that is not in the store. -/
theorem Part.judgeClear_unknown {p : Part} {a : Amendment} (h : p.res.seat a.seat = none) :
    p.judgeClear a = (p, .unknownSeat) := by
  simp only [Part.judgeClear, h]

/-- R78: every record has a row. -/
theorem exists_amendmentRow {c : Instr} {a : Amendment}
    (h : (c = .add ∧ a.action = 1) ∨ (c = .cancel ∧ a.action = 2) ∨ (c = .clear ∧ a.action = 3) ∨
      (c = .amendInvalidAction ∧ a.action ≠ 1 ∧ a.action ≠ 2 ∧ a.action ≠ 3)) :
    ∃ judge, AmendmentRow a c judge := by
  obtain ⟨rfl, h⟩ | ⟨rfl, h⟩ | ⟨rfl, h⟩ | ⟨rfl, h1, h2, h3⟩ := h
  · exact ⟨_, .add h⟩
  · exact ⟨_, .cancel h⟩
  · exact ⟨_, .clear h⟩
  · exact ⟨_, .unnamed h1 h2 h3⟩

/-! ### The record and its slot (11.3) -/

/-- R191: a field of one byte more, its least byte first. -/
theorem headField_succ (bs : List Byte) (offset n : Nat) :
    headField bs offset (n + 1) = (bs.getD offset 0).toNat + 256 * headField bs (offset + 1) n := by
  unfold headField
  by_cases h : offset < bs.length
  · rw [List.drop_eq_getElem_cons h, List.take_succ_cons, littleEndian, List.getD_eq_getElem?_getD,
      List.getElem?_eq_getElem h, Option.getD_some]
  · rw [List.drop_eq_nil_of_le (Nat.not_lt.mp h), List.drop_eq_nil_of_le (by omega), List.getD_eq_getElem?_getD,
      List.getElem?_eq_none (Nat.not_lt.mp h)]
    simp [littleEndian]

/-- R191: fields of one, two and four bytes. -/
theorem headField_bytes (bs : List Byte) (offset : Nat) :
    let at_ (i : Nat) : Nat := (bs.getD i 0).toNat
    headField bs offset 1 = at_ offset ∧ headField bs offset 2 = at_ offset + 256 * at_ (offset + 1) ∧
      headField bs offset 4 = at_ offset + 256 * at_ (offset + 1)
        + 65536 * (at_ (offset + 2) + 256 * at_ (offset + 3)) := by
  have empty (i : Nat) : headField bs i 0 = 0 := by simp [headField, littleEndian]
  simp only [headField_succ, empty, Nat.add_assoc, Nat.reduceAdd]
  omega

/-- Reads do not see the host's writes but in memory. -/
theorem View.bytes_hostless (v : View) (offset n : Nat) :
    ({ v with bus := { v.bus with host := [] } } : View).bytes offset n = v.bytes offset n := by
  induction n generalizing offset with
  | zero => rfl
  | succ n ih =>
    rw [View.bytes, View.bytes, ih]
    rfl

/-- R181: a slot read that fails ends the run; one that succeeds hands the record on. -/
theorem Part.readSlot_cases (p : Part) (bus : Bus) (run : DeliveryRun) :
    (∀ f, (p.view bus).bytes (takeSlot run.list p.ed.take) 32 = .error f →
      p.readSlot bus run = (p.setRun none).memoryError .edition f.address f.cause) ∧
    (∀ bs, (p.view bus).bytes (takeSlot run.list p.ed.take) 32 = .ok bs →
      p.readSlot bus run = p.setRun (some { run with stage := .handed (amendmentOf bs) })) := by
  refine ⟨fun f h => ?_, fun bs h => ?_⟩ <;> simp only [Part.readSlot, h]

/-- R181: a slot read does not see the host's writes but in memory. -/
theorem Part.readSlot_hostless (p : Part) (bus : Bus) (run : DeliveryRun) :
    p.readSlot { bus with host := [] } run = p.readSlot bus run := by
  have same := (p.view bus).bytes_hostless (takeSlot run.list p.ed.take) 32
  unfold Part.readSlot
  rw [← same]
  rfl

/-! ### The writes of an answered record (R181) -/

/-- R181: the bytes of a record's result, of the take field and of the sequence word, with their offsets. -/
def takenBytes (slot take : Nat) (r : AmendResult) (seq : Word) : List (Nat × Byte) :=
  fieldBytes [{ offset := slot + 16, size := 1, value := r.code }, { offset := 0x8E, size := 1, value := take },
    sequenceField seq]

theorem takenBytes_offsets (slot take : Nat) (r : AmendResult) (seq : Word) :
    (takenBytes slot take r seq).map (·.1) = [slot + 16, 0x8E, 4, 5, 6, 7] := rfl

/-- R181: a result write that no bus error cuts. -/
theorem Part.resultWrite_done (p : Part) {bus : Bus} (h : bus.writeErrors = []) (slot code : Nat) :
    p.resultWrite bus slot code = { p with
      mem := Memory.writeAll p.mem
        (busCells p.regs.windowBase (fieldBytes [{ offset := slot + 16, size := 1, value := code }])) } := by
  have unrefused (fields : List FieldWrite) : ∀ y ∈ fieldBytes fields,
      busAddress p.regs.windowBase y.1 ∉ bus.writeErrors := fun y _ => by simp [h]
  simp only [Part.resultWrite, writeFields_eq_putBytes, putBytes_done _ _ _ (unrefused _)]
  rfl

/-- R181: with no bus error a record is taken by one run of byte writes. -/
theorem Part.takeRecord_done (p : Part) {bus : Bus} (h : bus.writeErrors = []) (slot : Nat) (r : AmendResult) :
    p.takeRecord bus slot r = { p with
      mem := Memory.writeAll p.mem
        (busCells p.regs.windowBase (takenBytes slot ((p.ed.take + 1) % 64) r (p.ed.seq + 1#32)))
      ed := { p.ed with take := (p.ed.take + 1) % 64, seq := p.ed.seq + 1#32 } } := by
  rw [Part.takeRecord, Part.resultWrite_done p h, Part.advanceTake, Part.takeWrite, Part.headWrite_done _ h]
  simp [takenBytes, takeField, fieldBytes, busCells, Memory.writeAll]

/-- R181: a byte that a taken record's writes do not name reads as before. -/
theorem read_takenBytes_other (m : Memory) (base : Word) (slot take : Nat) (r : AmendResult) (seq : Word) {b : Nat}
    (h : ∀ x, x ∈ [slot + 16, 0x8E, 4, 5, 6, 7] → b ≠ busAddress base x) :
    Memory.read (Memory.writeAll m (busCells base (takenBytes slot take r seq))) b = Memory.read m b := by
  refine Memory.read_writeAll_other _ _ fun c hc => ?_
  obtain ⟨x, hx, rfl⟩ := List.mem_map.mp hc
  exact h x.1 (takenBytes_offsets slot take r seq ▸ List.mem_map_of_mem hx)

/-- R181: where the result byte is none of the head block's, it and the take field read as written. -/
theorem read_takenBytes {m : Memory} (hm : Memory.wf m = true) (base : Word) {slot : Nat} (take : Nat)
    (r : AmendResult) (seq : Word)
    (h : ∀ x, x ∈ [0x8E, 4, 5, 6, 7] → busAddress base (slot + 16) ≠ busAddress base x) :
    let m' := Memory.writeAll m (busCells base (takenBytes slot take r seq))
    Memory.read m' (busAddress base (slot + 16)) = BitVec.ofNat 8 r.code ∧
      Memory.read m' (busAddress base 0x8E) = BitVec.ofNat 8 take := by
  have addresses : (busCells base (takenBytes slot take r seq)).map (·.1)
      = busAddress base (slot + 16) :: [0x8E, 4, 5, 6, 7].map (busAddress base) := rfl
  have head : ([0x8E, 4, 5, 6, 7].map (busAddress base)).Nodup :=
    List.Nodup.map_on (fun x hx y hy hxy => busAddress_inj base
      (by simp at hx; omega) (by simp at hy; omega) hxy) (by decide)
  have nodup : ((busCells base (takenBytes slot take r seq)).map (·.1)).Nodup := by
    rw [addresses, List.nodup_cons]
    refine ⟨fun hmem => ?_, head⟩
    obtain ⟨x, hx, he⟩ := List.mem_map.mp hmem
    exact h x hx he.symm
  have byte {f : FieldWrite} (hf : f ∈ [{ offset := slot + 16, size := 1, value := r.code },
      { offset := 0x8E, size := 1, value := take }, sequenceField seq]) (hs : 0 < f.size) :=
    Memory.read_writeAll_mem hm nodup (List.mem_map_of_mem (mem_fieldBytes hf hs))
  refine ⟨?_, ?_⟩
  · simpa using byte (f := { offset := slot + 16, size := 1, value := r.code }) (by simp) Nat.one_pos
  · simpa using byte (f := { offset := 0x8E, size := 1, value := take }) (by simp) Nat.one_pos

/-! ### The delivery run (R181) -/

/-- R181: the part once an answered record is taken: the host's writes have landed, the result, the take field and the
sequence word are written. -/
def Part.recordTaken (p : Part) (bus : Bus) (slot : Nat) (r : AmendResult) : Part := { p with
  mem := Memory.writeAll (Memory.writeAll p.mem bus.host)
    (busCells p.regs.windowBase (takenBytes slot ((p.ed.take + 1) % 64) r (p.ed.seq + 1#32)))
  ed := { p.ed with take := (p.ed.take + 1) % 64, seq := p.ed.seq + 1#32 } }

/-- R181: the run reads its slot. -/
theorem Part.runDelivery_reading {p : Part} {run : DeliveryRun} (hr : p.regs.run = true) (hrun : p.ed.run = some run)
    (hstage : run.stage = .reading) (bus : Bus) : p.runDelivery bus = (p.hostWrites bus).readSlot bus run := by
  simp only [Part.runDelivery, hr, hrun, hstage, if_true]

/-- R181: with no bus error the run takes the record answered and goes on. -/
theorem Part.runDelivery_answered {p : Part} {run : DeliveryRun} {r : AmendResult} (hr : p.regs.run = true)
    (hrun : p.ed.run = some run) (hstage : run.stage = .answered r) {bus : Bus} (hb : bus.writeErrors = []) :
    p.runDelivery bus = (p.recordTaken bus (run.list + 32 * p.ed.take) r).continueRun bus
      { run with count := run.count + 1, stage := .reading } := by
  simp only [Part.runDelivery, hr, hrun, hstage, if_true, Part.takeRecord_done _ hb]
  rfl

/-- R181: where take reaches post, and after 16 records, the run ends. -/
theorem Part.continueRun_ends {p : Part} {run : DeliveryRun} (h : p.ed.take = run.post ∨ 16 ≤ run.count) (bus : Bus) :
    p.continueRun bus run = p.setRun none := if_pos h

/-- R181: else it goes on as a run that reads the next slot, the host's writes having landed. -/
theorem Part.continueRun_reads {p : Part} {run : DeliveryRun} (hr : p.regs.run = true) (hstage : run.stage = .reading)
    (hpost : p.ed.take ≠ run.post) (hcount : run.count < 16) (bus : Bus) :
    p.continueRun bus run = (p.setRun (some run)).runDelivery { bus with host := [] } := by
  rw [Part.runDelivery_reading (p := p.setRun (some run)) hr rfl hstage]
  exact (if_neg (by omega)).trans ((p.readSlot_hostless bus run).symm)

/-- Settles O32: the record's bytes, its answer by its action, its edition, and the run by its stage. -/
theorem amendmentsAreAnsweredAndTaken : Obligations.AmendmentsAreAnsweredAndTaken := by
  refine ⟨fun bs _ => ?_, ⟨fun s run a hrun hstage hload hstore => ?_, fun s run a c hrun hstage hrow => ?_⟩,
    fun s bus run hrun hr => ⟨fun hstage => ⟨fun f hf => ?_, fun bs hbs => ?_⟩, fun r hstage hb _ hend => ?_,
      fun r hstage hb _ hpost hcount => ?_, fun r hstage hb hm haddress => ?_⟩⟩
  · have one (i : Nat) := (headField_bytes bs i).1
    have two (i : Nat) := (headField_bytes bs i).2.1
    have four := (headField_bytes bs 0).2.2
    simp only [amendmentOf, one, two, four, optional16]
  · have refused {c judge p r} (hrow : AmendmentRow a c judge) (hp : judge s.part a = (p, r)) (hr : r ≠ .applied) :=
      exec_judged_refused hrun hstage hrow hload hstore hp hr
    have applied {c judge p} (hrow : AmendmentRow a c judge) (hp : judge s.part a = (p, .applied)) :=
      exec_judged_applied hrun hstage hrow hload hstore hp
    have kindOf (h : a.kind = 1 ∨ a.kind = 2) : ∃ kind, segKindOf a.kind = some kind := by
      rcases h with h | h <;> exact ⟨_, by rw [h]; rfl⟩
    refine ⟨fun h1 h2 h3 => refused (.unnamed h1 h2 h3) rfl (by decide), fun h k1 k2 => ?_, fun h k1 k2 => ?_,
      fun hq h => refused (.clear h) (Part.judgeClear_unknown hq) (by decide), fun hq h hk => ?_, fun hq h hk => ?_,
      fun q hq => ⟨fun h => applied (.clear h) (Part.judgeClear_applied hq),
        fun kind h hk => ⟨fun hsome => ?_, fun hnone => ?_⟩⟩⟩
    · exact refused (.add h) (Part.judgeOnSeat_invalid ((segKindOf_eq_none _).mpr ⟨k1, k2⟩) _) (by decide)
    · exact refused (.cancel h) (Part.judgeOnSeat_invalid ((segKindOf_eq_none _).mpr ⟨k1, k2⟩) _) (by decide)
    · obtain ⟨kind, hkind⟩ := kindOf hk
      exact refused (.add h) (Part.judgeOnSeat_unknown hkind hq _) (by decide)
    · obtain ⟨kind, hkind⟩ := kindOf hk
      exact refused (.cancel h) (Part.judgeOnSeat_unknown hkind hq _) (by decide)
    · exact applied (.cancel h)
        ((Part.judgeOnSeat_acts (segKindOf_of hk) hq _).trans (Part.cancelSegment_applied hsome _))
    · exact refused (.cancel h)
        ((Part.judgeOnSeat_acts (segKindOf_of hk) hq _).trans (Part.cancelSegment_notFound hnone _)) (by decide)
  · obtain ⟨judge, hrow⟩ := exists_amendmentRow hrow
    refine ⟨fun h => exec_amendment_held hrun hstage hrow ((Reservations.holds_iff _ _).mpr h),
      fun e hload hstore hlt hcut hr => ?_, fun e hload hstore hlt hstop => ?_⟩
    · rw [exec_amendment_stale hrun hstage hrow hload hstore hlt, State.amendmentAnswer, if_pos ⟨hcut, hr⟩]
      rfl
    · rw [exec_amendment_stale hrun hstage hrow hload hstore hlt, State.amendmentAnswer,
        if_neg (by rcases hstop with h | h <;> simp [h])]
      rfl
  · exact exec_next (·.runDelivery bus) rfl ((Part.runDelivery_reading hr hrun hstage bus).trans
      (((s.part.hostWrites bus).readSlot_cases bus run).1 f hf))
  · exact exec_next (·.runDelivery bus) rfl ((Part.runDelivery_reading hr hrun hstage bus).trans
      (((s.part.hostWrites bus).readSlot_cases bus run).2 bs hbs))
  · exact ⟨_, exec_next (·.runDelivery bus) rfl ((Part.runDelivery_answered hr hrun hstage hb).trans
        (Part.continueRun_ends hend bus)), rfl, rfl, rfl, fun b => read_takenBytes_other _ _ _ _ _ _⟩
  · have taken := (Part.runDelivery_answered hr hrun hstage hb).trans
      (Part.continueRun_reads (p := s.part.recordTaken bus (run.list + 32 * s.part.ed.take) r)
        (run := { run with count := run.count + 1, stage := .reading }) hr rfl hpost hcount bus)
    refine ⟨(s.part.recordTaken bus (run.list + 32 * s.part.ed.take) r).setRun
      (some { run with count := run.count + 1, stage := .reading }), ?_, rfl, rfl,
      fun b => read_takenBytes_other _ _ _ _ _ _⟩
    exact (exec_next (·.runDelivery bus) rfl taken).trans rfl
  · refine ⟨_, exec_next (·.runDelivery bus) rfl (Part.runDelivery_answered hr hrun hstage hb), ?_⟩
    dsimp only
    rw [(Part.continueRun_keeps _ _ _).1]
    exact read_takenBytes (Memory.wf_writeAll hm _) _ _ r _ haddress

end Sys2Proof.Machine
end

section
/-! PROOF. The chime player (R102): what a request and the end of a part do, said once by its case; O36. -/

namespace Sys2Proof.Machine

/-! ### Requests -/

/-- The request at the front of the player's inbox is taken. -/
theorem Part.chimeRequested_cons {p : Part} {n : Nat} {rest : List Nat} (h : p.swp.chime.inbox = n :: rest) :
    p.chimeRequested = { p with swp := { p.swp with chime :=
      { p.swp.chime.request n p.swp.ms with inbox := rest } } } := by
  simp only [Part.chimeRequested, h]

/-- R102: an IDLE player starts the chime. -/
theorem Chime.request_idle {c : Chime} (h : c.playing = none) (n : Nat) (ms : Word) :
    c.request n ms = { c with playing := some (startChime n ms) } := by
  simp only [Chime.request, h]

/-- R102: a PLAYING player keeps the request as its pending one. -/
theorem Chime.request_playing {c : Chime} (h : c.playing ≠ none) (n : Nat) (ms : Word) :
    c.request n ms = { c with pending := some n } := by
  obtain ⟨t, ht⟩ := Option.ne_none_iff_exists'.mp h
  simp only [Chime.request, ht]

/-! ### The end of a part -/

section
variable {c : Chime} {t : Playing} {ms : Word} (hplays : c.playing = some t) (hreached : reached ms t.until_ = true)
include hplays hreached

/-- R102: the end of an on-part turns the output off. -/
theorem Chime.partEnd_on (hon : t.on = true) :
    c.partEnd ms = { c with playing := some { t with on := false, until_ := t.until_ + tonePart } } := by
  simp only [Chime.partEnd, hplays, hreached, hon, if_true]

/-- R102: the end of an off-part with tones left begins the next tone. -/
theorem Chime.partEnd_off (hoff : t.on = false) (hleft : 1 < t.left) :
    c.partEnd ms = { c with playing := some { left := t.left - 1, on := true, until_ := t.until_ + tonePart } } := by
  simp only [Chime.partEnd, hplays, hreached, hoff, if_true, Bool.false_eq_true, if_false, Nat.not_le.mpr hleft]

/-- R102: the end of the last off-part ends the chime. -/
theorem Chime.partEnd_last (hoff : t.on = false) (hleft : t.left ≤ 1) : c.partEnd ms = c.finish ms := by
  simp only [Chime.partEnd, hplays, hreached, hoff, if_true, Bool.false_eq_true, if_false, hleft]

end

/-- R102: with no pending request the player becomes IDLE. -/
theorem Chime.finish_quiet {c : Chime} (h : c.pending = none) (ms : Word) :
    c.finish ms = { c with playing := none } := by
  simp only [Chime.finish, h]

/-- R102: a pending request starts. -/
theorem Chime.finish_pending {c : Chime} {n : Nat} (h : c.pending = some n) (ms : Word) :
    c.finish ms = { c with playing := some (startChime n ms), pending := none } := by
  simp only [Chime.finish, h]

/-- Settles O36, by the cases of a request and of the end of a part. -/
theorem chimePlayerPlays : Obligations.ChimePlayerPlays := by
  intro s chime ms withChime
  have ended {c : Chime} (h : chime.partEnd ms = c) : exec .tonePartEnd s = withChime c :=
    exec_next (·.tonePartEnded) rfl (by rw [Part.tonePartEnded, h])
  have requested {n : Nat} {rest : List Nat} {c : Chime} (hin : chime.inbox = n :: rest)
      (h : chime.request n ms = c) : exec .chimeRequest s = withChime { c with inbox := rest } :=
    exec_next (·.chimeRequested) rfl (by rw [Part.chimeRequested_cons hin, h])
  refine ⟨fun n rest hin => ⟨fun hidle => ?_, fun hplays => ?_⟩, fun t hplays hreached =>
    ⟨fun hon => ?_, fun hoff hleft => ?_, fun hoff hleft => ⟨fun hquiet => ?_, fun n hpending => ?_⟩⟩⟩
  · exact requested hin (Chime.request_idle hidle n ms)
  · exact requested hin (Chime.request_playing hplays n ms)
  · exact ended (Chime.partEnd_on hplays hreached hon)
  · exact ended (Chime.partEnd_off hplays hreached hoff hleft)
  · exact ended ((Chime.partEnd_last hplays hreached hoff hleft).trans (Chime.finish_quiet hquiet ms))
  · exact ended ((Chime.partEnd_last hplays hreached hoff hleft).trans (Chime.finish_pending hpending ms))

end Sys2Proof.Machine
end

section
/-! PROOF. The notice scheduler's distance plan (R92 to R94): how triggers are armed at the odometer, and what the
building and the dropping of a plan leave; the steps of a journey event (R91); O33. -/

namespace Sys2Proof.Machine

/-! ### Arming (R92 step 6, R15) -/

/-- R15: of the scheduler's own state an arm request touches the inbox alone. -/
theorem Part.armMark_ntc (p : Part) (tag : MarkTag) (mm : Nat) :
    { (p.armMark tag mm).ntc with inbox := [] } = { p.ntc with inbox := [] } := by
  unfold Part.armMark
  split
  · cases tag <;> rfl
  · split <;> rfl

/-- R92 step 6: of the scheduler's own state arming replaces the plan, and touches the inbox. -/
theorem Part.armTriggers_ntc (p : Part) (n : Nat) (plan : List PendingTrigger) :
    { (p.armTriggers n plan).ntc with inbox := [] } = { p.ntc with plan := some (armFirst n plan), inbox := [] } :=
  foldl_keeps (fun q : Part => ({ q.ntc with inbox := [] } : Notices)) _ (fun q _ => Part.armMark_ntc q _ _) _ _

/-- R92: what building a plan leaves of the scheduler's own state. -/
theorem Part.buildPlan_ntc (p : Part) (k : Nat) (fired : List Nat) :
    { (p.buildPlan k fired).ntc with inbox := [] } = { p.ntc with
      plan := some (armFirst 6 (planFor p.ntc.store p.ntc.refView k fired)), planGen := p.ntc.planGen + 1#16
      legFired := fired, inbox := [] } :=
  Part.armTriggers_ntc _ _ _

/-- R92: a plan is built from the store, which stays. -/
theorem Part.buildPlan_store (p : Part) (k : Nat) (fired : List Nat) : (p.buildPlan k fired).ntc.store = p.ntc.store :=
  congrArg (·.store) (Part.buildPlan_ntc p k fired)

/-! ### Dropping (R94) -/

/-- R94: the next generation, with the scheduler's marks cleared and no plan. -/
theorem Part.dropPlan_eq (p : Part) : p.dropPlan = { p with
    ntc := { p.ntc with plan := none, planGen := p.ntc.planGen + 1#16, legFired := [] }
    odo := { p.odo with marks := p.odo.marks.filter (fun m => decide (m.tag.owner ≠ .notices)) } } := rfl

/-! ### Step 4 of a journey event (R92, R94) -/

/-- R94: an event that leaves no leg state drops the plan. -/
theorem Part.planStep_drops {p : Part} {e : JourneyEvent} (h : e.phase.runLeg = none) (before : Phase) :
    p.planStep e before = p.dropPlan := by
  simp only [Part.planStep, h]

/-- R92: a leg that begins, a placement and a remap build the plan. -/
theorem Part.planStep_builds {p : Part} {e : JourneyEvent} {before : Phase} {k : Nat} (h : e.phase.runLeg = some k)
    (hb : before.runLeg ≠ some k ∨ e.cause = .place ∨ e.cause = .remap) :
    p.planStep e before = p.buildPlan k [] := by
  have hbuilds : buildsPlan e before k = true := by simpa [buildsPlan, or_assoc] using hb
  simp only [Part.planStep, h, hbuilds, if_true]

/-- R92: any other event on the same leg keeps it. -/
theorem Part.planStep_stays {p : Part} {e : JourneyEvent} {before : Phase} {k : Nat} (h : e.phase.runLeg = some k)
    (hb : before.runLeg = some k) (hplace : e.cause ≠ .place) (hremap : e.cause ≠ .remap) :
    p.planStep e before = p := by
  have hbuilds : buildsPlan e before k = false := by simp [buildsPlan, hb, hplace, hremap]
  simp only [Part.planStep, h, hbuilds, Bool.false_eq_true, if_false]

/-- R91 step 4 leaves the notice store. -/
theorem Part.planStep_store (p : Part) (e : JourneyEvent) (before : Phase) :
    (p.planStep e before).ntc.store = p.ntc.store := by
  unfold Part.planStep
  split
  · rfl
  · split
    · exact Part.buildPlan_store _ _ _
    · rfl

/-! ### Step 3 of a journey event (R98) -/

/-- R98: an entry's end condition, by the definition of its id. -/
theorem endMet_eq (store : List NoticeDef) (e : JourneyEvent) (before : Phase) (x : NoticeEntry) :
    endMet store e before x = match noticeOf store x.id with
      | none => false
      | some d => decide ((d.endCondition = .arrive ∧ e.cause = .arrive)
          ∨ (d.endCondition = .depart ∧ e.cause = .depart)
          ∨ (d.endCondition = .legChange ∧ e.phase.leg ≠ before.leg)) := by
  unfold endMet
  cases noticeOf store x.id with
  | none => rfl
  | some d => cases hd : d.endCondition <;> simp [hd]

/-- R98: the part without the entries whose end condition the event meets. -/
def Part.endNotices (p : Part) (e : JourneyEvent) (before : Phase) : Part :=
  p.setActive (p.ntc.active.filter (fun x => !endMet p.ntc.store e before x))

/-! ### Journey events (R91) -/

/-- R91 step 1: the part with the event taken and copied into the reference. -/
def Part.noticeReferred (p : Part) (e : JourneyEvent) (rest : List JourneyEvent) : Part :=
  { p with ntc := { p.ntc with journeys := rest, refPhase := e.phase, refView := e.view } }

/-- R91: the event at the front is worked against the phase before it. -/
theorem Part.noticeJourney_cons {p : Part} {e : JourneyEvent} {rest : List JourneyEvent}
    (h : p.ntc.journeys = e :: rest) : p.noticeJourney = (p.noticeReferred e rest).workJourney e p.ntc.refPhase := by
  simp only [Part.noticeJourney, h]
  rfl

/-- R91 step 2: UNPLACED and LOST empty the list and drop the plan. -/
theorem Part.workJourney_placeless {p : Part} {e : JourneyEvent} (h : e.phase = .unplaced ∨ e.phase = .lost)
    (before : Phase) : p.workJourney e before = ((p.setActive []).dropPlan).reselect := if_pos h

/-- R91 steps 3 to 6 in the other states. -/
theorem Part.workJourney_placed {p : Part} {e : JourneyEvent} (h : ¬(e.phase = .unplaced ∨ e.phase = .lost))
    (before : Phase) : p.workJourney e before
      = (((p.endNotices e before).planStep e before).activateEach (triggeredBy p.ntc.store e)).reselect := by
  have hstore : ((p.endNotices e before).planStep e before).ntc.store = p.ntc.store := Part.planStep_store _ _ _
  rw [← hstore]
  exact if_neg h

/-- A leg state is neither UNPLACED nor LOST. -/
theorem Phase.placed_of_runLeg {x : Phase} {k : Nat} (h : x.runLeg = some k) : ¬(x = .unplaced ∨ x = .lost) := by
  rintro (rfl | rfl) <;> cases h

/-- Settles O33, by the steps of R91: the plan is dropped off the legs, kept on the same leg, and built on a new one. -/
theorem noticeJourneyEventInOrder : Obligations.NoticeJourneyEventInOrder := by
  intro s e rest hjourney before others ntc ended kept unplanned triggered
  have hended : (s.part.noticeReferred e rest).endNotices e before = { s.part with ntc := kept } := by
    have hsame : endMet ntc.store e before = ended := funext (endMet_eq ntc.store e before)
    show Part.setActive _ (ntc.active.filter (fun x => !endMet ntc.store e before x)) = _
    rw [hsame]
    rfl
  have worked {q : Part} (hplaced : ¬(e.phase = .unplaced ∨ e.phase = .lost))
      (hplan : Part.planStep { s.part with ntc := kept } e before = q) :
      exec .noticeJourneyEvent s = .next { s with part := (q.activateEach triggered).reselect } := by
    refine exec_next (·.noticeJourney) rfl ?_
    rw [Part.noticeJourney_cons hjourney, Part.workJourney_placed hplaced, hended, hplan]
    rfl
  refine ⟨fun hnowhere => ?_, fun hstopped => ?_, fun k hleg hbefore hplace hremap => ?_, fun k hleg hbuilds => ?_⟩
  · refine exec_next (·.noticeJourney) rfl ?_
    rw [Part.noticeJourney_cons hjourney, Part.workJourney_placeless hnowhere, Part.dropPlan_eq]
    rfl
  · have hoff : e.phase.runLeg = none ∧ ¬(e.phase = .unplaced ∨ e.phase = .lost) := by
      rcases hstopped with h | ⟨k, h⟩ <;> simp [h, Phase.runLeg]
    exact worked hoff.2 ((Part.planStep_drops hoff.1 before).trans (Part.dropPlan_eq _))
  · exact worked (Phase.placed_of_runLeg hleg) (Part.planStep_stays hleg hbefore hplace hremap)
  · exact worked (Phase.placed_of_runLeg hleg) (Part.planStep_builds hleg hbuilds)

end Sys2Proof.Machine
end

section
/-! PROOF. The distance plan in detail (R92), the marks that arming leaves (R15), a mark's effect (R93), a new notice
store (R88), triggers and stop filters (R89, R90); O34. -/

namespace Sys2Proof.Machine

/-! ### A stable sort by any comparison -/

/-- Insertion by descending rank: after the last leading element whose rank is no less than the new one's. -/
theorem insertBy_below {α : Type} {before : α → α → Bool} {rank : α → Nat} {x : α} {r : Nat}
    (h : ∀ y, before x y = decide (rank y < r)) (xs : List α) : insertBy before x xs
      = xs.takeWhile (fun y => decide (r ≤ rank y)) ++ x :: xs.dropWhile (fun y => decide (r ≤ rank y)) := by
  induction xs with
  | nil => rfl
  | cons y ys ih =>
    unfold insertBy
    by_cases hy : rank y < r
    · simp [h, hy]
    · simp [h, hy, Nat.not_lt.mp hy, ih]

/-- Of a list in descending order, what follows those of rank r or more is below r. -/
theorem rank_lt_of_mem_dropWhile {α : Type} {rank : α → Nat} {r : Nat} {xs : List α}
    (h : xs.Pairwise (fun a b => rank b ≤ rank a)) {y : α} (hy : y ∈ xs.dropWhile (fun a => decide (r ≤ rank a))) :
    rank y < r := by
  induction xs with
  | nil => cases hy
  | cons a as ih =>
    obtain ⟨ha, has⟩ := List.pairwise_cons.mp h
    by_cases hr : r ≤ rank a
    · exact ih has (by simpa [hr] using hy)
    · rw [List.dropWhile_cons_of_neg (by simpa using hr)] at hy
      rcases List.mem_cons.mp hy with rfl | hy
      · exact Nat.not_le.mp hr
      · exact (ha y hy).trans_lt (Nat.not_le.mp hr)

/-- Sorting by descending rank is ordered by it. -/
theorem sortBy_descending {α : Type} (rank : α → Nat) (xs : List α) :
    (sortBy (fun a b => decide (rank b < rank a)) xs).Pairwise (fun a b => rank b ≤ rank a) :=
  sortBy_pairwise (fun a b => rank b ≤ rank a) (fun _ _ _ hxy hyz => hyz.trans hxy)
    (fun _ _ h => (of_decide_eq_true h).le) (fun _ _ h => Nat.not_lt.mp (of_decide_eq_false h)) xs

/-- Insertion by descending rank puts an element after those of its own rank. -/
theorem insertBy_descending_filter {α : Type} (rank : α → Nat) (n : Nat) (x : α) (xs : List α)
    (h : xs.Pairwise (fun a b => rank b ≤ rank a)) :
    (insertBy (fun a b => decide (rank b < rank a)) x xs).filter (fun a => decide (rank a = n))
      = xs.filter (fun a => decide (rank a = n)) ++ (if rank x = n then [x] else []) := by
  have hsplit := congrArg (List.filter (fun a => decide (rank a = n)))
    (List.takeWhile_append_dropWhile (p := fun a => decide (rank x ≤ rank a)) (l := xs))
  rw [insertBy_below (rank := rank) (r := rank x) (fun _ => rfl), ← hsplit, List.filter_append, List.filter_append,
    List.filter_cons]
  by_cases hx : rank x = n
  · have hnone : (xs.dropWhile (fun a => decide (rank x ≤ rank a))).filter (fun a => decide (rank a = n)) = [] := by
      refine List.filter_eq_nil_iff.mpr fun a ha => ?_
      have hlt := rank_lt_of_mem_dropWhile h ha
      simp
      omega
    rw [hnone, if_pos (decide_eq_true hx), if_pos hx, List.append_nil]
  · simp [hx]

/-- Sorting by descending rank keeps the order of the elements of each rank. -/
theorem sortBy_descending_stable {α : Type} (rank : α → Nat) (n : Nat) (xs : List α) :
    (sortBy (fun a b => decide (rank b < rank a)) xs).filter (fun a => decide (rank a = n))
      = xs.filter (fun a => decide (rank a = n)) := by
  induction xs using List.reverseRecOn with
  | nil => rfl
  | append_singleton xs x ih =>
    have hsort : sortBy (fun a b => decide (rank b < rank a)) (xs ++ [x])
        = insertBy (fun a b => decide (rank b < rank a)) x (sortBy (fun a b => decide (rank b < rank a)) xs) :=
      List.foldl_concat ..
    rw [hsort, insertBy_descending_filter rank n x _ (sortBy_descending rank xs), ih, List.filter_append,
      List.filter_singleton]
    simp

/-! ### The triggers that become ARMED (R92 step 6) -/

section
variable {t : PendingTrigger} (ts : List PendingTrigger)

/-- The first WAITING trigger becomes ARMED. -/
theorem armFirst_waiting (h : t.status = .waiting) (n : Nat) :
    armFirst (n + 1) (t :: ts) = { t with status := .armed } :: armFirst n ts := by
  simp only [armFirst, h]

/-- Any other trigger stays as it is. -/
theorem armFirst_other (h : t.status ≠ .waiting) (n : Nat) : armFirst n (t :: ts) = t :: armFirst n ts := by
  cases n with
  | zero => simp only [armFirst]
  | succ n => cases hs : t.status with
    | waiting => exact absurd hs h
    | armed => simp only [armFirst, hs]
    | fired => simp only [armFirst, hs]

theorem armFirst_zero : armFirst 0 ts = ts := by
  cases ts <;> rfl

theorem firstWaiting_waiting (h : t.status = .waiting) (n : Nat) :
    firstWaiting (n + 1) (t :: ts) = t :: firstWaiting n ts := by
  simp [firstWaiting, h]

theorem firstWaiting_other (h : t.status ≠ .waiting) (n : Nat) : firstWaiting n (t :: ts) = firstWaiting n ts := by
  simp [firstWaiting, h]

theorem firstWaiting_zero : firstWaiting 0 ts = [] := List.take_zero

end

/-- Arming keeps the triggers' ids, in plan order. -/
theorem armFirst_ids (n : Nat) (ts : List PendingTrigger) : (armFirst n ts).map (·.id) = ts.map (·.id) := by
  induction ts generalizing n with
  | nil => cases n <;> rfl
  | cons t ts ih =>
    by_cases h : t.status = .waiting
    · cases n with
      | zero => rw [armFirst_zero]
      | succ n => rw [armFirst_waiting ts h, List.map_cons, List.map_cons, ih]
    · rw [armFirst_other ts h, List.map_cons, List.map_cons, ih]

/-- Arming a plan in which nothing is ARMED makes its first WAITING triggers so. -/
theorem armFirst_armed (n : Nat) {ts : List PendingTrigger} (h : ∀ t ∈ ts, t.status ≠ .armed) :
    ((armFirst n ts).filter (fun t => decide (t.status = .armed))).map (·.id) = (firstWaiting n ts).map (·.id) := by
  induction ts generalizing n with
  | nil => cases n <;> rfl
  | cons t ts ih =>
    obtain ⟨ht, hts⟩ := List.forall_mem_cons.mp h
    by_cases hw : t.status = .waiting
    · cases n with
      | zero =>
        have hnone : (t :: ts).filter (fun t => decide (t.status = .armed)) = [] :=
          List.filter_eq_nil_iff.mpr fun u hu => by simpa using h u hu
        rw [armFirst_zero, hnone, firstWaiting_zero]
      | succ n =>
        rw [armFirst_waiting ts hw, firstWaiting_waiting ts hw, List.filter_cons_of_pos rfl, List.map_cons,
          List.map_cons, ih n hts]
    · rw [armFirst_other ts hw, firstWaiting_other ts hw, List.filter_cons_of_neg (by simpa using ht), ih n hts]

/-- Arming at each place: a WAITING trigger with fewer than n WAITING ones before it becomes ARMED. -/
theorem armFirst_getElem? (n : Nat) {ts : List PendingTrigger} {i : Nat} {t : PendingTrigger} (h : ts[i]? = some t) :
    (armFirst n ts)[i]? = some
      (if t.status = .waiting ∧ ((ts.take i).filter (fun u => decide (u.status = .waiting))).length < n
       then { t with status := .armed } else t) := by
  induction ts generalizing n i with
  | nil => cases h
  | cons u us ih =>
    by_cases hu : u.status = .waiting
    · cases n with
      | zero => rw [armFirst_zero, h, if_neg (fun hlt => Nat.not_lt_zero _ hlt.2)]
      | succ n =>
        rw [armFirst_waiting us hu]
        cases i with
        | zero =>
          obtain rfl : u = t := Option.some.inj h
          rw [if_pos ⟨hu, Nat.succ_pos n⟩]
          rfl
        | succ i => simpa [hu] using ih n (i := i) h
    · rw [armFirst_other us hu]
      cases i with
      | zero =>
        obtain rfl : u = t := Option.some.inj h
        rw [if_neg (fun hw => hu hw.1)]
        rfl
      | succ i => simpa [hu] using ih n (i := i) h

/-- R92 step 5: no trigger of a fresh plan is ARMED. -/
theorem planFor_unarmed (store : List NoticeDef) (view : List ServedStop) (k : Nat) (fired : List Nat) :
    ∀ t ∈ planFor store view k fired, t.status ≠ .armed := by
  intro t ht
  rw [planFor, mem_sortBy] at ht
  obtain ⟨d, -, rfl⟩ := List.mem_map.mp ht
  dsimp only
  split <;> decide

/-! ### What arming leaves at the odometer (R15) -/

/-- R15: the part with events to come sent to the scheduler and marks entered in the Mark Set. -/
def Part.armedBy (p : Part) (events : List NoticeEvent) (marks : List Mark) : Part :=
  { p with ntc := { p.ntc with inbox := p.ntc.inbox ++ events }, odo := { p.odo with marks := p.odo.marks ++ marks } }

theorem Part.armedBy_nil (p : Part) : p.armedBy [] [] = p := by
  simp only [Part.armedBy, List.append_nil]

theorem Part.armedBy_armedBy (p : Part) (events later : List NoticeEvent) (marks further : List Mark) :
    (p.armedBy events marks).armedBy later further = p.armedBy (events ++ later) (marks ++ further) := by
  simp only [Part.armedBy, List.append_assoc]

/-- R15: a notice's mark at or below Leg Distance fires at once. -/
theorem Part.armMark_near {p : Part} {mm : Nat} (h : mm ≤ p.odo.legDistance) (id : Nat) (gen : Half16) :
    p.armMark (.notice id gen) mm = p.armedBy [.mark id gen] [] := by
  simp only [Part.armMark, if_pos h, Part.fireMark, Part.armedBy, List.append_nil]

/-- R15: one further on enters the Mark Set, where the scheduler's share has a place. -/
theorem Part.armMark_far {p : Part} {mm : Nat} (h : p.odo.legDistance < mm)
    (hroom : (marksOf p.odo.marks .notices).length < 6) (id : Nat) (gen : Half16) :
    p.armMark (.notice id gen) mm = p.armedBy [] [{ tag := .notice id gen, distance := mm }] := by
  refine ((if_neg (Nat.not_le.mpr h)).trans (if_pos hroom)).trans ?_
  simp only [Part.armedBy, List.append_nil]

/-- A notice's mark is one of the scheduler's. -/
theorem marksOf_append_notice (ms : List Mark) (id : Nat) (gen : Half16) (mm : Nat) :
    marksOf (ms ++ [{ tag := .notice id gen, distance := mm }]) .notices
      = marksOf ms .notices ++ [{ tag := .notice id gen, distance := mm }] := List.filter_append ..

/-- R92 step 6: the event of a trigger that fires as it is armed. -/
def PendingTrigger.event (gen : Half16) (t : PendingTrigger) : NoticeEvent := .mark t.id gen

/-- R92 step 6: the mark of a trigger. -/
def PendingTrigger.mark (gen : Half16) (t : PendingTrigger) : Mark :=
  { tag := .notice t.id gen, distance := t.distance }

/-- R92 step 6: the triggers at or below Leg Distance fire in order, the others enter the Mark Set in order. -/
theorem Part.armEach_eq (arms : List PendingTrigger) (p : Part)
    (hroom : (marksOf p.odo.marks .notices).length
      + (arms.filter (fun t => decide (p.odo.legDistance < t.distance))).length ≤ 6) :
    arms.foldl (fun q t => q.armMark (.notice t.id q.ntc.planGen) t.distance) p
      = p.armedBy
          ((arms.filter (fun t => decide (t.distance ≤ p.odo.legDistance))).map (PendingTrigger.event p.ntc.planGen))
          ((arms.filter (fun t => decide (p.odo.legDistance < t.distance))).map
            (PendingTrigger.mark p.ntc.planGen)) := by
  induction arms generalizing p with
  | nil => exact (Part.armedBy_nil p).symm
  | cons t arms ih =>
    rw [List.foldl_cons]
    by_cases ht : t.distance ≤ p.odo.legDistance
    · have hnear : (t :: arms).filter (fun t => decide (t.distance ≤ p.odo.legDistance))
          = t :: arms.filter (fun t => decide (t.distance ≤ p.odo.legDistance)) :=
        List.filter_cons_of_pos (decide_eq_true ht)
      have hfar : (t :: arms).filter (fun t => decide (p.odo.legDistance < t.distance))
          = arms.filter (fun t => decide (p.odo.legDistance < t.distance)) :=
        List.filter_cons_of_neg (by simpa using ht)
      rw [hfar] at hroom ⊢
      rw [hnear, Part.armMark_near ht, ih _ (by simpa [Part.armedBy] using hroom), Part.armedBy_armedBy]
      rfl
    · have hnear : (t :: arms).filter (fun t => decide (t.distance ≤ p.odo.legDistance))
          = arms.filter (fun t => decide (t.distance ≤ p.odo.legDistance)) :=
        List.filter_cons_of_neg (by simpa using ht)
      have hfar : (t :: arms).filter (fun t => decide (p.odo.legDistance < t.distance))
          = t :: arms.filter (fun t => decide (p.odo.legDistance < t.distance)) :=
        List.filter_cons_of_pos (by simpa using ht)
      rw [hfar, List.length_cons] at hroom
      rw [hnear, hfar, Part.armMark_far (Nat.not_le.mp ht) (by omega), ih _ ?_, Part.armedBy_armedBy]
      · rfl
      · show (marksOf (p.odo.marks ++ [_]) .notices).length + _ ≤ 6
        rw [marksOf_append_notice, List.length_append, List.length_singleton]
        exact (Nat.add_right_comm _ _ _).trans_le hroom

/-! ### A mark (R93) -/

/-- R93: the mark at the front is taken and judged. -/
theorem Part.takeNoticeMark_cons {p : Part} {id : Nat} {gen : Half16} {rest : List NoticeEvent}
    (h : p.ntc.inbox = .mark id gen :: rest) :
    p.takeNoticeMark = Part.judgeNoticeMark { p with ntc := { p.ntc with inbox := rest } } id gen := by
  simp only [Part.takeNoticeMark, h]

/-- R93: a mark with no plan present, or of another generation, is discarded. -/
theorem Part.judgeNoticeMark_stale {p : Part} {gen : Half16} (h : p.ntc.plan = none ∨ gen ≠ p.ntc.planGen) (id : Nat) :
    p.judgeNoticeMark id gen = p := by
  unfold Part.judgeNoticeMark
  split
  · rfl
  · next plan hplan => exact if_neg (h.resolve_left (by simp [hplan]))

/-- R93: a mark of the plan's generation fires, and the next WAITING trigger is armed. -/
theorem Part.judgeNoticeMark_fires {p : Part} {plan : List PendingTrigger} (h : p.ntc.plan = some plan) (id : Nat) :
    p.judgeNoticeMark id p.ntc.planGen
      = (((p.fireTrigger id).activateId id).armTriggers 1 (markFired id plan)).reselect := by
  simp only [Part.judgeNoticeMark, h, if_true]

/-- R92: the ids that have fired, each once. -/
theorem noteFired_eq (id : Nat) (fired : List Nat) :
    noteFired id fired = if id ∈ fired then fired else fired ++ [id] := by
  simp [noteFired]

theorem Part.activateId_unknown {p : Part} {id : Nat} (h : noticeOf p.ntc.store id = none) : p.activateId id = p := by
  simp only [Part.activateId, h]

theorem Part.activateId_known {p : Part} {id : Nat} {d : NoticeDef} (h : noticeOf p.ntc.store id = some d) :
    p.activateId id = p.activate d := by
  simp only [Part.activateId, h]

/-! ### A new notice store (R88) -/

/-- R88 steps 3 and 4: the entries whose id the store holds, by descending priority. -/
theorem restoredEntries_eq (store : List NoticeDef) (active : List NoticeEntry) : restoredEntries store active
    = sortBy (fun x y => decide (entryPriority store y < entryPriority store x))
        (active.filter (fun x => store.any (fun d => d.id == x.id))) := by
  have hheld (x : NoticeEntry) : (noticeOf store x.id).isSome = store.any (fun d => d.id == x.id) := List.isSome_find?
  simp only [restoredEntries, hheld]

/-- R88 step 5: with no plan nothing is rebuilt. -/
theorem Part.rebuildPlan_absent {p : Part} (h : p.ntc.plan = none) : p.rebuildPlan = p := by
  simp only [Part.rebuildPlan, h]

/-- R88 step 5: a plan on a leg is rebuilt with what has fired on it. -/
theorem Part.rebuildPlan_present {p : Part} {k : Nat} (h : p.ntc.plan ≠ none) (hk : p.ntc.refPhase.runLeg = some k) :
    p.rebuildPlan = p.buildPlan k p.ntc.legFired := by
  obtain ⟨plan, hplan⟩ := Option.ne_none_iff_exists'.mp h
  simp only [Part.rebuildPlan, hplan, hk]

/-! ### Triggers and stop filters (R89, R90) -/

/-- R89: APPROACH, HALT and DEPART judge the stop ahead. -/
theorem judgedStop_ahead {e : JourneyEvent} (h : e.cause = .approach ∨ e.cause = .halt ∨ e.cause = .depart) :
    judgedStop e = e.phase.leg.map (· + 1) := by
  rcases h with h | h | h <;> simp only [judgedStop, h]

/-- R89: ARRIVE and DOORS judge the stop of AT_STOP. -/
theorem judgedStop_here {e : JourneyEvent} (h : e.cause = .arrive ∨ e.cause = .doors) : judgedStop e = e.phase.leg := by
  rcases h with h | h <;> simp only [judgedStop, h]

/-- R89: PASS judges the stop that the event names. -/
theorem judgedStop_passed {e : JourneyEvent} {code : Nat} (h : e.cause = .pass) (hcode : e.code = some code) :
    judgedStop e = indexOfCode e.view code := by
  simp only [judgedStop, h, hcode, Option.bind_some]

/-- R90: with no judged stop ALL alone passes. -/
theorem filterPasses_unjudged (d : NoticeDef) (view : List ServedStop) :
    filterPasses d view none = decide (d.filter = .all) := by
  cases h : d.filter <;> simp [filterPasses, h]

/-- R90: each filter on the judged stop. -/
theorem filterPasses_judged {view : List ServedStop} {j : Nat} {q : ServedStop} (hq : view[j]? = some q)
    (d : NoticeDef) : filterPasses d view (some j) = match d.filter with
      | .all => true
      | .divideAhead => q.divide
      | .joinAhead => q.join
      | .terminusAhead => decide (j + 1 = view.length)
      | .code => decide (q.code = d.filterCode) := by
  cases h : d.filter <;> simp [filterPasses, h, hq, beq_eq_decide]

/-- Settles O34: the plan is a stable sort, arming goes by the first WAITING triggers, and each event of R93 and R88
by its case. -/
theorem distancePlanAndItsMarks : Obligations.DistancePlanAndItsMarks := by
  refine ⟨fun store view k fired => ?_, fun p k fired => ?_, fun p k fired => rfl, fun p n plan => ?_,
    fun s id gen rest hinbox => ?_, fun p store => ?_, ⟨⟨rfl, rfl, rfl, rfl, rfl, rfl, by decide⟩, fun e => ?_⟩,
    fun d view judged => ?_⟩
  · exact ⟨sortBy_perm _ _, sortBy_sorted PendingTrigger.distance _,
      fun mm => sortBy_stable PendingTrigger.distance mm _⟩
  · have hbuilt := Part.buildPlan_ntc p k fired
    exact ⟨_, congrArg (·.plan) hbuilt, congrArg (·.planGen) hbuilt, armFirst_ids _ _,
      armFirst_armed 6 (planFor_unarmed _ _ _ _)⟩
  · intro arms far near gen own hroom
    exact ⟨armFirst n plan, Part.armEach_eq _ _ hroom,
      by simpa using congrArg List.length (armFirst_ids n plan), fun i t => armFirst_getElem? n⟩
  · intro taken
    have judged {q : Part} (h : taken.judgeNoticeMark id gen = q) : exec .noticeMark s = .next { s with part := q } :=
      exec_next (·.takeNoticeMark) rfl ((Part.takeNoticeMark_cons hinbox).trans h)
    refine ⟨fun hstale => judged (Part.judgeNoticeMark_stale (p := taken) hstale id), ?_⟩
    rintro plan hplan rfl fired before noted
    have hnoted : taken.fireTrigger id = noted := by
      rw [Part.fireTrigger, noteFired_eq]
    have fires {q : Part} (h : noted.activateId id = q) :
        exec .noticeMark s = .next { s with part := (q.armTriggers 1 fired).reselect } := by
      refine judged ((Part.judgeNoticeMark_fires (p := taken) hplan id).trans ?_)
      rw [hnoted, h]
      rfl
    exact ⟨fun hunknown => fires (Part.activateId_unknown (p := noted) hunknown),
      fun d hknown => fires (Part.activateId_known (p := noted) hknown)⟩
  · intro kept prio
    have hrestored : restoredEntries store p.ntc.active = sortBy (fun x y => decide (prio y < prio x)) kept :=
      restoredEntries_eq store p.ntc.active
    refine ⟨restoredEntries store p.ntc.active, ?_, ?_, fun n => ?_, fun hplan => ?_, fun k hplan hk => ?_⟩
    · rw [hrestored]; exact sortBy_perm _ _
    · rw [hrestored]; exact sortBy_descending prio _
    · rw [hrestored]; exact sortBy_descending_stable prio n _
    · exact congrArg Part.reselect (Part.rebuildPlan_absent hplan)
    · exact congrArg Part.reselect (Part.rebuildPlan_present hplan hk)
  · exact ⟨judgedStop_ahead, judgedStop_here, fun code hpass hcode => judgedStop_passed hpass hcode⟩
  · refine ⟨fun hall => ?_, fun hfilter hnone => ?_, fun j q hj hq => ?_⟩
    · simp only [filterPasses, hall]
    · rw [hnone, filterPasses_unjudged]
      exact decide_eq_false hfilter
    · rw [hj, filterPasses_judged hq]
      refine ⟨fun h => ?_, fun h => ?_, fun h => ?_, fun h => ?_⟩ <;> rw [h]

end Sys2Proof.Machine
end

section
/-! PROOF. The active notice list (R95): activation (R96, R101), the countdown at a sweep boundary (R97, R104), the
selections (R99) and the profile's default pages (R85); O35. -/

namespace Sys2Proof.Machine

/-! ### Activation (R96, R101) -/

/-- R101: the chime requests of a notice that comes up: one of its tones, or none. -/
def NoticeDef.chimes (d : NoticeDef) : List Nat := if d.tones = 0 then [] else [d.tones]

/-- The part with another active list, and chime requests sent to the player. -/
def Part.withNotices (p : Part) (active : List NoticeEntry) (chimes : List Nat) : Part := { p with
  ntc := { p.ntc with active := active }
  swp := { p.swp with chime := { p.swp.chime with inbox := p.swp.chime.inbox ++ chimes } } }

/-- Changing the list alone requests nothing. -/
theorem Part.setActive_eq (p : Part) (active : List NoticeEntry) : p.setActive active = p.withNotices active [] := by
  simp only [Part.withNotices, Part.setActive, List.append_nil]

/-- R101: a notice comes up with its requests. -/
theorem Part.comesUp_eq (p : Part) (d : NoticeDef) : p.comesUp d = p.withNotices p.ntc.active d.chimes := by
  unfold Part.comesUp NoticeDef.chimes
  split
  · exact p.setActive_eq p.ntc.active
  · rfl

/-- R101: the entry of a notice that comes up stands in the changed list. -/
theorem Part.comesUp_setActive (p : Part) (active : List NoticeEntry) (d : NoticeDef) :
    (p.setActive active).comesUp d = p.withNotices active d.chimes := Part.comesUp_eq _ _

/-- R96: the place of a new entry. -/
theorem insertEntry_eq (store : List NoticeDef) (d : NoticeDef) (active : List NoticeEntry) :
    insertEntry store d active = active.takeWhile (fun x => decide (d.priority ≤ entryPriority store x))
      ++ { id := d.id, phase := .showing, countdown := d.duration }
        :: active.dropWhile (fun x => decide (d.priority ≤ entryPriority store x)) :=
  insertBy_below (fun _ => rfl) active

/-- R96: a re-trigger keeps the entry's place, and comes up where the entry was RESTING. -/
theorem Part.activate_held {p : Part} {d : NoticeDef} {e : NoticeEntry}
    (h : p.ntc.active.find? (fun x => x.id == d.id) = some e) : p.activate d
      = p.withNotices (retrigger d p.ntc.active) (if e.phase = .resting then d.chimes else []) := by
  simp only [Part.activate, h]
  split
  · exact Part.comesUp_setActive _ _ _
  · exact Part.setActive_eq _ _

section
variable {p : Part} {d : NoticeDef} (hnew : p.ntc.active.find? (fun x => x.id == d.id) = none)
include hnew

/-- R96: below eight entries a new one is inserted. -/
theorem Part.activate_inserts (hroom : p.ntc.active.length < 8) :
    p.activate d = p.withNotices (insertEntry p.ntc.store d p.ntc.active) d.chimes := by
  simp only [Part.activate, hnew, activeLimit, if_pos hroom, Part.comesUp_setActive]

/-- R96: at eight entries the last one is judged. -/
theorem Part.activate_full (hfull : 8 ≤ p.ntc.active.length) : p.activate d = p.activateFull d := by
  simp only [Part.activate, hnew, activeLimit, Nat.not_lt.mpr hfull, if_false]

end

section
variable {p : Part} {d : NoticeDef} {last : NoticeEntry} (hlast : p.ntc.active.getLast? = some last)
include hlast

/-- R96: a greater priority displaces the last entry. -/
theorem Part.activateFull_displaces (h : entryPriority p.ntc.store last < d.priority) : p.activateFull d
    = (p.withNotices (insertEntry p.ntc.store d p.ntc.active.dropLast) d.chimes).noteDropped last.id := by
  simp only [Part.activateFull, hlast, if_pos h, Part.comesUp_eq]
  rfl

/-- R96: any other new notice is dropped. -/
theorem Part.activateFull_drops (h : d.priority ≤ entryPriority p.ntc.store last) :
    p.activateFull d = p.noteDropped d.id := by
  simp only [Part.activateFull, hlast, if_neg (Nat.not_lt.mpr h)]

end

/-! ### The countdown (R97, R104) -/

/-- R97: what an entry becomes at a sweep boundary. -/
def entryAfter (store : List NoticeDef) (x : NoticeEntry) : List NoticeEntry :=
  match noticeOf store x.id with
  | none => [x]
  | some d =>
    if 1 < x.countdown then [{ x with countdown := x.countdown - 1 }]
    else match x.phase with
      | .showing => if d.gap = 0 then [] else [{ x with phase := .resting, countdown := d.gap }]
      | .resting => [{ x with phase := .showing, countdown := d.duration }]

/-- R97, R101: the chime requests of an entry at a sweep boundary: its tones, where it comes up from RESTING. -/
def entryChimes (store : List NoticeDef) (x : NoticeEntry) : List Nat :=
  match noticeOf store x.id with
  | none => []
  | some d => if x.countdown ≤ 1 ∧ x.phase = .resting ∧ d.tones ≠ 0 then [d.tones] else []

/-- R97: a countdown of a known notice gives the entry after it. -/
theorem countEntry_entry {store : List NoticeDef} {x : NoticeEntry} {d : NoticeDef} (h : noticeOf store x.id = some d) :
    (countEntry d x).1.toList = entryAfter store x := by
  simp only [entryAfter, h, countEntry]
  split
  · rfl
  · cases x.phase with
    | showing => dsimp only; split <;> rfl
    | resting => rfl

/-- R97: the entry comes up where its RESTING phase has run out. -/
theorem countEntry_comesUp (d : NoticeDef) (x : NoticeEntry) :
    (countEntry d x).2 = decide (x.countdown ≤ 1 ∧ x.phase = .resting) := by
  unfold countEntry
  split
  · next h => simp [Nat.not_le.mpr h]
  · next h => cases hx : x.phase with
    | showing => dsimp only; split <;> simp
    | resting => simp [Nat.not_lt.mp h]

/-- R101: the part after an entry's countdown. -/
theorem Part.comesUp_counted {store : List NoticeDef} {x : NoticeEntry} {d : NoticeDef}
    (h : noticeOf store x.id = some d) (p : Part) :
    (if (countEntry d x).2 then p.comesUp d else p) = p.withNotices p.ntc.active (entryChimes store x) := by
  simp only [countEntry_comesUp, entryChimes, h, decide_eq_true_eq]
  by_cases hx : x.countdown ≤ 1 ∧ x.phase = .resting
  · simp [hx, Part.comesUp_eq, NoticeDef.chimes]
  · have hquiet : ¬(x.countdown ≤ 1 ∧ x.phase = .resting ∧ d.tones ≠ 0) := fun hall => hx ⟨hall.1, hall.2.1⟩
    rw [if_neg hx, if_neg hquiet]
    exact p.setActive_eq p.ntc.active

/-- R97: the entries are counted, and their chimes requested, in list order. -/
theorem countEntries_eq (store : List NoticeDef) (xs : List NoticeEntry) (p : Part) :
    countEntries store xs p
      = (xs.flatMap (entryAfter store), p.withNotices p.ntc.active (xs.flatMap (entryChimes store))) := by
  induction xs generalizing p with
  | nil => exact congrArg (Prod.mk []) (p.setActive_eq p.ntc.active)
  | cons x xs ih =>
    cases h : noticeOf store x.id with
    | none => simp [countEntries, entryAfter, entryChimes, h, ih]
    | some d =>
      simp only [countEntries, h, Part.comesUp_counted h, ih, countEntry_entry h, List.flatMap_cons, Part.withNotices,
        List.append_assoc]

/-- R97: a sweep boundary changes the list and requests the chimes, then the selections are recomputed. -/
theorem Part.countDown_eq (p : Part) : p.countDown
    = (p.withNotices (p.ntc.active.flatMap (entryAfter p.ntc.store))
        (p.ntc.active.flatMap (entryChimes p.ntc.store))).reselect := by
  simp only [Part.countDown, countEntries_eq]
  rfl

/-- R97: the part with one boundary taken and counted. -/
def Part.boundaryCounted (p : Part) : Part :=
  Part.countDown { p with ntc := { p.ntc with boundaries := p.ntc.boundaries - 1 } }

/-- R104: a boundary taken leaves the load state and RUN. -/
theorem Part.boundaryCounted_keeps (p : Part) :
    p.boundaryCounted.ntc.load = p.ntc.load ∧ p.boundaryCounted.regs = p.regs := by
  rw [Part.boundaryCounted, Part.countDown_eq]
  exact ⟨rfl, rfl⟩

/-- R97, R104: a boundary is counted, then an owed load starts while RUN is 1. -/
theorem Part.noticeBoundary_eq {p : Part} (h : p.ntc.boundaries ≠ 0) : p.noticeBoundary
    = if p.ntc.load = .owed ∧ p.regs.run = true then p.boundaryCounted.startNoticeLoad else p.boundaryCounted := by
  obtain ⟨hload, hregs⟩ := p.boundaryCounted_keeps
  rw [← hload, ← hregs]
  exact if_neg h

/-! ### Selection (R99) -/

/-- R99: an entry shows on a group. -/
def NoticeEntry.showsOn (store : List NoticeDef) (g : NoticeGroup) (x : NoticeEntry) : Bool :=
  match noticeOf store x.id with
  | none => false
  | some d => decide (x.phase = .showing) && d.targets g

/-- R99: the page of an entry's notice. -/
def NoticeEntry.pageIn (store : List NoticeDef) (x : NoticeEntry) : Option Nat := (noticeOf store x.id).map (·.page)

/-- R99: the first entry that shows on the group is selected, with its page. -/
theorem selectionOf_eq (store : List NoticeDef) (active : List NoticeEntry) (g : NoticeGroup) (default : Option Nat) :
    selectionOf store active g default = match active.find? (NoticeEntry.showsOn store g) with
      | none => { id := none, page := default }
      | some x => { id := some x.id, page := x.pageIn store } := by
  induction active with
  | nil => rfl
  | cons x xs ih =>
    by_cases hx : x.showsOn store g = true
    · obtain ⟨d, hd⟩ : ∃ d, noticeOf store x.id = some d := by
        cases hd : noticeOf store x.id with
        | none => simp [NoticeEntry.showsOn, hd] at hx
        | some d => exact ⟨d, rfl⟩
      have hid : d.id = x.id := by simpa using List.find?_some hd
      have hshows : x.phase = .showing ∧ d.targets g = true := by simpa [NoticeEntry.showsOn, hd] using hx
      simp [selectionOf, selectedNotice, hx, hd, hid, hshows, NoticeEntry.pageIn]
    · have hskip : selectedNotice store (x :: xs) g = selectedNotice store xs g := by
        cases hd : noticeOf store x.id with
        | none => simp [selectedNotice, hd]
        | some d =>
          have hnot : ¬(x.phase = .showing ∧ d.targets g = true) := by simpa [NoticeEntry.showsOn, hd] using hx
          simp only [selectedNotice, List.findSome?_cons, hd, if_neg hnot]
      rw [List.find?_cons_of_neg hx, ← ih]
      simp only [selectionOf, hskip]

/-! ### The profile (R85) -/

/-- R85: a selection of DEFAULT takes the new page. -/
theorem Selection.withDefault_eq (s : Selection) (page : Nat) :
    s.withDefault page = if s.id = none then { s with page := some page } else s := by
  unfold Selection.withDefault
  cases s.id <;> rfl

/-- R85: the profile at the front is taken. -/
theorem Part.noticeProfile_cons {p : Part} {f : Profile} {rest : List Profile} (h : p.ntc.profiles = f :: rest) :
    p.noticeProfile = { p with ntc := { p.ntc with
      profiles := rest, defaultEnd := some f.endPage, defaultDoor := some f.doorPage
      selEnd := p.ntc.selEnd.withDefault f.endPage, selDoor := p.ntc.selDoor.withDefault f.doorPage } } := by
  simp only [Part.noticeProfile, h]

/-- Settles O35, by the cases of R96, the countdown of R97, and the first entry that shows on a group (R99). -/
theorem noticesAreActivatedCountedAndSelected : Obligations.NoticesAreActivatedCountedAndSelected := by
  refine ⟨fun p d => ?_, fun s hboundaries => ?_, fun p => ?_, fun s f rest hprofiles => ?_⟩
  · intro prio active entry tones inserted withList
    have hinserted (l : List NoticeEntry) : insertEntry p.ntc.store d l = inserted l := insertEntry_eq p.ntc.store d l
    refine ⟨fun e hheld => Part.activate_held hheld, fun hnew => ⟨fun hroom => ?_, fun hfull last hlast =>
      ⟨fun hgreater => ⟨_, rfl, ?_⟩, fun hless => ?_⟩⟩⟩
    · rw [Part.activate_inserts hnew hroom, hinserted]
      rfl
    · rw [Part.activate_full hnew hfull, Part.activateFull_displaces hlast hgreater, hinserted]
      rfl
    · exact (Part.activate_full hnew hfull).trans (Part.activateFull_drops hlast hless)
  · intro ntc after tones chime counted
    have hcounted : s.part.boundaryCounted = counted := Part.countDown_eq _
    refine ⟨fun hstays => exec_next (·.noticeBoundary) rfl ?_, fun howed hrun => exec_next (·.noticeBoundary) rfl ?_⟩
    · have hno : ¬(s.part.ntc.load = .owed ∧ s.part.regs.run = true) := fun ⟨howed, hrun⟩ =>
        hstays.elim (fun h => h howed) (fun h => Bool.false_ne_true (h.symm.trans hrun))
      rw [Part.noticeBoundary_eq hboundaries, if_neg hno, hcounted]
    · rw [Part.noticeBoundary_eq hboundaries, if_pos ⟨howed, hrun⟩, hcounted]
  · intro shows page chosen e d marks
    have hshows (g : NoticeGroup) : NoticeEntry.showsOn p.ntc.store g = shows g := by
      cases g <;> rfl
    have hchosen (g : NoticeGroup) (default : Option Nat) :
        selectionOf p.ntc.store p.ntc.active g default = chosen g default := by
      rw [selectionOf_eq, hshows]
      rfl
    simp only [Part.reselect, hchosen, List.append_assoc]
    rfl
  · intro default
    have hdefault (sel : Selection) (page : Nat) : sel.withDefault page = default sel page := sel.withDefault_eq page
    refine exec_next (·.noticeProfile) rfl ?_
    rw [Part.noticeProfile_cons hprofiles, hdefault, hdefault]

end Sys2Proof.Machine
end

section
/-! PROOF. The marks of a seat module, of a selection, of a panel that becomes ONLINE and of a sweep boundary (R74, R99,
R114 to R116); O39. -/

namespace Sys2Proof.Machine

/-- R114: the health of a panel that a mark may enter. -/
theorem Health.drawn_iff (h : Health) : h.drawn = true ↔ h = .online ∨ h = .failing := by
  cases h <;> simp [Health.drawn]

/-- R114: what a mark adds at the tail of its line's refresh list: the address, once, where the panel is configured and
ONLINE or FAILING, else nothing. -/
theorem Part.markPanel_appends (p : Part) (l : Line) (a : Nat) :
    p.markPanel l a = { p with cmp := p.cmp.setRefresh l (p.cmp.refresh l ++
      if a ∉ p.cmp.refresh l ∧ ((p.line l).health a = .online ∨ (p.line l).health a = .failing) ∧
        p.cmp.configured l a = true then [a] else []) } := by
  rw [Part.markPanel_eq]
  simp only [Health.drawn_iff]
  split
  · rfl
  · rw [List.append_nil, Composer.setRefresh_refresh]

/-- R74: the mark of a seat-label module taken. -/
theorem Part.composerModule_eq {p : Part} {a : Nat} {rest : List Nat} (h : p.cmp.moduleMarks = a :: rest) :
    p.composerModule = Part.markPanel { p with cmp := { p.cmp with moduleMarks := rest } } .seat a := by
  simp only [Part.composerModule, h]

/-- R115: a panel's change to ONLINE taken. -/
theorem Part.composerOnline_eq {p : Part} {l : Line} {a : Nat} {rest : List PanelEvent}
    (h : p.cmp.panelEvents = .online l a :: rest) :
    p.composerOnline = Part.markPanel { p with cmp := { p.cmp with panelEvents := rest } } l a := by
  simp only [Part.composerOnline, h]

/-- R99: a selection mark taken. -/
theorem Part.composerSelection_eq {p : Part} {g : NoticeGroup} {rest : List NoticeGroup}
    (h : p.cmp.selectionMarks = g :: rest) :
    p.composerSelection = Part.markWhere { p with cmp := { p.cmp with selectionMarks := rest } }
      (fun q => decide (q.line = g.line)) := by
  simp only [Part.composerSelection, h]

/-- R116: a sweep boundary taken; at sweep number 0 it names no panel. -/
theorem Part.composerBoundary_eq {p : Part} (h : p.cmp.boundaries ≠ 0) :
    p.composerBoundary = Part.markWhere { p with cmp := { p.cmp with boundaries := p.cmp.boundaries - 1 } }
      (fun q => q.moving && decide (p.swp.number ≠ 0)) := by
  unfold Part.composerBoundary
  rw [if_neg h]
  by_cases hn : p.swp.number = 0
  · rw [Part.markWhere_none _ fun q => by simp [hn]]
    exact if_pos hn
  · simp only [hn, if_false, ne_eq, not_false_eq_true, decide_true, Bool.and_true]

/-- R99: the panels of a notice group are those of its line. -/
theorem NoticeGroup.line_iff (g : NoticeGroup) (l : Line) :
    l = g.line ↔ (g = .endGroup ∧ l = .end_) ∨ (g = .doorGroup ∧ l = .door) := by
  cases g <;> simp [NoticeGroup.line]

/-- Settles O39: a mark of one panel by what it appends, a mark of several by the panels its test names. -/
theorem marksEnterRefreshListsOnce : Obligations.MarksEnterRefreshListsOnce := by
  refine ⟨fun s a rest h => ?_, fun s l a rest h => ?_, fun s g rest h => ?_, fun s h => ?_⟩
  · exact exec_next (·.composerModule) rfl ((Part.composerModule_eq h).trans (Part.markPanel_appends _ .seat a))
  · refine exec_next (·.composerOnline) rfl ((Part.composerOnline_eq h).trans ?_)
    rw [Part.markPanel_appends]
    cases l <;> rfl
  · refine ⟨{ s with part := s.part.composerSelection }, rfl, rfl, ?_⟩
    dsimp only
    rw [Part.composerSelection_eq h]
    exact ⟨Part.marksExactly_congr (Part.markWhere_marksExactly _ _) fun q => by
      rw [decide_eq_true_iff, NoticeGroup.line_iff], Part.markWhere_sameButRefresh _ _⟩
  · refine ⟨{ s with part := s.part.composerBoundary }, rfl, rfl, ?_⟩
    dsimp only
    rw [Part.composerBoundary_eq h]
    exact ⟨Part.marksExactly_congr (Part.markWhere_marksExactly _ _) fun q => by
      rw [Bool.and_eq_true, decide_eq_true_iff], Part.markWhere_sameButRefresh _ _⟩

end Sys2Proof.Machine
end

section
/-! PROOF. The completion of a composition (R113, R116, R120); O44. -/

namespace Sys2Proof.Machine

/-- R120: a composition is finished when its glyphs and areas are drawn and its page has no window left. -/
theorem Composition.finished_of_drawn {c : Composition} (hglyphs : c.glyphs = []) (hareas : c.areas = [])
    (hpage : ∀ g, c.page = some g → g.windows ≤ g.next) : c.finished = true := by
  have hopen : c.openPage = none := by
    unfold Composition.openPage
    split
    · rfl
    · next g hg => exact if_neg (Nat.not_lt.mpr (hpage g hg))
  simp [Composition.finished, hglyphs, hareas, hopen]

/-- R120 steps 1 and 2: the composition's own slot. -/
theorem completedSlots_own {c : Composition} {slots : List Slot} (h : c.slot < slots.length) :
    (completedSlots c slots)[c.slot]? = some { state := .waiting c.line c.address, image := c.image } := by
  rw [completedSlots, getElem?_changeAt, if_pos rfl]
  simp [freeSlots, h]

/-- R120 steps 1 and 2: another slot is FREE where the panel's image was WAITING in it, and stands otherwise. -/
theorem completedSlots_other {c : Composition} {slots : List Slot} {i : Nat} {x : Slot} (hi : i ≠ c.slot)
    (hx : slots[i]? = some x) : (completedSlots c slots)[i]?
      = some (if x.state = .waiting c.line c.address then Slot.freed else x) := by
  rw [completedSlots, getElem?_changeAt, if_neg hi]
  simp [freeSlots, hx]

/-- R178: the edition unit once a composition has dropped its pin. -/
def Edition.unpinned (e : Edition) (c : Composition) : Edition :=
  match c.pin with
  | none => e
  | some pin => { e with content := e.content.unpin pin.copy }

theorem Edition.unpinned_none (e : Edition) {c : Composition} (h : c.pin = none) : e.unpinned c = e := by
  simp only [Edition.unpinned, h]

theorem Edition.unpinned_some (e : Edition) {c : Composition} {pin : ContentPin} (h : c.pin = some pin) :
    e.unpinned c = { e with content := e.content.unpin pin.copy } := by
  simp only [Edition.unpinned, h]

/-- R120: what a finished composition leaves. -/
theorem Part.completeComposition_eq {p : Part} {c : Composition} (h : p.cmp.comp = some c) (hc : c.finished = true) :
    p.completeComposition = { p with
      ed := p.ed.unpinned c
      cmp := { p.cmp with
        comp := none, slots := completedSlots c p.cmp.slots, panels := p.cmp.panels.map (keepDrawn c) } } := by
  cases hpin : c.pin with
  | none => simp only [Part.completeComposition, h, hc, if_true, hpin, Edition.unpinned_none _ hpin]
  | some pin =>
    simp only [Part.completeComposition, h, hc, if_true, hpin, Edition.unpinned_some _ hpin]
    rfl

/-- Settles O44, by what a finished composition leaves and the slots one by one. -/
theorem compositionCompletes : Obligations.CompositionCompletes := by
  intro s c hcomp hglyphs hareas hpage hslot
  refine ⟨{ s with part := s.part.completeComposition }, rfl, rfl, ?_⟩
  dsimp only
  rw [Part.completeComposition_eq hcomp (Composition.finished_of_drawn hglyphs hareas hpage)]
  refine ⟨rfl, completedSlots_own hslot, fun i x hi hx => ⟨fun hw => ?_, fun hw => ?_⟩, rfl,
    fun hpin => s.part.ed.unpinned_none hpin, fun pin hpin => s.part.ed.unpinned_some hpin, rfl, rfl⟩
  · rw [completedSlots_other hi hx, if_pos hw]
  · rw [completedSlots_other hi hx, if_neg hw]

end Sys2Proof.Machine
end

section
/-! PROOF. The panels that go out (R122): what they lose, said once for a panel that goes OFFLINE and for those that a
profile removes; the profile's panels and their marks (R115); O40. -/

namespace Sys2Proof.Machine

/-! ### What the panels lose -/

/-- R122, R134: what dropping the composition in flight leaves. -/
theorem Part.dropComposition_eq {p : Part} {c : Composition} (h : p.cmp.comp = some c) :
    p.dropComposition = { p with
      ed := p.ed.unpinned c
      cmp := { p.cmp with
        comp := none, slots := changeAt (fun _ => Slot.freed) c.slot p.cmp.slots
        decoder := p.cmp.decoder.start } } := by
  cases hpin : c.pin with
  | none => simp only [Part.dropComposition, h, hpin, Edition.unpinned_none _ hpin]
  | some pin =>
    simp only [Part.dropComposition, h, hpin, Edition.unpinned_some _ hpin]
    rfl

/-- R122: a composition of a panel that is out is dropped. -/
theorem Part.dropCompositionIf_out {p : Part} {c : Composition} {test : Line → Nat → Bool} (h : p.cmp.comp = some c)
    (ht : test c.line c.address = true) : p.dropCompositionIf test = p.dropComposition := by
  simp only [Part.dropCompositionIf, h, ht, if_true]

/-- R122: any other composition stands. -/
theorem Part.dropCompositionIf_stays {p : Part} {test : Line → Nat → Bool}
    (h : ∀ c, p.cmp.comp = some c → ¬test c.line c.address = true) : p.dropCompositionIf test = p := by
  unfold Part.dropCompositionIf
  split
  · rfl
  · next c hc => exact if_neg (h c hc)

/-- R122: the composition in flight is of a panel that is out, and renders into this slot. -/
def Part.losesSlot (p : Part) (out : Line → Nat → Prop) (i : Nat) : Prop :=
  ∃ c, p.cmp.comp = some c ∧ out c.line c.address ∧ c.slot = i

/-- The slot is held for a panel that is out. -/
def SlotState.heldOut (x : SlotState) (out : Line → Nat → Prop) : Prop :=
  ∃ l a, x.panel = some (l, a) ∧ out l a

/-- The model's test of a slot, for a test that names the panels that are out. -/
theorem SlotState.heldFor_iff (x : SlotState) {test : Line → Nat → Bool} {out : Line → Nat → Prop}
    (h : ∀ l a, test l a = true ↔ out l a) : x.heldFor test = true ↔ x.heldOut out := by
  unfold SlotState.heldFor SlotState.heldOut
  cases hx : x.panel with
  | none => simp
  | some place =>
    obtain ⟨l, a⟩ := place
    simp [← h]

/-- A FREE slot is held for no panel. -/
theorem SlotState.not_heldOut_freed (out : Line → Nat → Prop) : ¬Slot.freed.state.heldOut out :=
  fun ⟨_, _, h, _⟩ => nomatch h

/-- R122, R134: `t` is `p` after the panels that `out` names have lost their composition and their slots; the refresh
lists, the configured panels and the events taken are left open. -/
structure Part.Releases (p t : Part) (out : Line → Nat → Prop) : Prop where
  dropped : ∀ c, p.cmp.comp = some c → out c.line c.address →
    t.cmp.comp = none ∧ t.cmp.decoder = p.cmp.decoder.start ∧ t.ed = p.ed.unpinned c
  spared : (∀ c, p.cmp.comp = some c → ¬out c.line c.address) →
    t.cmp.comp = p.cmp.comp ∧ t.cmp.decoder = p.cmp.decoder ∧ t.ed = p.ed
  length : t.cmp.slots.length = p.cmp.slots.length
  freed : ∀ (i : Nat) (x : Slot), p.cmp.slots[i]? = some x → x.state.heldOut out ∨ p.losesSlot out i →
    t.cmp.slots[i]? = some Slot.freed
  kept : ∀ (i : Nat) (x : Slot), p.cmp.slots[i]? = some x → ¬x.state.heldOut out → ¬p.losesSlot out i →
    t.cmp.slots[i]? = some x
  composer : { t.cmp with comp := p.cmp.comp, decoder := p.cmp.decoder, slots := p.cmp.slots
                          refreshSeat := p.cmp.refreshSeat, refreshEnd := p.cmp.refreshEnd
                          refreshDoor := p.cmp.refreshDoor, panels := p.cmp.panels
                          panelEvents := p.cmp.panelEvents, profiles := p.cmp.profiles } = p.cmp
  rest : { t with cmp := p.cmp, ed := p.ed } = p

section
variable {p t : Part} {test : Line → Nat → Bool} {out : Line → Nat → Prop}

/-- The slots that are released are those held for a panel that is out and that of the composition dropped. -/
theorem Part.releasePanels_slot (h : ∀ l a, test l a = true ↔ out l a) {i : Nat} {x : Slot}
    (hx : p.cmp.slots[i]? = some x) :
    (x.state.heldOut out ∨ p.losesSlot out i → (p.releasePanels test).cmp.slots[i]? = some Slot.freed) ∧
      (¬x.state.heldOut out → ¬p.losesSlot out i → (p.releasePanels test).cmp.slots[i]? = some x) := by
  have hreleased (slots : List Slot) (y : Slot) (hy : slots[i]? = some y) : (freeSlots (·.heldFor test) slots)[i]?
      = some (if y.state.heldFor test = true then Slot.freed else y) := by
    simp [freeSlots, hy]
  by_cases hloses : p.losesSlot out i
  · obtain ⟨c, hc, hout, hslot⟩ := hloses
    refine ⟨fun _ => ?_, fun _ hno => absurd ⟨c, hc, hout, hslot⟩ hno⟩
    have hfreed : (p.dropCompositionIf test).cmp.slots[i]? = some Slot.freed := by
      rw [Part.dropCompositionIf_out hc ((h _ _).mpr hout), Part.dropComposition_eq hc]
      dsimp only
      rw [getElem?_changeAt, if_pos hslot.symm, hx]
      rfl
    refine (hreleased _ _ hfreed).trans ?_
    rw [ite_self]
  · have hstays : (p.dropCompositionIf test).cmp.slots[i]? = some x := by
      by_cases hc : ∃ c, p.cmp.comp = some c ∧ test c.line c.address = true
      · obtain ⟨c, hc, ht⟩ := hc
        rw [Part.dropCompositionIf_out hc ht, Part.dropComposition_eq hc]
        dsimp only
        rw [getElem?_changeAt, if_neg fun hi => hloses ⟨c, hc, (h _ _).mp ht, hi.symm⟩, hx]
      · rw [Part.dropCompositionIf_stays fun c hc' ht => hc ⟨c, hc', ht⟩, hx]
    refine ⟨fun hheld => (hreleased _ _ hstays).trans ?_, fun hheld _ => (hreleased _ _ hstays).trans ?_⟩
    · rw [if_pos ((x.state.heldFor_iff h).mpr (hheld.resolve_right hloses))]
    · rw [if_neg fun ht => hheld ((x.state.heldFor_iff h).mp ht)]

/-- R122: what the composer and the rest of the part keep. -/
theorem Part.releasePanels_frame (p : Part) (test : Line → Nat → Bool) :
    { (p.releasePanels test).cmp with
        comp := p.cmp.comp, decoder := p.cmp.decoder, slots := p.cmp.slots, refreshSeat := p.cmp.refreshSeat
        refreshEnd := p.cmp.refreshEnd, refreshDoor := p.cmp.refreshDoor } = p.cmp ∧
      { p.releasePanels test with cmp := p.cmp, ed := p.ed } = p := by
  unfold Part.releasePanels
  by_cases hc : ∃ c, p.cmp.comp = some c ∧ test c.line c.address = true
  · obtain ⟨c, hc, ht⟩ := hc
    rw [Part.dropCompositionIf_out hc ht, Part.dropComposition_eq hc]
    exact ⟨rfl, rfl⟩
  · rw [Part.dropCompositionIf_stays fun c hc' ht => hc ⟨c, hc', ht⟩]
    exact ⟨rfl, rfl⟩

/-- The events and the profiles that wait are kept. -/
@[simp] theorem Part.releasePanels_waiting (p : Part) (test : Line → Nat → Bool) :
    (p.releasePanels test).cmp.panelEvents = p.cmp.panelEvents ∧
      (p.releasePanels test).cmp.profiles = p.cmp.profiles :=
  ⟨congrArg (·.panelEvents) (p.releasePanels_frame test).1,
    congrArg (·.profiles) (p.releasePanels_frame test).1⟩

/-- R122: what `releasePanels` releases. -/
theorem Part.releasePanels_releases (p : Part) (h : ∀ l a, test l a = true ↔ out l a) :
    p.Releases (p.releasePanels test) out := by
  have hdrop {c : Composition} (hc : p.cmp.comp = some c) (hout : out c.line c.address) :
      p.dropCompositionIf test = p.dropComposition := Part.dropCompositionIf_out hc ((h _ _).mpr hout)
  have hstay (hno : ∀ c, p.cmp.comp = some c → ¬out c.line c.address) : p.dropCompositionIf test = p :=
    Part.dropCompositionIf_stays fun c hc ht => hno c hc ((h _ _).mp ht)
  refine ⟨fun c hc hout => ?_, fun hno => ?_, (Part.releasePanels_cmp p test).1,
    fun i x hx => (Part.releasePanels_slot h hx).1, fun i x hx => (Part.releasePanels_slot h hx).2, ?_,
    (p.releasePanels_frame test).2⟩
  · unfold Part.releasePanels
    rw [hdrop hc hout, Part.dropComposition_eq hc]
    exact ⟨rfl, rfl, rfl⟩
  · unfold Part.releasePanels
    rw [hstay hno]
    exact ⟨rfl, rfl, rfl⟩
  · exact congrArg (fun c : Composer =>
      { c with panels := p.cmp.panels, panelEvents := p.cmp.panelEvents, profiles := p.cmp.profiles })
      (p.releasePanels_frame test).1

/-- What is released is the same where the event that takes the panels out still waits. -/
theorem Part.Releases.of_taken {es : List PanelEvent} {fs : List Profile}
    (h : Part.Releases { p with cmp := { p.cmp with panelEvents := es, profiles := fs } } t out) : p.Releases t out :=
  ⟨h.dropped, h.spared, h.length, h.freed, h.kept,
    congrArg (fun c : Composer => { c with panelEvents := p.cmp.panelEvents, profiles := p.cmp.profiles }) h.composer,
    congrArg (fun q : Part => { q with cmp := p.cmp }) h.rest⟩

/-- What is released stays so under changes of the configured panels and the refresh lists. -/
theorem Part.Releases.of_marked {panels : List PanelDraw} {t' : Part} (h : p.Releases t out)
    (hmarked : Part.sameButRefresh { t with cmp := { t.cmp with panels := panels } } t') : p.Releases t' out := by
  unfold Part.sameButRefresh at hmarked
  have hcomp : t'.cmp.comp = t.cmp.comp := congrArg (·.cmp.comp) hmarked
  have hdecoder : t'.cmp.decoder = t.cmp.decoder := congrArg (·.cmp.decoder) hmarked
  have hslots : t'.cmp.slots = t.cmp.slots := congrArg (·.cmp.slots) hmarked
  have hed : t'.ed = t.ed := congrArg (·.ed) hmarked
  refine ⟨?_, ?_, ?_, ?_, ?_, ?_, ?_⟩
  · simpa only [hcomp, hdecoder, hed] using h.dropped
  · simpa only [hcomp, hdecoder, hed] using h.spared
  · simpa only [hslots] using h.length
  · simpa only [hslots] using h.freed
  · simpa only [hslots] using h.kept
  · exact (congrArg (fun q : Part => { q.cmp with
      comp := p.cmp.comp, decoder := p.cmp.decoder, slots := p.cmp.slots, refreshSeat := p.cmp.refreshSeat
      refreshEnd := p.cmp.refreshEnd, refreshDoor := p.cmp.refreshDoor, panels := p.cmp.panels
      panelEvents := p.cmp.panelEvents, profiles := p.cmp.profiles }) hmarked).trans h.composer
  · exact (congrArg (fun q : Part => { q with cmp := p.cmp, ed := p.ed }) hmarked).trans h.rest

/-- R122: a composition of a panel that is not out goes on, with its pin. -/
theorem Part.Releases.composition_in (h : p.Releases t out) {c : Composition} (hc : p.cmp.comp = some c)
    (hin : ¬out c.line c.address) : t.cmp.comp = some c ∧ t.ed = p.ed := by
  obtain ⟨hcomp, -, hed⟩ := h.spared fun d hd => by
    obtain rfl := Option.some.inj (hc.symm.trans hd)
    exact hin
  exact ⟨hcomp.trans hc, hed⟩

/-- R122: no slot is left to a panel that is out. -/
theorem Part.Releases.panel_in (h : p.Releases t out) {x : Slot} (hx : x ∈ t.cmp.slots) {l : Line} {a : Nat}
    (hpanel : x.state.panel = some (l, a)) : ¬out l a := by
  intro hout
  obtain ⟨i, hi, hxi⟩ := List.mem_iff_getElem.mp hx
  have hx' : t.cmp.slots[i]? = some x := by rw [List.getElem?_eq_getElem hi, hxi]
  have hheld : x.state.heldOut out := ⟨l, a, hpanel, hout⟩
  obtain ⟨y, hy⟩ : ∃ y, p.cmp.slots[i]? = some y := ⟨_, List.getElem?_eq_getElem (h.length ▸ hi)⟩
  by_cases hy' : y.state.heldOut out ∨ p.losesSlot out i
  · obtain rfl := Option.some.inj (hx'.symm.trans (h.freed i y hy hy'))
    exact SlotState.not_heldOut_freed out hheld
  · obtain ⟨hnot, hloses⟩ := not_or.mp hy'
    obtain rfl := Option.some.inj (hx'.symm.trans (h.kept i y hy hnot hloses))
    exact hnot hheld

end

/-! ### A panel that goes OFFLINE -/

/-- R122: a panel's change to OFFLINE taken. -/
theorem Part.composerOffline_eq {p : Part} {l : Line} {a : Nat} {rest : List PanelEvent}
    (h : p.cmp.panelEvents = .offline l a :: rest) :
    p.composerOffline = Part.releasePanels { p with cmp := { p.cmp with panelEvents := rest } }
      (fun l' a' => decide (l' = l) && a' == a) := by
  simp only [Part.composerOffline, h]

/-- R122: the panel leaves its line's refresh list. -/
theorem Part.composerOffline_refresh {p : Part} {l : Line} {a : Nat} {rest : List PanelEvent}
    (h : p.cmp.panelEvents = .offline l a :: rest) (k : Line) : p.composerOffline.cmp.refresh k
      = if k = l then (p.cmp.refresh l).filter (fun b => decide (b ≠ a)) else p.cmp.refresh k := by
  have hfilter : p.composerOffline.cmp.refresh k
      = (p.cmp.refresh k).filter (fun b => !(decide (k = l) && b == a)) := by
    rw [Part.composerOffline_eq h, Part.releasePanels_refresh]
    cases k <;> rfl
  rw [hfilter]
  split
  · next hk =>
    subst hk
    exact List.filter_congr fun b _ => by simp [Bool.beq_eq_decide_eq]
  · next hk => exact List.filter_eq_self.mpr fun b _ => by simp [hk]

/-- R122: what a panel that goes OFFLINE leaves of the events that wait and of the configured panels. -/
theorem Part.composerOffline_cmp {p : Part} {l : Line} {a : Nat} {rest : List PanelEvent}
    (h : p.cmp.panelEvents = .offline l a :: rest) :
    p.composerOffline.cmp.panelEvents = rest ∧ p.composerOffline.cmp.panels = p.cmp.panels ∧
      p.composerOffline.cmp.profiles = p.cmp.profiles := by
  rw [Part.composerOffline_eq h]
  simp

/-- R122: what a panel that goes OFFLINE releases. -/
theorem Part.composerOffline_releases {p : Part} {l : Line} {a : Nat} {rest : List PanelEvent}
    (h : p.cmp.panelEvents = .offline l a :: rest) :
    p.Releases p.composerOffline (fun l' a' => l' = l ∧ a' = a) := by
  rw [Part.composerOffline_eq h]
  exact Part.Releases.of_taken (Part.releasePanels_releases _ fun l' a' => by simp)

/-! ### The panels of a profile (R115) -/

/-- R115: the panels of one line, in rising order of address. -/
theorem panelDraws_line (old : List PanelDraw) (f : Profile) (l : Line) :
    (panelDraws old f).filter (fun q => decide (q.line = l)) = (f.line l).rising.map (panelDrawOf old l) := by
  have hline (k : Line) : ((f.line k).rising.map (panelDrawOf old k)).filter (fun q => decide (q.line = l))
      = if k = l then (f.line k).rising.map (panelDrawOf old k) else [] := by
    split
    · next hk =>
      rw [List.filter_eq_self]
      intro q hq
      obtain ⟨a, -, rfl⟩ := List.mem_map.mp hq
      simpa [(panelDrawOf_place old k a).1] using hk
    · next hk =>
      rw [List.filter_eq_nil_iff]
      intro q hq
      obtain ⟨a, -, rfl⟩ := List.mem_map.mp hq
      simpa [(panelDrawOf_place old k a).1] using hk
  simp only [panelDraws, Line.all, List.flatMap_cons, List.flatMap_nil, List.filter_append, hline]
  cases l <;> simp

theorem LineConfig.rising_perm (c : LineConfig) : List.Perm c.rising (c.panels.map (·.address)) := sortBy_perm _ _

theorem LineConfig.rising_sorted (c : LineConfig) : c.rising.Pairwise (· ≤ ·) := sortBy_sorted id _

/-- R115: the addresses of one line's panels are those that the profile gives. -/
theorem panelDraws_addresses (old : List PanelDraw) (f : Profile) (l : Line) :
    ((panelDraws old f).filter (fun q => decide (q.line = l))).map (·.address) = (f.line l).rising := by
  rw [panelDraws_line, List.map_map]
  conv => rhs; rw [← List.map_id (f.line l).rising]
  exact List.map_congr_left fun a _ => (panelDrawOf_place old l a).2

/-- R105: the record that the composer has of a place is kept. -/
theorem panelDrawOf_old {old : List PanelDraw} {l : Line} {a : Nat} {o : PanelDraw}
    (h : old.find? (fun q => decide (q.line = l) && q.address == a) = some o) : panelDrawOf old l a = o := by
  simp only [panelDrawOf, h]

/-- R105: what the composer begins a place with. -/
theorem panelDrawOf_new {old : List PanelDraw} {l : Line} {a : Nat}
    (h : old.find? (fun q => decide (q.line = l) && q.address == a) = none) :
    panelDrawOf old l a = { line := l, address := a, moving := false, strip := false, bars := [] } := by
  simp only [panelDrawOf, h]

/-- R105: the composer keeps the record of a panel that stays configured, and begins one for any other. -/
theorem panelDraws_record {old : List PanelDraw} {f : Profile} {l : Line} {q : PanelDraw}
    (hq : q ∈ (panelDraws old f).filter (fun q => decide (q.line = l))) : q = panelDrawOf old l q.address := by
  rw [panelDraws_line] at hq
  obtain ⟨a, -, rfl⟩ := List.mem_map.mp hq
  rw [(panelDrawOf_place old l a).2]

/-- R115: a place is configured at the composer exactly when the profile's line has a panel of its address. -/
theorem mem_panelDraws_place {old : List PanelDraw} {f : Profile} {l : Line} {a : Nat} :
    (∃ q ∈ panelDraws old f, q.line = l ∧ q.address = a) ↔ ∃ q ∈ (f.line l).panels, q.address = a := by
  have hplace : a ∈ ((panelDraws old f).filter (fun q => decide (q.line = l))).map (·.address) ↔
      a ∈ (f.line l).panels.map (·.address) := by
    rw [panelDraws_addresses]
    exact (f.line l).rising_perm.mem_iff
  simpa [and_assoc] using hplace

/-- The profile gives this line no panel of this address. -/
def Profile.removes (f : Profile) (l : Line) (a : Nat) : Prop := ∀ q ∈ (f.line l).panels, q.address ≠ a

/-- A place that the profile does not remove is one of its panels. -/
theorem Profile.not_removes {f : Profile} {l : Line} {a : Nat} :
    ¬f.removes l a ↔ ∃ q ∈ (f.line l).panels, q.address = a := by
  simp [Profile.removes]

/-- The composer's test names the places that the profile removes. -/
theorem Profile.removes_iff (f : Profile) (l : Line) (a : Nat) :
    (!(f.line l).panels.any (fun q => q.address == a)) = true ↔ f.removes l a := by
  simp [Profile.removes]

/-- R115, R122: the composer with the next profile taken, before it marks the configured panels. -/
def Part.profileTaken (p : Part) (f : Profile) (rest : List Profile) : Part :=
  let released := Part.releasePanels { p with cmp := { p.cmp with profiles := rest } }
    (fun l a => !(f.line l).panels.any (fun q => q.address == a))
  { released with cmp := { released.cmp with panels := panelDraws released.cmp.panels f } }

theorem Part.composerProfile_eq {p : Part} {f : Profile} {rest : List Profile} (h : p.cmp.profiles = f :: rest) :
    p.composerProfile = (p.profileTaken f rest).markWhere (fun _ => true) := by
  simp only [Part.composerProfile, h, Part.profileTaken]

theorem Part.profileTaken_panels (p : Part) (f : Profile) (rest : List Profile) :
    (p.profileTaken f rest).cmp.panels = panelDraws p.cmp.panels f := by
  simp [Part.profileTaken]

/-- R122: the refresh lists keep the panels that stay. -/
theorem Part.profileTaken_refresh (p : Part) (f : Profile) (rest : List Profile) (l : Line) :
    (p.profileTaken f rest).cmp.refresh l
      = (p.cmp.refresh l).filter (fun a => (f.line l).panels.any (fun q => q.address == a)) := by
  have hreleased := Part.releasePanels_refresh { p with cmp := { p.cmp with profiles := rest } }
    (fun l a => !(f.line l).panels.any (fun q => q.address == a)) l
  simp only [Bool.not_not] at hreleased
  cases l <;> exact hreleased

theorem Part.profileTaken_line (p : Part) (f : Profile) (rest : List Profile) (l : Line) :
    (p.profileTaken f rest).line l = p.line l := by
  cases l <;> simp [Part.profileTaken, Part.line]

/-! ### The marks of a profile -/

/-- What is marked depends on the refresh lists, the configured panels and the lines alone. -/
theorem Part.marksExactly_of_same {p p' t : Part} {named : PanelDraw → Prop} (h : p.marksExactly t named)
    (hrefresh : ∀ l, p'.cmp.refresh l = p.cmp.refresh l) (hpanels : p'.cmp.panels = p.cmp.panels)
    (hline : ∀ l, p'.line l = p.line l) : p'.marksExactly t named := by
  intro l
  rw [hrefresh, hpanels, hline]
  exact h l

/-- R114: what a refresh list holds after the marks of one event. -/
theorem Part.mem_refresh_of_marksExactly {p t : Part} {named : PanelDraw → Prop} (h : p.marksExactly t named)
    {l : Line} {a : Nat} : a ∈ t.cmp.refresh l ↔ a ∈ p.cmp.refresh l ∨
      ((p.line l).health a).drawn = true ∧ ∃ q ∈ p.cmp.panels, q.line = l ∧ q.address = a ∧ named q := by
  obtain ⟨new, hnew, -, -, hmem⟩ := h l
  rw [hnew, List.mem_append, hmem]
  tauto

/-- R115: a profile marks every panel that it configures. -/
theorem Part.composerProfile_marksExactly {p : Part} {f : Profile} {rest : List Profile}
    (h : p.cmp.profiles = f :: rest) : (p.profileTaken f rest).marksExactly p.composerProfile (fun _ => True) := by
  rw [Part.composerProfile_eq h]
  exact Part.marksExactly_congr (Part.markWhere_marksExactly _ _) fun _ => by simp

/-- R115, R122: a refresh list after a profile: of the panels that stay, those that were in it and those to be drawn. -/
theorem Part.mem_refresh_composerProfile {p : Part} {f : Profile} {rest : List Profile}
    (h : p.cmp.profiles = f :: rest) {l : Line} {a : Nat} : a ∈ p.composerProfile.cmp.refresh l ↔
      ¬f.removes l a ∧ (a ∈ p.cmp.refresh l ∨ ((p.line l).health a).drawn = true) := by
  rw [Part.mem_refresh_of_marksExactly (Part.composerProfile_marksExactly h),
    Part.profileTaken_refresh, Part.profileTaken_line, Part.profileTaken_panels]
  simp only [and_true, mem_panelDraws_place, ← Profile.not_removes, List.mem_filter, ← Profile.removes_iff]
  simp only [Bool.not_eq_true', Bool.not_eq_false]
  tauto

/-- R122: what a profile releases. -/
theorem Part.composerProfile_releases {p : Part} {f : Profile} {rest : List Profile}
    (h : p.cmp.profiles = f :: rest) : p.Releases p.composerProfile f.removes := by
  rw [Part.composerProfile_eq h]
  exact Part.Releases.of_taken (Part.Releases.of_marked (Part.releasePanels_releases _ f.removes_iff)
    (Part.markWhere_sameButRefresh _ _))

/-- R115, R122: what a profile leaves of the events that wait, and the panels it configures. -/
theorem Part.composerProfile_cmp {p : Part} {f : Profile} {rest : List Profile} (h : p.cmp.profiles = f :: rest) :
    p.composerProfile.cmp.profiles = rest ∧ p.composerProfile.cmp.panelEvents = p.cmp.panelEvents ∧
      p.composerProfile.cmp.panels = panelDraws p.cmp.panels f := by
  have hmarked := Part.markWhere_sameButRefresh (p.profileTaken f rest) (fun _ => true)
  rw [← Part.composerProfile_eq h] at hmarked
  obtain ⟨hevents, hprofiles⟩ := Part.releasePanels_waiting { p with cmp := { p.cmp with profiles := rest } }
    (fun l a => !(f.line l).panels.any (fun q => q.address == a))
  exact ⟨(congrArg (·.cmp.profiles) hmarked).trans hprofiles, (congrArg (·.cmp.panelEvents) hmarked).trans hevents,
    (congrArg (·.cmp.panels) hmarked).trans (p.profileTaken_panels f rest)⟩

/-- Settles O40: the panels out are those that the composer's test names, and what they lose is `Part.Releases`. -/
theorem panelsOutAreReleased : Obligations.PanelsOutAreReleased := by
  unfold Obligations.PanelsOutAreReleased
  intro released
  have hreleased {p t : Part} {out : Line → Nat → Prop} (h : p.Releases t out) : released p t out := by
    refine ⟨fun c hc hout => ?_, h.spared, h.length, fun i x hx => ⟨h.freed i x hx, fun hnot hlost => ?_⟩, h.composer,
      h.rest⟩
    · obtain ⟨hcomp, hdecoder, hed⟩ := h.dropped c hc hout
      exact ⟨hcomp, hdecoder, fun hpin => hed.trans (p.ed.unpinned_none hpin),
        fun pin hpin => hed.trans (p.ed.unpinned_some hpin)⟩
    · exact h.kept i x hx (fun ⟨l, a, hpanel, hout⟩ => hnot l a hpanel hout) hlost
  refine ⟨fun s l a rest h => ?_, fun s f rest h => ?_⟩
  · have hr := Part.composerOffline_releases h
    obtain ⟨hevents, hpanels, hprofiles⟩ := Part.composerOffline_cmp h
    refine ⟨{ s with part := s.part.composerOffline }, rfl, rfl, hevents,
      fun c hc hl ha => (hr.dropped c hc ⟨hl, ha⟩).1,
      fun c hc hother => hr.composition_in hc fun ⟨hl, ha⟩ => hother.elim (fun h => h hl) fun h => h ha,
      fun x hx hpanel => hr.panel_in hx hpanel ⟨rfl, rfl⟩, fun i x hx hpanel hslot => ?_,
      (Part.composerOffline_refresh h l).trans (if_pos rfl),
      fun k hk => (Part.composerOffline_refresh h k).trans (if_neg hk), hreleased hr, hpanels, hprofiles, hr.rest⟩
    · exact hr.kept i x hx (fun ⟨k, b, hx', hk, hb⟩ => hpanel (hk ▸ hb ▸ hx'))
        fun ⟨c, hc, _, hi⟩ => hslot c hc hi
  · intro removed stays
    have hr := Part.composerProfile_releases h
    obtain ⟨hprofiles, hevents, hpanels⟩ := Part.composerProfile_cmp h
    refine ⟨{ s with part := s.part.composerProfile }, rfl, rfl, hprofiles,
      fun c hc hout => (hr.dropped c hc hout).1, fun c hc hin => (hr.composition_in hc hin).1,
      fun x hx l a hpanel => hr.panel_in hx hpanel, fun l a => (Part.mem_refresh_composerProfile h).mp,
      fun l q hq hdrawn => ?_, fun q hq => ?_, hreleased hr, hevents, fun l => ?_, ?_, hr.rest⟩
    · exact (Part.mem_refresh_composerProfile h).mpr ⟨Profile.not_removes.mpr ⟨q, hq, rfl⟩, Or.inr hdrawn⟩
    · dsimp only at hq
      rw [hpanels] at hq
      exact Profile.not_removes.mpr (mem_panelDraws_place.mp ⟨q, hq, rfl, rfl⟩)
    · intro panels
      have hp : panels = (panelDraws s.part.cmp.panels f).filter (fun q => decide (q.line = l)) :=
        congrArg (List.filter _) hpanels
      have haddresses := (congrArg (List.map (·.address)) hp).trans (panelDraws_addresses s.part.cmp.panels f l)
      refine ⟨haddresses ▸ (f.line l).rising_perm,
        List.pairwise_map.mp (haddresses ▸ (f.line l).rising_sorted), fun q hq => ?_⟩
      have hrecord := panelDraws_record (hp ▸ hq)
      exact ⟨fun o ho => hrecord.trans (panelDrawOf_old ho), fun hno => hrecord.trans (panelDrawOf_new hno)⟩
    · intro mid
      refine Part.marksExactly_of_same (Part.composerProfile_marksExactly h) (fun l => ?_)
        (hpanels.trans (s.part.profileTaken_panels f rest).symm) fun l => ?_
      · rw [Part.profileTaken_refresh]
        cases l <;> rfl
      · rw [Part.profileTaken_line]
        cases l <;> rfl

end Sys2Proof.Machine
end

section
/-! PROOF. What a composition reads of the pinned copy at its start (R118, 11.4): where the items stand, and that a read
that fails is that of a byte. -/

namespace Sys2Proof.Machine

/-! ### Where the items stand -/

/-- A read followed by another succeeds exactly where both do. -/
theorem bind_eq_ok_iff {ε α β : Type} {x : Except ε α} {f : α → Except ε β} {b : β} :
    (x >>= f) = .ok b ↔ ∃ a, x = .ok a ∧ f a = .ok b :=
  ⟨bind_eq_ok, fun ⟨_, hx, hf⟩ => hx ▸ hf⟩

/-- 11.4: a strip header's offset and fields. -/
theorem View.strip_eq_ok {v : View} {a i : Nat} {h : StripHeader} : v.strip a i = .ok h ↔
    ∃ o, v.u32 (a + 0x34 + 4 * i) = .ok o ∧ v.u16 (a + o) = .ok h.width ∧ v.u8 (a + o + 2) = .ok h.height ∧
      v.u32 (a + o + 4) = .ok h.pixels := by
  constructor
  · intro hread
    obtain ⟨o, ho, hread⟩ := bind_eq_ok hread
    obtain ⟨width, hwidth, hread⟩ := bind_eq_ok hread
    obtain ⟨height, hheight, hread⟩ := bind_eq_ok hread
    obtain ⟨pixels, hpixels, hread⟩ := bind_eq_ok hread
    cases hread
    exact ⟨o, ho, hwidth, hheight, hpixels⟩
  · rintro ⟨o, ho, hwidth, hheight, hpixels⟩
    exact bind_eq_ok_iff.mpr ⟨o, ho, bind_eq_ok_iff.mpr ⟨_, hwidth, bind_eq_ok_iff.mpr ⟨_, hheight,
      bind_eq_ok_iff.mpr ⟨_, hpixels, rfl⟩⟩⟩⟩

/-- 11.4: the strips that are read follow one another. -/
theorem View.strips_eq_ok {v : View} {a n i : Nat} {hs : List StripHeader} : v.strips a n i = .ok hs ↔
    hs.length = n ∧ ∀ (j : Nat) (h : StripHeader), hs[j]? = some h → v.strip a (i + j) = .ok h := by
  induction n generalizing i hs with
  | zero =>
    constructor
    · intro h
      cases h
      exact ⟨rfl, fun j h hj => nomatch hj⟩
    · rintro ⟨hlen, -⟩
      rw [List.length_eq_zero_iff.mp hlen]
      rfl
  | succ n ih =>
    constructor
    · intro h
      obtain ⟨s, hs, h⟩ := bind_eq_ok h
      obtain ⟨rest, hrest, h⟩ := bind_eq_ok h
      cases h
      obtain ⟨hlen, hplace⟩ := ih.mp hrest
      refine ⟨congrArg (· + 1) hlen, fun j h hj => ?_⟩
      cases j with
      | zero => exact Option.some.inj hj ▸ hs
      | succ j =>
        rw [show i + (j + 1) = i + 1 + j by omega]
        exact hplace j h hj
    · rintro ⟨hlen, hplace⟩
      obtain ⟨s, rest, rfl⟩ := List.exists_cons_of_length_eq_add_one hlen
      refine bind_eq_ok_iff.mpr ⟨s, hplace 0 s rfl, bind_eq_ok_iff.mpr ⟨rest, ih.mpr ⟨?_, fun j h hj => ?_⟩, rfl⟩⟩
      · exact Nat.succ.inj hlen
      · rw [show i + 1 + j = i + (j + 1) by omega]
        exact hplace (j + 1) h hj

/-- R125, 11.4: the run code table's working copy, from its header bytes and its entries. -/
theorem runTableOf_eq (head entries : List Byte) : runTableOf head (entries.map runEntry)
    = { short := decide (head.getD 0 0 ≠ 0), commonX := (head.getD 1 0).toNat
        endMode := decide (head.getD 2 0 ≠ 0), zeros := decide (head.getD 3 0 ≠ 0)
        entries := entries.map (fun b => { x := b.toNat % 8, endFlag := b.toNat.testBit 7 }) } := by
  have hcode (b : Byte) : decide (b.toNat ≠ 0) = decide (b ≠ 0) := by
    rw [decide_eq_decide]
    simp [← BitVec.toNat_inj]
  simp only [runTableOf, hcode]
  rfl

/-- R118: the items, from the places where 11.4 puts them. -/
theorem View.contentItems_eq_ok {v : View} {a : Nat} {items : ContentItems} {table : RunTable} :
    v.contentItems a = .ok (items, table) ↔ ∃ (count : Nat) (head entries : List Byte),
      v.u16 (a + 12) = .ok items.pageCount ∧ v.u16 (a + 0x18) = .ok items.poolLength ∧ v.u8 (a + 0x1B) = .ok count ∧
      v.strips a (min count 2) 0 = .ok items.strips ∧ v.u8 (a + 0x1A) = .ok items.markerGlyph ∧
      v.bytes (a + 0x28) 4 = .ok head ∧ v.bytes (a + 0x2C) 8 = .ok entries ∧
      table = runTableOf head (entries.map runEntry) := by
  constructor
  · intro h
    obtain ⟨pages, hpages, h⟩ := bind_eq_ok h
    obtain ⟨pool, hpool, h⟩ := bind_eq_ok h
    obtain ⟨count, hcount, h⟩ := bind_eq_ok h
    obtain ⟨strips, hstrips, h⟩ := bind_eq_ok h
    obtain ⟨marker, hmarker, h⟩ := bind_eq_ok h
    obtain ⟨run, hrun, h⟩ := bind_eq_ok h
    obtain ⟨head, hhead, hrun⟩ := bind_eq_ok hrun
    obtain ⟨entries, hentries, hrun⟩ := bind_eq_ok hrun
    cases hrun
    cases h
    exact ⟨count, head, entries, hpages, hpool, hcount, hstrips, hmarker, hhead, hentries, rfl⟩
  · rintro ⟨count, head, entries, hpages, hpool, hcount, hstrips, hmarker, hhead, hentries, rfl⟩
    have hrun : v.runBytes a = .ok (head, entries.map runEntry) :=
      bind_eq_ok_iff.mpr ⟨head, hhead, bind_eq_ok_iff.mpr ⟨entries, hentries, rfl⟩⟩
    exact bind_eq_ok_iff.mpr ⟨_, hpages, bind_eq_ok_iff.mpr ⟨_, hpool, bind_eq_ok_iff.mpr ⟨_, hcount,
      bind_eq_ok_iff.mpr ⟨_, hstrips, bind_eq_ok_iff.mpr ⟨_, hmarker, bind_eq_ok_iff.mpr ⟨_, hrun, rfl⟩⟩⟩⟩⟩⟩

/-! ### A read that fails -/

/-- R169: a read that fails is that of the byte it names. -/
def View.failsAtByte {α : Type} (v : View) (x : Except MemFail α) : Prop :=
  ∀ f, x = .error f → v.byte f.address = .error f

section
variable {α β : Type} (v : View)

theorem View.failsAtByte_ok (b : α) : v.failsAtByte (.ok b) := fun _ h => nomatch h

/-- A read followed by another fails where the first does, or else the second. -/
theorem View.failsAtByte_bind {v : View} {x : Except MemFail α} {g : α → Except MemFail β} (hx : v.failsAtByte x)
    (hg : ∀ b, v.failsAtByte (g b)) : v.failsAtByte (x >>= g) := by
  cases x with
  | error e => exact fun f h => hx f (congrArg Except.error (Except.error.inj h))
  | ok b => exact hg b

theorem View.failsAtByte_byte (a : Nat) : v.failsAtByte (v.byte a) := by
  intro f h
  have haddress : f.address = a := by
    unfold View.byte at h
    split at h
    · cases h; rfl
    · split at h
      · cases h; rfl
      · cases h
  rw [haddress, h]

/-- Bytes are read one after another up to the first that fails (log 78). -/
theorem View.failsAtByte_bytes (a n : Nat) : v.failsAtByte (v.bytes a n) := by
  induction n generalizing a with
  | zero => exact v.failsAtByte_ok []
  | succ n ih =>
    intro f h
    unfold View.bytes at h
    split at h
    · next e he => exact v.failsAtByte_byte a f (Except.error.inj h ▸ he)
    · split at h
      · next e he => exact ih (a + 1) f (Except.error.inj h ▸ he)
      · cases h

theorem View.failsAtByte_field (a n : Nat) : v.failsAtByte (v.field a n) := by
  intro f h
  unfold View.field at h
  split at h
  · next e he => exact v.failsAtByte_bytes a n f (Except.error.inj h ▸ he)
  · cases h

theorem View.failsAtByte_strip (a i : Nat) : v.failsAtByte (v.strip a i) :=
  View.failsAtByte_bind (v.failsAtByte_field _ 4) fun _ => View.failsAtByte_bind (v.failsAtByte_field _ 2) fun _ =>
    View.failsAtByte_bind (v.failsAtByte_field _ 1) fun _ => View.failsAtByte_bind (v.failsAtByte_field _ 4) fun _ =>
      v.failsAtByte_ok _

theorem View.failsAtByte_strips (a n i : Nat) : v.failsAtByte (v.strips a n i) := by
  induction n generalizing i with
  | zero => exact v.failsAtByte_ok []
  | succ n ih =>
    exact View.failsAtByte_bind (v.failsAtByte_strip a i) fun _ => View.failsAtByte_bind (ih (i + 1)) fun _ =>
      v.failsAtByte_ok _

theorem View.failsAtByte_runBytes (a : Nat) : v.failsAtByte (v.runBytes a) :=
  View.failsAtByte_bind (v.failsAtByte_bytes _ 4) fun _ => View.failsAtByte_bind (v.failsAtByte_bytes _ 8) fun _ =>
    v.failsAtByte_ok _

/-- R118, R169: the items' read that fails is that of a byte. -/
theorem View.failsAtByte_contentItems (a : Nat) : v.failsAtByte (v.contentItems a) :=
  View.failsAtByte_bind (v.failsAtByte_field _ 2) fun _ => View.failsAtByte_bind (v.failsAtByte_field _ 2) fun _ =>
    View.failsAtByte_bind (v.failsAtByte_field _ 1) fun _ => View.failsAtByte_bind (v.failsAtByte_strips a _ 0) fun _ =>
      View.failsAtByte_bind (v.failsAtByte_field _ 1) fun _ => View.failsAtByte_bind (v.failsAtByte_runBytes a) fun _ =>
        v.failsAtByte_ok _

end

end Sys2Proof.Machine
end

section
/-! PROOF. The beginning of a composition (R117, R118): the panel and the slot it takes, and what it begins with; O41. -/

namespace Sys2Proof.Machine

/-! ### Which panel, which slot (R117) -/

/-- R117: a panel is eligible while no slot is LOADING for it. -/
theorem Composer.eligible_iff (c : Composer) (l : Line) (a : Nat) :
    c.eligible l a = true ↔ ∀ x ∈ c.slots, x.state ≠ .loading l a := by
  simp [Composer.eligible, Composer.holds]

/-- R117: the first eligible panel of a line's refresh list. -/
theorem Composer.candidate_first {c : Composer} {l : Line} {a : Nat} {before after : List Nat}
    (hlist : c.refresh l = before ++ a :: after) (ha : c.eligible l a = true)
    (hbefore : ∀ b ∈ before, ¬c.eligible l b = true) : c.candidate l = some a := by
  rw [Composer.candidate, hlist, List.find?_append, List.find?_eq_none.mpr hbefore, List.find?_cons_of_pos ha]
  rfl

/-- R117: a line without an eligible panel. -/
theorem Composer.candidate_none {c : Composer} {l : Line} (h : ∀ b ∈ c.refresh l, ¬c.eligible l b = true) :
    c.candidate l = none := List.find?_eq_none.mpr h

/-- R117: the third line in the cyclic order is neither the first nor the second. -/
theorem Line.next_eq_of_ne {l first second : Line} (hsecond : Line.next first = second) (hne : l ≠ first)
    (hne' : l ≠ second) : Line.next second = l := by
  subst hsecond
  revert hne hne'
  cases first <;> cases l <;> decide

/-- R117: the line served is the first with a candidate, in cyclic order after the last served. -/
theorem Composer.choice_eq {c : Composer} {l first second : Line} {a : Nat} (ha : c.candidate l = some a)
    (hfirst : Line.next c.lastLine = first) (hsecond : Line.next first = second)
    (hl : l = first ∨ (l = second ∧ c.candidate first = none) ∨
      (l ≠ first ∧ l ≠ second ∧ c.candidate first = none ∧ c.candidate second = none)) : c.choice = some (l, a) := by
  unfold Composer.choice
  simp only [hfirst, hsecond]
  rcases hl with rfl | ⟨rfl, hnone⟩ | ⟨hne, hne', hnone, hnone'⟩
  · simp only [ha]
  · simp only [ha, hnone]
  · simp only [Line.next_eq_of_ne hsecond hne hne', ha, hnone, hnone']

/-- R117: the FREE slot of lowest number. -/
theorem findIndex_free {slots : List Slot} {i : Nat} {x : Slot} (hx : slots[i]? = some x) (hfree : x.state = .free)
    (hbefore : ∀ j, j < i → ∀ y, slots[j]? = some y → y.state ≠ .free) :
    findIndex (fun s : Slot => decide (s.state = .free)) slots = some i :=
  (findIndex_some _ _ _).mpr ⟨⟨x, hx, decide_eq_true hfree⟩, fun j hj y hy => decide_eq_false (hbefore j hj y hy)⟩

/-- R117: what the next composition takes. -/
theorem Part.nextComposition_eq {p : Part} {l : Line} {a i : Nat} (hcomp : p.cmp.comp = none)
    (hrun : p.regs.run = true) (hchoice : p.cmp.choice = some (l, a))
    (hslot : findIndex (fun s : Slot => decide (s.state = .free)) p.cmp.slots = some i) :
    p.nextComposition = some (l, a, i) := by
  rw [Part.nextComposition, if_pos ⟨hcomp, hrun⟩, hchoice, hslot]

/-! ### What it begins with (R118) -/

/-- R117: the composer once this panel has left its refresh list and taken this slot. -/
def Composer.takes (c : Composer) (l : Line) (a i : Nat) : Composer :=
  let listed := c.setRefresh l ((c.refresh l).erase a)
  { listed with lastLine := l, slots := changeAt (fun s => { s with state := .rendering l a }) i listed.slots }

section
variable (c : Composer) (l : Line) (a i : Nat)

@[simp] theorem Composer.takes_decoder : (c.takes l a i).decoder = c.decoder := by cases l <;> rfl

theorem Composer.takes_slots {x : Slot} (hx : c.slots[i]? = some x) :
    (c.takes l a i).slots = c.slots.set i { x with state := .rendering l a } := by
  rw [← changeAt_eq_set (fun s : Slot => { s with state := .rendering l a }) i c.slots x hx]
  cases l <;> rfl

theorem Composer.takes_setRefresh (k : Line) :
    (c.takes l a i).refresh k = (c.setRefresh l ((c.refresh l).erase a)).refresh k := by cases k <;> rfl

/-- R117: the first panel of this address leaves the list. -/
theorem Composer.takes_refresh {before after : List Nat} (hlist : c.refresh l = before ++ a :: after)
    (ha : a ∉ before) : (c.takes l a i).refresh l = before ++ after := by
  rw [Composer.takes_setRefresh, Composer.refresh_setRefresh, hlist, List.erase_append_right _ ha,
    List.erase_cons_head]

theorem Composer.takes_refresh_of_ne {k : Line} (hk : k ≠ l) : (c.takes l a i).refresh k = c.refresh k :=
  (c.takes_setRefresh l a i k).trans (c.refresh_setRefresh_of_ne _ hk)

/-- R117: nothing else of the composer changes. -/
theorem Composer.takes_frame : { c.takes l a i with
    lastLine := c.lastLine, slots := c.slots, refreshSeat := c.refreshSeat, refreshEnd := c.refreshEnd
    refreshDoor := c.refreshDoor } = c := by
  cases l <;> rfl

end

/-- R117: the part once the panel and the slot are taken, as the host's writes have left memory. -/
def Part.taken (p : Part) (bus : Bus) (l : Line) (a i : Nat) : Part :=
  { p.hostWrites bus with cmp := p.cmp.takes l a i }

section
variable (p : Part) (bus : Bus) (c : Composition) (copy : Copy) {address : Nat}

/-- R118: items that cannot be read leave no area to draw, and the error is reported. -/
theorem Part.readItems_error {f : MemFail} (h : (p.view bus).contentItems address = .error f) :
    p.readItems bus c copy address = Part.composerError ((p.pin .contentSet copy).setComp
      { c with pin := some { copy := copy, address := address }, areas := [] }) f := by
  have hview : ((p.pin .contentSet copy).view bus).contentItems address = .error f := h
  simp only [Part.readItems, hview]

/-- R118: items read, and with them the working copy of the run code table. -/
theorem Part.readItems_ok {items : ContentItems} {table : RunTable}
    (h : (p.view bus).contentItems address = .ok (items, table)) :
    p.readItems bus c copy address = { p.pin .contentSet copy with cmp := { p.cmp with
      comp := some { c with pin := some { copy := copy, address := address }, items := some items }
      decoder := { p.cmp.decoder with table := some table } } } := by
  have hview : ((p.pin .contentSet copy).view bus).contentItems address = .ok (items, table) := h
  simp only [Part.readItems, hview]
  rfl

/-- R118, R178: either way the copy is pinned, and of the composer the composition and the working copy change. -/
theorem Part.readItems_frame (address : Nat) : (p.readItems bus c copy address).ed = (p.pin .contentSet copy).ed ∧
    { (p.readItems bus c copy address).cmp with comp := p.cmp.comp, decoder := p.cmp.decoder } = p.cmp ∧
    { p.readItems bus c copy address with cmp := p.cmp, ed := p.ed, rep := p.rep } = p := by
  cases h : (p.view bus).contentItems address with
  | error f =>
    rw [Part.readItems_error p bus c copy h]
    exact ⟨rfl, rfl, rfl⟩
  | ok read =>
    rw [Part.readItems_ok p bus c copy h]
    exact ⟨rfl, rfl, rfl⟩

end

section
variable {p : Part} {l : Line} {a i : Nat} (bus : Bus) (h : p.nextComposition = some (l, a, i))
include h

/-- R118: with no live copy the composition is blank. -/
theorem Part.beginComposition_blank (hlive : p.ed.content.live = none ∨ p.ed.content.liveAddress = none) :
    p.beginComposition bus = (p.taken bus l a i).setComp (newComposition l a i) := by
  cases hcopy : p.ed.content.live with
  | none => simp only [Part.beginComposition, h, Part.hostWrites, hcopy, Part.taken, Composer.takes]
  | some copy =>
    have haddress : p.ed.content.liveAddress = none :=
      hlive.resolve_left fun hnone => Option.some_ne_none copy (hcopy.symm.trans hnone)
    simp only [Part.beginComposition, h, Part.hostWrites, hcopy, haddress, Part.taken, Composer.takes]

/-- R118: with a live copy its items are read. -/
theorem Part.beginComposition_reads {copy : Copy} {address : Nat} (hcopy : p.ed.content.live = some copy)
    (haddress : p.ed.content.liveAddress = some address) :
    p.beginComposition bus = (p.taken bus l a i).readItems bus (newComposition l a i) copy address := by
  simp only [Part.beginComposition, h, Part.hostWrites, hcopy, haddress, Part.taken, Composer.takes]

/-- R117, R118: what a composition's beginning leaves, the composition, the working copy, the pins and the report apart. -/
theorem Part.beginComposition_frame :
    { (p.beginComposition bus).cmp with comp := p.cmp.comp, decoder := p.cmp.decoder }
        = { p.cmp.takes l a i with comp := p.cmp.comp } ∧
      { p.beginComposition bus with cmp := p.cmp, ed := p.ed, rep := p.rep } = p.hostWrites bus := by
  by_cases hlive : p.ed.content.live = none ∨ p.ed.content.liveAddress = none
  · rw [Part.beginComposition_blank bus h hlive]
    cases l <;> exact ⟨rfl, rfl⟩
  · obtain ⟨hcopy, haddress⟩ := not_or.mp hlive
    obtain ⟨copy, hcopy⟩ := Option.ne_none_iff_exists'.mp hcopy
    obtain ⟨address, haddress⟩ := Option.ne_none_iff_exists'.mp haddress
    rw [Part.beginComposition_reads bus h hcopy haddress]
    obtain ⟨-, hcmp, hrest⟩ := (p.taken bus l a i).readItems_frame bus (newComposition l a i) copy address
    refine ⟨?_, congrArg (fun q : Part => { q with cmp := p.cmp }) hrest⟩
    have hframe := congrArg (fun c : Composer => { c with comp := p.cmp.comp, decoder := p.cmp.decoder }) hcmp
    refine hframe.trans ?_
    cases l <;> rfl

end

/-- Settles O41: what the composition takes, what its beginning leaves as it was, and with a live copy what it reads. -/
theorem compositionBegins : Obligations.CompositionBegins := by
  refine ⟨?_, fun v a => ⟨fun items table => ?_, v.failsAtByte_contentItems a⟩⟩
  · intro s bus l a i before after x cmp eligible idle first second hcomp hrun hlist hpanel hbefore hline hx hfree hslots
      size areas blank mem v
    have hnone (k : Line) (hk : idle k) : cmp.candidate k = none :=
      Composer.candidate_none fun b hb he => hk b hb ((cmp.eligible_iff k b).mp he)
    have hchoice : cmp.choice = some (l, a) := by
      refine Composer.choice_eq (first := first) (second := second)
        (Composer.candidate_first hlist ((cmp.eligible_iff l a).mpr hpanel) fun b hb he =>
          hbefore b hb ((cmp.eligible_iff l b).mp he)) rfl rfl ?_
      exact hline.imp_right (Or.imp (fun ⟨hl, hi⟩ => ⟨hl, hnone _ hi⟩)
        fun ⟨hl, hl', hi, hi'⟩ => ⟨hl, hl', hnone _ hi, hnone _ hi'⟩)
    have hnext : s.part.nextComposition = some (l, a, i) :=
      Part.nextComposition_eq hcomp hrun hchoice (findIndex_free hx hfree hslots)
    have hblank : newComposition l a i = blank := by cases l <;> rfl
    obtain ⟨hcmp, hrest⟩ := Part.beginComposition_frame bus hnext
    have hlists (k : Line) : (s.part.beginComposition bus).cmp.refresh k = (cmp.takes l a i).refresh k :=
      (show (s.part.beginComposition bus).cmp.refresh k = _ by cases k <;> rfl).trans
        ((congrArg (·.refresh k) hcmp).trans (by cases k <;> rfl))
    have hout : a ∉ before := fun ha => hbefore a ha hpanel
    refine ⟨{ s with part := s.part.beginComposition bus }, rfl, rfl, congrArg (·.lastLine) hcmp,
      (hlists l).trans (cmp.takes_refresh l a i hlist hout),
      fun k hk => (hlists k).trans (cmp.takes_refresh_of_ne l a i hk),
      (congrArg (·.slots) hcmp).trans (cmp.takes_slots l a i hx), ?_, hrest, fun hlive => ?_,
      fun copy address hcopy haddress => ?_⟩
    · dsimp only
      rw [← hcomp]
      exact (congrArg (fun c : Composer => { c with
        lastLine := cmp.lastLine, slots := cmp.slots, refreshSeat := cmp.refreshSeat, refreshEnd := cmp.refreshEnd
        refreshDoor := cmp.refreshDoor }) hcmp).trans
        (congrArg (fun c : Composer => { c with comp := cmp.comp }) (cmp.takes_frame l a i))
    · dsimp only
      rw [Part.beginComposition_blank bus hnext hlive, hblank]
      exact ⟨rfl, cmp.takes_decoder l a i, rfl, rfl⟩
    · intro pinned
      dsimp only
      rw [Part.beginComposition_reads bus hnext hcopy haddress, hblank]
      refine ⟨((s.part.taken bus l a i).readItems_frame bus blank copy address).1, fun f hf => ?_,
        fun items table hread => ?_⟩
      · rw [Part.readItems_error (s.part.taken bus l a i) bus blank copy hf]
        exact ⟨rfl, cmp.takes_decoder l a i, rfl⟩
      · rw [Part.readItems_ok (s.part.taken bus l a i) bus blank copy hread]
        exact ⟨rfl, congrArg (fun d : Decoder => { d with table := some table }) (cmp.takes_decoder l a i), rfl⟩
  · rw [View.contentItems_eq_ok]
    simp only [View.strips_eq_ok, View.strip_eq_ok, runTableOf_eq, Nat.zero_add, and_assoc]

end Sys2Proof.Machine
end

section
/-! PROOF. The decoding of a glyph's run code and the laying of the glyph (R125 to R133, R110, R55); O43. -/

namespace Sys2Proof.Machine

/-! ### The run code table (R125, R129) -/

theorem RunTable.tailBits_short {t : RunTable} (h : t.short = true) (r : Nat) : t.tailBits r = t.commonX := if_pos h

theorem RunTable.tailBits_entry {t : RunTable} (h : t.short = false) {r : Nat} {x : RunEntry}
    (hx : t.entries[min r 7]? = some x) : t.tailBits r = x.x := by
  rw [RunTable.tailBits, h, hx]
  rfl

theorem RunTable.endIndex_off {t : RunTable} (h : t.endMode = false) : t.endIndex = none := by
  rw [RunTable.endIndex, h]
  rfl

/-- R129: base(R) as a sum. -/
theorem RunTable.base_eq_sum (t : RunTable) (r : Nat) :
    t.base r = ((List.range r).map (fun i => 2 ^ t.tailBits i)).sum := by
  induction r with
  | zero => rfl
  | succ r ih => simp [RunTable.base, ih, List.range_succ]

/-- R125: the END index is the place of the first entry with the flag. -/
theorem RunTable.endIndex_eq_some {t : RunTable} {r : Nat} :
    t.endIndex = some r ↔ t.endMode = true ∧ (∃ x, t.entries[r]? = some x ∧ x.endFlag = true) ∧
      ∀ (i : Nat) (x : RunEntry), i < r → t.entries[i]? = some x → x.endFlag = false := by
  have hfirst := findIndex_some (·.endFlag) t.entries r
  cases hm : t.endMode with
  | false => simp [RunTable.endIndex, hm]
  | true =>
    simp only [RunTable.endIndex, hm, if_true, hfirst, true_and]
    exact and_congr_right fun _ => ⟨fun h i x hi => h i hi x, fun h i hi x => h i x hi⟩

theorem RunTable.endIndex_lt {t : RunTable} {e : Nat} (h : t.endIndex = some e) : e < t.entries.length := by
  obtain ⟨-, ⟨x, hx, -⟩, -⟩ := RunTable.endIndex_eq_some.mp h
  exact (List.getElem?_eq_some_iff.mp hx).1

/-! ### Bits (R127) -/

section
variable {v : View} {a len : Nat}

theorem View.streamBit_past {i : Nat} (h : 8 * len ≤ i) : v.streamBit a len i = .error (.fault .lengthFault) :=
  if_pos h

theorem View.streamBit_byte {i : Nat} {b : Byte} (hi : i < 8 * len) (h : v.byte (a + i / 8) = .ok b) :
    v.streamBit a len i = .ok (b.toNat.testBit (i % 8)) := by
  rw [View.streamBit, if_neg (Nat.not_le.mpr hi), h]

theorem View.streamBit_unread {i : Nat} {f : MemFail} (hi : i < 8 * len) (h : v.byte (a + i / 8) = .error f) :
    v.streamBit a len i = .error (.memory f) := by
  rw [View.streamBit, if_neg (Nat.not_le.mpr hi), h]

/-- A bit that cannot be taken is a LENGTH fault or a memory error. -/
theorem View.streamBit_ne_prefixFault (i : Nat) : v.streamBit a len i ≠ .error (.fault .prefixFault) := by
  intro h
  unfold View.streamBit at h
  split at h
  · cases h
  · split at h <;> cases h

/-! ### The leading bits of a symbol (R128) -/

variable {t : RunTable} {pos : Nat}

/-- R128: the leading bits of a symbol go on past the bit `k` of them. -/
def View.prefixGoesOn (v : View) (a len : Nat) (t : RunTable) (pos k : Nat) : Prop :=
  t.endIndex ≠ some k ∧ k < 32 ∧ v.streamBit a len (pos + k) = .ok (!t.zeros)

/-- R128: there are 32 leading bits at most. -/
theorem View.prefixGoesOn_le {k : Nat} (hon : ∀ i, i < k → v.prefixGoesOn a len t pos i) : k ≤ 32 :=
  Nat.le_of_not_lt fun h => Nat.lt_irrefl _ (hon 32 h).2.1

/-- The leading bits read as far as they go on. -/
theorem View.streamPrefix_reaches {k : Nat} (hon : ∀ i, i < k → v.prefixGoesOn a len t pos i) :
    v.streamPrefix a len t 33 0 pos = v.streamPrefix a len t (32 - k + 1) k (pos + k) := by
  induction k with
  | zero => rfl
  | succ k ih =>
    obtain ⟨hend, hk, hbit⟩ := hon k (Nat.lt_succ_self k)
    rw [ih fun i hi => hon i (by omega), View.streamPrefix, if_neg hend, if_neg (Nat.not_le.mpr hk), hbit,
      show 32 - k = 32 - (k + 1) + 1 by omega]
    exact if_neg (Bool.not_ne_self t.zeros)

/-- The leading bits go on up to a first place where they do not, after 32 bits at the latest. -/
theorem View.exists_prefixGoesOn_stop (v : View) (a len : Nat) (t : RunTable) (pos : Nat) :
    ∃ k, k ≤ 32 ∧ (∀ i, i < k → v.prefixGoesOn a len t pos i) ∧ ¬ v.prefixGoesOn a len t pos k := by
  classical
  have hstop : ∃ k, ¬ v.prefixGoesOn a len t pos k := ⟨32, fun h => Nat.lt_irrefl _ h.2.1⟩
  exact ⟨Nat.find hstop, Nat.find_le fun h => Nat.lt_irrefl _ h.2.1, fun i hi => not_not.mp (Nat.find_min hstop hi),
    Nat.find_spec hstop⟩

/-- R128: how `r` leading bits end, at the END index or with the terminating bit, and the bit position after that. -/
def View.prefixEnds (v : View) (a len : Nat) (t : RunTable) (pos r q : Nat) : Prop :=
  (t.endIndex = some r ∧ q = pos + r) ∨
    (t.endIndex ≠ some r ∧ r < 32 ∧ v.streamBit a len (pos + r) = .ok t.zeros ∧ q = pos + r + 1)

/-- Where the leading bits do not go on, they have ended, are 32, or need a bit that cannot be taken. -/
theorem View.prefixEnds_or_stops {k : Nat} (hk : k ≤ 32) (h : ¬ v.prefixGoesOn a len t pos k) :
    (∃ q, v.prefixEnds a len t pos k q) ∨ (t.endIndex ≠ some k ∧ k = 32) ∨
      (t.endIndex ≠ some k ∧ k < 32 ∧ ∃ e, v.streamBit a len (pos + k) = .error e) := by
  by_cases hend : t.endIndex = some k
  · exact .inl ⟨pos + k, .inl ⟨hend, rfl⟩⟩
  rcases Nat.lt_or_eq_of_le hk with hlt | hfull
  · cases hbit : v.streamBit a len (pos + k) with
    | error e => exact .inr (.inr ⟨hend, hlt, e, rfl⟩)
    | ok b =>
      have hb : b = t.zeros := by
        by_contra hne
        exact h ⟨hend, hlt, by rw [hbit, Bool.eq_not.mpr hne]⟩
      exact .inl ⟨pos + k + 1, .inr ⟨hend, hlt, hb ▸ hbit, rfl⟩⟩
  · exact .inr (.inl ⟨hend, hfull⟩)

section
variable {k : Nat} (hon : ∀ i, i < k → v.prefixGoesOn a len t pos i)
include hon

theorem View.streamPrefix_of_ends {q : Nat} (h : v.prefixEnds a len t pos k q) :
    v.streamPrefix a len t 33 0 pos = .ok (k, q) := by
  rw [View.streamPrefix_reaches hon, View.streamPrefix]
  rcases h with ⟨hend, rfl⟩ | ⟨hend, hk, hbit, rfl⟩
  · exact if_pos hend
  · rw [if_neg hend, if_neg (Nat.not_le.mpr hk), hbit]
    exact if_pos rfl

theorem View.streamPrefix_of_full (hend : t.endIndex ≠ some k) (hk : k = 32) :
    v.streamPrefix a len t 33 0 pos = .error { stop := .fault .prefixFault, bitPos := pos + k } := by
  rw [View.streamPrefix_reaches hon, View.streamPrefix, if_neg hend, if_pos hk.ge]

theorem View.streamPrefix_of_error (hend : t.endIndex ≠ some k) (hk : k < 32) {e : StreamStop}
    (hbit : v.streamBit a len (pos + k) = .error e) :
    v.streamPrefix a len t 33 0 pos = .error { stop := e, bitPos := pos + k } := by
  rw [View.streamPrefix_reaches hon, View.streamPrefix, if_neg hend, if_neg (Nat.not_le.mpr hk), hbit]

end

/-- R128: the leading bits that end, their count and the bit position after them. -/
theorem View.streamPrefix_eq_ok {r q : Nat} : v.streamPrefix a len t 33 0 pos = .ok (r, q) ↔
    (∀ i, i < r → v.prefixGoesOn a len t pos i) ∧ v.prefixEnds a len t pos r q := by
  refine ⟨fun h => ?_, fun ⟨hon, hends⟩ => View.streamPrefix_of_ends hon hends⟩
  obtain ⟨k, hk, hon, hoff⟩ := v.exists_prefixGoesOn_stop a len t pos
  rcases View.prefixEnds_or_stops hk hoff with ⟨q', hends⟩ | ⟨hend, hfull⟩ | ⟨hend, hlt, e, hbit⟩
  · cases (View.streamPrefix_of_ends hon hends).symm.trans h
    exact ⟨hon, hends⟩
  · cases (View.streamPrefix_of_full hon hend hfull).symm.trans h
  · cases (View.streamPrefix_of_error hon hend hlt hbit).symm.trans h

/-- R128: the 32 leading bits that are a PREFIX fault. -/
theorem View.streamPrefix_eq_prefixFault {p : Nat} :
    v.streamPrefix a len t 33 0 pos = .error { stop := .fault .prefixFault, bitPos := p } ↔
      p = pos + 32 ∧ t.endIndex ≠ some 32 ∧ ∀ i, i < 32 → v.prefixGoesOn a len t pos i := by
  refine ⟨fun h => ?_, fun ⟨hp, hend, hon⟩ => hp ▸ View.streamPrefix_of_full hon hend rfl⟩
  obtain ⟨k, hk, hon, hoff⟩ := v.exists_prefixGoesOn_stop a len t pos
  rcases View.prefixEnds_or_stops hk hoff with ⟨q', hends⟩ | ⟨hend, rfl⟩ | ⟨hend, hlt, e, hbit⟩
  · cases (View.streamPrefix_of_ends hon hends).symm.trans h
  · cases (View.streamPrefix_of_full hon hend rfl).symm.trans h
    exact ⟨rfl, hend, hon⟩
  · cases (View.streamPrefix_of_error hon hend hlt hbit).symm.trans h
    exact absurd hbit (View.streamBit_ne_prefixFault _)

/-! ### Tail bits (R129) -/

/-- R129: bits read as a number after the value so far, the first the most significant. -/
def tailValue (value : Nat) (bits : List Bool) : Nat := bits.foldl (fun n b => 2 * n + (if b then 1 else 0)) value

/-- The stream holds these bits from a bit position on. -/
def View.holdsBits (v : View) (a len pos : Nat) (bits : List Bool) : Prop :=
  ∀ i, i < bits.length → v.streamBit a len (pos + i) = .ok (bits.getD i false)

theorem View.holdsBits_cons {b : Bool} {bits : List Bool} : v.holdsBits a len pos (b :: bits) ↔
    v.streamBit a len pos = .ok b ∧ v.holdsBits a len (pos + 1) bits := by
  constructor
  · exact fun h => ⟨h 0 (Nat.succ_pos _), fun i hi => by
      rw [Nat.add_assoc, Nat.add_comm 1 i]
      exact h (i + 1) (Nat.succ_lt_succ hi)⟩
  · rintro ⟨hfirst, hrest⟩ i hi
    cases i with
    | zero => exact hfirst
    | succ i =>
      rw [← Nat.add_assoc, Nat.add_right_comm]
      exact hrest i (Nat.lt_of_succ_lt_succ hi)

/-- R129: the tail bits that can be taken, their value and the bit position after them. -/
theorem View.streamTail_eq_ok {n value x q : Nat} : v.streamTail a len n value pos = .ok (x, q) ↔
    ∃ tail : List Bool, tail.length = n ∧ v.holdsBits a len pos tail ∧ x = tailValue value tail ∧
      q = pos + tail.length := by
  induction n generalizing value pos with
  | zero =>
    constructor
    · intro h
      cases h
      exact ⟨[], rfl, fun i hi => absurd hi (Nat.not_lt_zero i), rfl, rfl⟩
    · rintro ⟨tail, hn, -, rfl, rfl⟩
      cases List.eq_nil_of_length_eq_zero hn
      rfl
  | succ n ih =>
    rw [View.streamTail]
    constructor
    · intro h
      cases hbit : v.streamBit a len pos with
      | error e => rw [hbit] at h; cases h
      | ok b =>
        rw [hbit] at h
        obtain ⟨tail, hn, hbits, hx, hq⟩ := ih.mp h
        exact ⟨b :: tail, congrArg (· + 1) hn, View.holdsBits_cons.mpr ⟨hbit, hbits⟩, hx,
          by rw [hq, List.length_cons]; omega⟩
    · rintro ⟨_ | ⟨b, tail⟩, hn, hbits, hx, hq⟩
      · cases hn
      · obtain ⟨hbit, hrest⟩ := View.holdsBits_cons.mp hbits
        rw [hbit]
        exact ih.mpr ⟨tail, Nat.succ.inj hn, hrest, hx, by rw [hq, List.length_cons]; omega⟩

/-- R129: a tail that stops short stops at a bit that cannot be taken, never with a PREFIX fault. -/
theorem View.streamTail_ne_prefixFault (n value p : Nat) :
    v.streamTail a len n value pos ≠ .error { stop := .fault .prefixFault, bitPos := p } := by
  intro h
  have htakes := v.streamTail_takes a len n value pos
  rw [h] at htakes
  exact View.streamBit_ne_prefixFault p htakes.2

/-! ### Symbols (R128, R129) -/

theorem View.streamSymbol_eq_ok {run next : Nat} : v.streamSymbol a len t pos = .ok (run, next) ↔
    ∃ r q x, v.streamPrefix a len t 33 0 pos = .ok (r, q) ∧
      v.streamTail a len (t.tailBits r) 0 q = .ok (x, next) ∧ run = t.base r + x + 1 := by
  unfold View.streamSymbol
  constructor
  · intro h
    cases hp : v.streamPrefix a len t 33 0 pos with
    | error e => rw [hp] at h; cases h
    | ok y =>
      obtain ⟨r, q⟩ := y
      rw [hp] at h
      dsimp only at h
      cases ht : v.streamTail a len (t.tailBits r) 0 q with
      | error e => rw [ht] at h; cases h
      | ok z => rw [ht] at h; cases h; exact ⟨r, q, _, rfl, ht, rfl⟩
  · rintro ⟨r, q, x, hp, ht, rfl⟩
    rw [hp]
    dsimp only
    rw [ht]

/-- R129: every symbol stands for a pixel or more. -/
theorem View.streamSymbol_pos {run next : Nat} (h : v.streamSymbol a len t pos = .ok (run, next)) : 0 < run := by
  obtain ⟨r, q, x, -, -, rfl⟩ := View.streamSymbol_eq_ok.mp h
  exact Nat.succ_pos _

theorem View.streamSymbol_eq_prefixFault {p : Nat} :
    v.streamSymbol a len t pos = .error { stop := .fault .prefixFault, bitPos := p } ↔
      v.streamPrefix a len t 33 0 pos = .error { stop := .fault .prefixFault, bitPos := p } := by
  unfold View.streamSymbol
  cases hp : v.streamPrefix a len t 33 0 pos with
  | error e => exact Iff.rfl
  | ok y =>
    obtain ⟨r, q⟩ := y
    refine ⟨fun h => ?_, fun h => nomatch h⟩
    dsimp only at h
    cases ht : v.streamTail a len (t.tailBits r) 0 q with
    | error e => rw [ht] at h; cases h; exact absurd ht (View.streamTail_ne_prefixFault _ _ p)
    | ok z => rw [ht] at h; cases h

section
variable (hentries : t.entries.length = 8)
include hentries

/-- R125, R128: with the eight entries of a run code table the END index comes before the 32 bits of a PREFIX fault, and
leading bits that end have passed no END index. -/
theorem View.prefixEnds_iff {r q : Nat} :
    ((∀ i, i < r → v.prefixGoesOn a len t pos i) ∧ v.prefixEnds a len t pos r q) ↔
      (∀ i, i < r → v.streamBit a len (pos + i) = .ok (!t.zeros)) ∧
        ((t.endIndex = some r ∧ q = pos + r) ∨
          (r ≤ 31 ∧ (∀ e, t.endIndex = some e → r < e) ∧ v.streamBit a len (pos + r) = .ok t.zeros ∧
            q = pos + r + 1)) := by
  constructor
  · rintro ⟨hon, hends⟩
    refine ⟨fun i hi => (hon i hi).2.2, hends.imp_right fun ⟨hend, hr, hbit, hq⟩ =>
      ⟨by omega, fun e he => ?_, hbit, hq⟩⟩
    by_contra hle
    rcases Nat.lt_or_eq_of_le (Nat.le_of_not_lt hle) with hlt | rfl
    · exact (hon e hlt).1 he
    · exact hend he
  · rintro ⟨hbits, hends⟩
    rcases hends with ⟨hend, hq⟩ | ⟨hr, hbefore, hbit, hq⟩
    · have hr : r < 8 := hentries ▸ RunTable.endIndex_lt hend
      refine ⟨fun i hi => ⟨fun h => ?_, by omega, hbits i hi⟩, .inl ⟨hend, hq⟩⟩
      cases hend.symm.trans h
      exact Nat.lt_irrefl _ hi
    · refine ⟨fun i hi => ⟨fun h => ?_, by omega, hbits i hi⟩, .inr ⟨fun h => ?_, by omega, hbit, hq⟩⟩
      · exact Nat.lt_asymm hi (hbefore i h)
      · exact Nat.lt_irrefl _ (hbefore r h)

/-- R128, R129: the symbols of a stream. -/
theorem View.streamSymbol_ok_iff {run next : Nat} : v.streamSymbol a len t pos = .ok (run, next) ↔
    ∃ (r q : Nat) (tail : List Bool),
      (∀ i, i < r → v.streamBit a len (pos + i) = .ok (!t.zeros)) ∧
      ((t.endIndex = some r ∧ q = pos + r) ∨
        (r ≤ 31 ∧ (∀ e, t.endIndex = some e → r < e) ∧ v.streamBit a len (pos + r) = .ok t.zeros ∧ q = pos + r + 1)) ∧
      tail.length = t.tailBits r ∧ v.holdsBits a len q tail ∧ run = t.base r + tailValue 0 tail + 1 ∧
      next = q + tail.length := by
  rw [View.streamSymbol_eq_ok]
  constructor
  · rintro ⟨r, q, x, hp, ht, rfl⟩
    obtain ⟨hbits, hends⟩ := (View.prefixEnds_iff hentries).mp (View.streamPrefix_eq_ok.mp hp)
    obtain ⟨tail, hn, htail, rfl, hnext⟩ := View.streamTail_eq_ok.mp ht
    exact ⟨r, q, tail, hbits, hends, hn, htail, rfl, hnext⟩
  · rintro ⟨r, q, tail, hbits, hends, hn, htail, rfl, hnext⟩
    exact ⟨r, q, tailValue 0 tail, View.streamPrefix_eq_ok.mpr ((View.prefixEnds_iff hentries).mpr ⟨hbits, hends⟩),
      View.streamTail_eq_ok.mpr ⟨tail, hn, htail, rfl, hnext⟩, rfl⟩

/-- R128: the PREFIX faults of a stream. -/
theorem View.streamSymbol_prefixFault_iff {p : Nat} :
    v.streamSymbol a len t pos = .error { stop := .fault .prefixFault, bitPos := p } ↔
      p = pos + 32 ∧ t.endIndex = none ∧ ∀ i, i < 32 → v.streamBit a len (pos + i) = .ok (!t.zeros) := by
  rw [View.streamSymbol_eq_prefixFault, View.streamPrefix_eq_prefixFault]
  refine and_congr_right fun _ => ⟨fun ⟨_, hon⟩ => ⟨?_, fun i hi => (hon i hi).2.2⟩, fun ⟨hend, hbits⟩ =>
    ⟨by simp [hend], fun i hi => ⟨by simp [hend], hi, hbits i hi⟩⟩⟩
  refine Option.eq_none_iff_forall_ne_some.mpr fun e he => ?_
  have hlt : e < 8 := hentries ▸ RunTable.endIndex_lt he
  exact (hon e (by omega)).1 he

end

/-- R127, R129: any other failure is that of the first bit that cannot be taken. -/
theorem View.streamSymbol_error {e : StreamStop} {p : Nat}
    (h : v.streamSymbol a len t pos = .error { stop := e, bitPos := p }) (he : e ≠ .fault .prefixFault) :
    pos ≤ p ∧ v.streamBit a len p = .error e ∧ ∀ i, pos ≤ i → i < p → ∃ b, v.streamBit a len i = .ok b := by
  have htakes := v.streamSymbol_takes a len t pos
  rw [h] at htakes
  obtain ⟨⟨hle, hbits⟩, hstop⟩ := htakes
  exact ⟨hle, hstop.resolve_left fun hf => he hf.1, hbits⟩

end

/-! ### Runs (R130, R131, R133) -/

/-- R130: the pixels of runs, paper first and every other one ink. -/
def runPixels (runs : List Nat) : List Bool :=
  (runs.mapIdx (fun i run => List.replicate run (decide (i % 2 = 1)))).flatten

theorem runPixels_concat (runs : List Nat) (run : Nat) :
    runPixels (runs ++ [run]) = runPixels runs ++ List.replicate run (decide (runs.length % 2 = 1)) := by
  simp [runPixels, List.mapIdx_append]

theorem length_runPixels (runs : List Nat) : (runPixels runs).length = runs.sum := by
  induction runs using List.reverseRecOn with
  | nil => rfl
  | append_singleton runs run ih => simp [runPixels_concat, ih]

/-- R130: the runs read of a stream, each where the one before it ended and none after the glyph's N pixels. -/
structure RunsRead (v : View) (a len : Nat) (t : RunTable) (n : Nat) (runs starts : List Nat) : Prop where
  length : starts.length = runs.length + 1
  first : starts[0]? = some 0
  symbols : ∀ (i run p q : Nat), runs[i]? = some run → starts[i]? = some p → starts[i + 1]? = some q →
    (runs.take i).sum < n ∧ v.streamSymbol a len t p = .ok (run, q)

/-- R130: the decoder has decoded these runs and no more. -/
structure RunsDecoded (table : Option RunTable) (n : Nat) (runs starts : List Nat) (d : Decoder) : Prop where
  table : d.table = table
  pixels : d.pixelIndex = min n runs.sum
  ink : d.ink = decide (runs.length % 2 = 1)
  buffer : d.buffer = (runPixels runs).take n
  bitPos : starts.getLast? = some d.bitPos

section
variable {v : View} {a len n : Nat} {t : RunTable} {runs starts : List Nat}

theorem RunsRead.nil : RunsRead v a len t n [] [0] := ⟨rfl, rfl, fun i run p q h => by cases h⟩

theorem RunsRead.concat (h : RunsRead v a len t n runs starts) {p run q : Nat} (hlast : starts.getLast? = some p)
    (hroom : runs.sum < n) (hsymbol : v.streamSymbol a len t p = .ok (run, q)) :
    RunsRead v a len t n (runs ++ [run]) (starts ++ [q]) := by
  have hlen := h.length
  refine ⟨by simp [hlen], ?_, fun i run' p' q' hrun hp hq => ?_⟩
  · rw [List.getElem?_append_left (by omega)]
    exact h.first
  · have hi : i < (runs ++ [run]).length := (List.getElem?_eq_some_iff.mp hrun).1
    rw [List.length_append, List.length_singleton] at hi
    rw [List.getElem?_append_left (by omega)] at hp
    rcases Nat.lt_or_eq_of_le (Nat.le_of_lt_succ hi) with hold | rfl
    · rw [List.getElem?_append_left (by omega)] at hrun hq
      rw [List.take_append_of_le_length (Nat.le_of_lt hold)]
      exact h.symbols i run' p' q' hrun hp hq
    · rw [List.getElem?_append_right (Nat.le_refl _), Nat.sub_self] at hrun
      rw [← hlen, List.getElem?_append_right (Nat.le_refl _), Nat.sub_self] at hq
      rw [List.getLast?_eq_getElem?, hlen, Nat.add_sub_cancel, hp] at hlast
      cases hrun
      cases hq
      cases hlast
      exact ⟨by rwa [List.take_left], hsymbol⟩

variable {table : Option RunTable} {d : Decoder}

theorem Decoder.start_decoded (d : Decoder) (n : Nat) : RunsDecoded d.table n [] [0] d.start :=
  ⟨rfl, (Nat.min_zero n).symm, rfl, List.take_nil.symm, rfl⟩

/-- R130: a run written, cut at the glyph's N pixels. -/
theorem RunsDecoded.run (h : RunsDecoded table n runs starts d) (run q : Nat) :
    RunsDecoded table n (runs ++ [run]) (starts ++ [q]) (d.run n run q) := by
  have hpixels := h.pixels
  refine ⟨h.table, ?_, ?_, ?_, List.getLast?_concat⟩
  · simp only [Decoder.run, List.sum_append, List.sum_singleton]
    omega
  · simp only [Decoder.run, h.ink, List.length_append, List.length_singleton, ← decide_not, decide_eq_decide]
    omega
  · rw [runPixels_concat, List.take_append, length_runPixels, List.take_replicate, ← h.buffer, ← h.ink]
    simp only [Decoder.run]
    rw [show min run (n - d.pixelIndex) = min (n - runs.sum) run by omega]

theorem RunsDecoded.length_buffer (h : RunsDecoded table n runs starts d) : d.buffer.length = d.pixelIndex := by
  rw [h.buffer, h.pixels, List.length_take, length_runPixels]

/-- R131: the pixels decoded before a fault, and paper for the rest. -/
theorem RunsDecoded.fillPaper_buffer (h : RunsDecoded table n runs starts d) (hroom : runs.sum < n) (p : Nat) :
    (Decoder.fillPaper { d with bitPos := p } n).buffer
      = runPixels runs ++ List.replicate (n - (runPixels runs).length) false := by
  have hpixels := h.pixels
  simp only [Decoder.fillPaper, h.buffer]
  rw [List.take_of_length_le (by rw [length_runPixels]; omega), length_runPixels,
    show n - d.pixelIndex = n - runs.sum by omega]

/-- R130: the runs that a decoding reads: it ends with the glyph's N pixels, or at the symbol that stops short. -/
theorem View.decodeRuns_reads (fuel : Nat) (hread : RunsRead v a len t n runs starts)
    (hdone : RunsDecoded table n runs starts d) (hfuel : n ≤ fuel + d.pixelIndex) :
    ∃ runs' starts' d', RunsRead v a len t n runs' starts' ∧ RunsDecoded table n runs' starts' d' ∧
      ((n ≤ runs'.sum ∧ v.decodeRuns a len t n fuel d = (d', none)) ∨
        (runs'.sum < n ∧ ∃ e, v.streamSymbol a len t d'.bitPos = .error e ∧
          v.decodeRuns a len t n fuel d = ({ d' with bitPos := e.bitPos }, some e.stop))) := by
  induction fuel generalizing runs starts d with
  | zero =>
    have hpixels := hdone.pixels
    exact ⟨runs, starts, d, hread, hdone, .inl ⟨by omega, rfl⟩⟩
  | succ fuel ih =>
    have hpixels := hdone.pixels
    rw [View.decodeRuns]
    by_cases hfull : n ≤ d.pixelIndex
    · rw [if_pos hfull]
      exact ⟨runs, starts, d, hread, hdone, .inl ⟨by omega, rfl⟩⟩
    · rw [if_neg hfull]
      have hroom : runs.sum < n := by omega
      cases hsymbol : v.streamSymbol a len t d.bitPos with
      | error e => exact ⟨runs, starts, d, hread, hdone, .inr ⟨hroom, e, hsymbol, rfl⟩⟩
      | ok x =>
        obtain ⟨run, q⟩ := x
        have hpos := View.streamSymbol_pos hsymbol
        refine ih (hread.concat hdone.bitPos hroom hsymbol) (hdone.run run q) ?_
        simp only [Decoder.run]
        omega

/-- R130, R131, R133: the runs that a glyph's decoding reads, and how it ends: with the N pixels, in a fault with paper
from there on, or in a memory error without a pixel. -/
theorem View.decodeGlyph_reads (v : View) (d : Decoder) (t : RunTable) (a len n : Nat) :
    ∃ runs starts d', RunsRead v a len t n runs starts ∧ RunsDecoded d.table n runs starts d' ∧
      ((n ≤ runs.sum ∧ v.decodeGlyph d t a len n = (d', none)) ∨
        (runs.sum < n ∧ ∃ p,
          (∃ f, v.streamSymbol a len t d'.bitPos = .error { stop := .fault f, bitPos := p } ∧
            v.decodeGlyph d t a len n = (Decoder.fillPaper { d' with bitPos := p } n, some (.fault f))) ∨
          ∃ f, v.streamSymbol a len t d'.bitPos = .error { stop := .memory f, bitPos := p } ∧
            v.decodeGlyph d t a len n = ({ d' with bitPos := p, buffer := [] }, some (.memory f)))) := by
  obtain ⟨runs, starts, d', hread, hdone, hend⟩ :=
    View.decodeRuns_reads n (RunsRead.nil (v := v) (a := a) (len := len) (t := t)) (d.start_decoded n)
      (Nat.le_add_right _ _)
  refine ⟨runs, starts, d', hread, hdone, hend.imp (And.imp_right fun heq => ?_) (And.imp_right ?_)⟩
  · rw [View.decodeGlyph, heq]
  · rintro ⟨⟨f | f, p⟩, hsymbol, heq⟩
    · exact ⟨p, .inl ⟨f, hsymbol, by rw [View.decodeGlyph, heq]⟩⟩
    · exact ⟨p, .inr ⟨f, hsymbol, by rw [View.decodeGlyph, heq]⟩⟩

theorem Decoder.length_fillPaper (d : Decoder) (n : Nat) (hbuffer : d.buffer.length = d.pixelIndex)
    (hroom : d.pixelIndex ≤ n) :
    (d.fillPaper n).buffer.length = n := by
  simp only [Decoder.fillPaper, List.length_append, List.length_replicate, hbuffer]
  omega

/-- R130, R131: a glyph that is laid has its N pixels. -/
theorem View.length_decodeGlyph (v : View) (d : Decoder) (t : RunTable) (a len n : Nat)
    (h : ∀ f, (v.decodeGlyph d t a len n).2 ≠ some (.memory f)) : (v.decodeGlyph d t a len n).1.buffer.length = n := by
  obtain ⟨runs, starts, d', -, hdone, ⟨hfull, heq⟩ | ⟨-, p, ⟨f, -, heq⟩ | ⟨f, -, heq⟩⟩⟩ := v.decodeGlyph_reads d t a len n
  · rw [heq, hdone.length_buffer, hdone.pixels, Nat.min_eq_left hfull]
  · rw [heq]
    exact Decoder.length_fillPaper _ n hdone.length_buffer (hdone.pixels ▸ Nat.min_le_left _ _)
  · exact absurd (congrArg Prod.snd heq) (h f)

/-- R133: a glyph lost to a memory error has no pixel. -/
theorem View.decodeGlyph_lost {v : View} {d : Decoder} {t : RunTable} {a len n : Nat} {f : MemFail}
    (h : (v.decodeGlyph d t a len n).2 = some (.memory f)) : (v.decodeGlyph d t a len n).1.buffer = [] := by
  obtain ⟨runs, starts, d', -, -, ⟨-, heq⟩ | ⟨-, p, ⟨g, -, heq⟩ | ⟨g, -, heq⟩⟩⟩ := v.decodeGlyph_reads d t a len n
  · cases h.symm.trans (congrArg Prod.snd heq)
  · cases h.symm.trans (congrArg Prod.snd heq)
  · rw [heq]

end

/-! ### The laying of a glyph (R110, R55, R134) -/

/-- R55: the magnified pixel that covers a place on an axis, from the glyph's first pixel on. -/
theorem covers_iff {first x : Int} {zoom k : Nat} :
    (0 < zoom ∧ first ≤ x ∧ (x - first).toNat / zoom = k) ↔
      first + (zoom * k : Nat) ≤ x ∧ x < first + (zoom * (k + 1) : Nat) := by
  rcases Nat.eq_zero_or_pos zoom with rfl | hzoom
  · simp
  · rw [Nat.div_eq_iff hzoom, Nat.mul_succ, Nat.mul_comm k]
    omega

/-- R110: the glyph's pixel that covers a place of its window is ink. -/
theorem GlyphJob.inkAt_eq_true (j : GlyphJob) (buffer : List Bool) (x y : Nat) : j.inkAt buffer x y = true ↔
    ∃ row col, row < j.height ∧ col < j.width ∧ buffer[row * j.width + col]? = some true ∧
      (0 < j.zoomH ∧ j.pen ≤ x ∧ ((x : Int) - j.pen).toNat / j.zoomH = col) ∧
      (0 < j.zoomV ∧ (j.top : Int) ≤ y ∧ ((y : Int) - j.top).toNat / j.zoomV = row) := by
  have hrow : ((y : Int) - j.top).toNat = y - j.top := Int.toNat_sub y j.top
  have hpixel (k : Nat) : buffer.getD k false = true ↔ buffer[k]? = some true := by
    rw [List.getD_eq_getElem?_getD]
    cases buffer[k]? <;> simp
  unfold GlyphJob.inkAt
  dsimp only
  rw [hrow]
  constructor
  · intro h
    split at h
    · cases h
    · split at h
      · next hin hbox =>
        exact ⟨_, _, hbox.2, hbox.1, (hpixel _).mp h, ⟨by omega, by omega, rfl⟩, by omega, by omega, rfl⟩
      · cases h
  · rintro ⟨_, _, hh, hw, hink, ⟨hzoomH, hx, rfl⟩, hzoomV, hy, rfl⟩
    rw [if_neg (by omega), if_pos ⟨hw, hh⟩]
    exact (hpixel _).mpr hink

/-- R110, R55: the pixels of its window where a glyph has ink: those that an ink pixel of the glyph, magnified, covers. -/
theorem GlyphJob.inkAt_iff (j : GlyphJob) (buffer : List Bool) (x y : Nat) : j.inkAt buffer x y = true ↔
    ∃ row col, row < j.height ∧ col < j.width ∧ buffer[row * j.width + col]? = some true ∧
      j.pen + (j.zoomH * col : Nat) ≤ x ∧ (x : Int) < j.pen + (j.zoomH * (col + 1) : Nat) ∧
      j.top + j.zoomV * row ≤ y ∧ y < j.top + j.zoomV * (row + 1) := by
  rw [GlyphJob.inkAt_eq_true]
  simp only [covers_iff]
  refine exists_congr fun row => exists_congr fun col => ?_
  rw [and_assoc (a := j.pen + _ ≤ _)]
  norm_cast

/-- R110: what the laying of a glyph does to the image, whatever glyphs are left. -/
theorem Composition.lay_painted (c : Composition) (rest : List GlyphJob) (j : GlyphJob) (buffer : List Bool) :
    c.painted (Composition.lay { c with glyphs := rest } j buffer) j.area j.win
      (fun x y b => if j.inkAt buffer x y then BitVec.ofNat 8 j.ink else b) :=
  Composition.paint_painted { c with glyphs := rest } j.area j.win _

/-- R132: the content fault and its flag. -/
theorem Part.contentFault_eq (p : Part) (glyph : Nat) (f : StreamFault) :
    p.contentFault glyph f = { p with rep := { p.rep with
      contentFault := some { glyph := glyph, cause := f }, attention := p.rep.attention ||| 0x200#10 } } := rfl

section
variable {v : View} {d : Decoder} {copy : Nat} {j : GlyphJob}

theorem View.decodeJob_read {area : Nat} {t : RunTable} (harea : v.u32 (copy + 0x20) = .ok area)
    (ht : d.table = some t) :
    v.decodeJob d copy j = v.decodeGlyph d t (copy + area + j.offset) j.length (j.width * j.height) := by
  rw [View.decodeJob, harea, ht]

theorem View.decodeJob_unread {f : MemFail} (hf : v.u32 (copy + 0x20) = .error f) :
    v.decodeJob d copy j = ({ d.start with buffer := [] }, some (.memory f)) := by
  rw [View.decodeJob, hf]

end

/-- R134: the end of the first glyph's decoding. -/
theorem Part.endGlyph_eq {p : Part} {c : Composition} {j : GlyphJob} {rest : List GlyphJob} {pin : ContentPin}
    (hcomp : p.cmp.comp = some c) (hglyphs : c.glyphs = j :: rest) (hpin : c.pin = some pin) (bus : Bus) :
    p.endGlyph bus = (p.hostWrites bus).glyphDecoded { c with glyphs := rest } j
      (((p.hostWrites bus).view bus).decodeJob p.cmp.decoder pin.address j) := by
  simp only [Part.endGlyph, hcomp, hglyphs, hpin]
  rfl

section
variable (p : Part) (c : Composition) (j : GlyphJob) {r : Decoder × Option StreamStop}

theorem Part.glyphDecoded_laid (h : r.2 = none) :
    p.glyphDecoded c j r = Part.setComp { p with cmp := { p.cmp with decoder := r.1 } } (c.lay j r.1.buffer) := by
  rw [Part.glyphDecoded, h]

theorem Part.glyphDecoded_fault {f : StreamFault} (h : r.2 = some (.fault f)) : p.glyphDecoded c j r =
    (Part.setComp { p with cmp := { p.cmp with decoder := r.1 } } (c.lay j r.1.buffer)).contentFault j.glyph f := by
  rw [Part.glyphDecoded, h]

theorem Part.glyphDecoded_memory {f : MemFail} (h : r.2 = some (.memory f)) : p.glyphDecoded c j r =
    (Part.setComp { p with cmp := { p.cmp with decoder := r.1 } } c).memoryError .composer f.address f.cause := by
  rw [Part.glyphDecoded, h]
  rfl

end

/-- Settles O43: the run code table and the bits, the symbols, the runs of a glyph, and what the end of its decoding does. -/
theorem glyphsAreDecodedAndLaid : Obligations.GlyphsAreDecodedAndLaid := by
  refine ⟨fun v d t a len n => ?_, fun t r => ⟨fun h => RunTable.tailBits_short h r, fun h x => RunTable.tailBits_entry h,
      t.base_eq_sum r, RunTable.endIndex_off, RunTable.endIndex_eq_some⟩,
    fun v a len i => ⟨View.streamBit_past, fun hi => ⟨fun b => View.streamBit_byte hi, fun f => View.streamBit_unread hi⟩⟩,
    fun v t a len pos hentries => ⟨fun run next => View.streamSymbol_ok_iff hentries,
      fun p => View.streamSymbol_prefixFault_iff hentries, fun e p => View.streamSymbol_error⟩,
    fun v d t a len n => ?_, fun v d copy j => ⟨fun area t => View.decodeJob_read, fun f => View.decodeJob_unread⟩, ?_,
    Part.contentFault_eq⟩
  · refine ⟨fun h => v.length_decodeGlyph d t a len n fun f hf => ?_, fun f => View.decodeGlyph_lost⟩
    rcases h with h | ⟨g, h⟩ <;> cases h.symm.trans hf
  · intro r
    obtain ⟨runs, starts, d', hread, hdone, hend⟩ := v.decodeGlyph_reads d t a len n
    have hlast {p : Nat} (hp : starts.getLast? = some p) : p = d'.bitPos := Option.some.inj (hp.symm.trans hdone.bitPos)
    refine ⟨runs, starts, hread.length, hread.first, hread.symbols, ?_⟩
    dsimp only
    obtain ⟨hfull, hr⟩ | ⟨hroom, q, ⟨f, hsymbol, hr⟩ | ⟨f, hsymbol, hr⟩⟩ := hend
    · rw [show r = _ from hr]
      exact ⟨hdone.table, hdone.pixels, hdone.ink, fun _ => ⟨hfull, hdone.buffer, hdone.bitPos⟩, nofun, nofun⟩
    · rw [show r = _ from hr]
      refine ⟨hdone.table, hdone.pixels, hdone.ink, nofun, fun g hg => ?_, nofun⟩
      cases hg
      exact ⟨hroom, fun p hp => hlast hp ▸ hsymbol, hdone.fillPaper_buffer hroom q⟩
    · rw [show r = _ from hr]
      refine ⟨hdone.table, hdone.pixels, hdone.ink, nofun, nofun, fun g hg => ?_⟩
      cases hg
      exact ⟨hroom, fun p hp => hlast hp ▸ hsymbol⟩
  · intro s bus c j rest pin hcomp hglyphs hpin mem landed r decoded ink laid
    have hend := Part.endGlyph_eq hcomp hglyphs hpin bus
    have hlaid : laid (Composition.lay { c with glyphs := rest } j r.1.buffer) := by
      refine ⟨rfl, _, c.lay_painted rest j r.1.buffer, fun x y b => ⟨fun h => ?_, fun h => ?_⟩⟩
      · exact if_pos ((j.inkAt_iff r.1.buffer x y).mpr h)
      · exact if_neg fun hink => h ((j.inkAt_iff r.1.buffer x y).mp hink)
    refine ⟨fun h => ⟨_, hlaid, ?_⟩, fun f h => ⟨_, hlaid, ?_⟩, fun f h => ?_⟩
    · exact exec_next (·.endGlyph bus) rfl (hend.trans (Part.glyphDecoded_laid _ _ j h))
    · exact exec_next (·.endGlyph bus) rfl (hend.trans (Part.glyphDecoded_fault _ _ j h))
    · exact exec_next (·.endGlyph bus) rfl (hend.trans (Part.glyphDecoded_memory _ _ j h))

end Sys2Proof.Machine
end

section
/-! PROOF. The frames of a line and the outcome of an exchange (R135, R136, R139), and a panel's record after an outcome
(R139, R140, R143, R147); O45 and O48. -/

namespace Sys2Proof.Machine

/-! ### Characters and frames (R135, R136) -/

/-- The exclusive or over a list is the parity of the count of ones. -/
theorem foldl_xor_map {α : Type} (f : α → Bool) (xs : List α) (b : Bool) :
    (xs.map f).foldl xor b = xor b (decide ((xs.filter f).length % 2 = 1)) := by
  induction xs generalizing b with
  | nil => simp
  | cons x rest ih =>
    rw [List.map_cons, List.foldl_cons, ih]
    cases hx : f x
    · simp [hx]
    · have hodd : decide (((rest.filter f).length + 1) % 2 = 1) = !decide ((rest.filter f).length % 2 = 1) := by
        rw [← decide_not, decide_eq_decide]
        omega
      simp [hx, hodd]

/-- R135: the parity bit is 1 exactly where the data bits hold an odd count of ones. -/
theorem evenParity_eq (b : Byte) :
    evenParity b = decide (((List.range 8).filter (fun i => b.toNat.testBit i)).length % 2 = 1) := by
  rw [evenParity, foldl_xor_map, Bool.false_xor]

/-- R136: one bit into the CRC register. -/
theorem crcBit_eq (r : Half16) (bit : Bool) :
    crcBit r bit = if r.msb ≠ bit then (r <<< 1) ^^^ 0x1021#16 else r <<< 1 := by
  simp only [crcBit, Bool.xor_iff_ne]

/-- R136: one more byte of a CRC. -/
theorem crc16_append (bs : List Byte) (b : Byte) : crc16 (bs ++ [b]) = crcByte (crc16 bs) b := by
  simp [crc16]

/-! ### Outcomes (R139) -/

/-- R135: what makes a character error. -/
theorem RxChar.good_eq_false (c : RxChar) :
    RxChar.good c = false ↔ c.parity ≠ evenParity c.data ∨ c.stop = false := by
  simp only [RxChar.good, Bool.and_eq_false_iff, decide_eq_false_iff_not, ne_eq]

/-- R139, rows 2 to 5, of a reply with at least one character. -/
theorem outcomeOf_begun {cs : List RxChar} (h : cs ≠ []) (l : Line) (a : Nat) :
    outcomeOf l a cs
      = if ∃ c ∈ cs, c.parity ≠ evenParity c.data ∨ c.stop = false then .failure .char
        else if cs.length ≠ 9 ∨ replyByte cs 2 + 256 * replyByte cs 3 ≠ 3 then .failure .length
        else if (crc16 ((cs.take 7).map (·.data))).toNat ≠ replyByte cs 7 + 256 * replyByte cs 8 then .failure .check
        else if replyByte cs 0 ≠ a then .failure .address
        else statusOutcome l cs := by
  simp only [outcomeOf, List.isEmpty_iff, if_neg h, List.any_eq_true, Bool.not_eq_true', RxChar.good_eq_false]

/-- Settles O45: the parity by the count of ones, the CRC byte by byte, and the nine rows in order. -/
theorem framesAndOutcomes : Obligations.FramesAndOutcomes := by
  refine ⟨fun b => ?_, fun address kind payload => rfl, ⟨rfl, fun bs b => ?_⟩, ?_⟩
  · rw [evenParity_eq]
    simp only [decide_eq_true_eq]
    split <;> omega
  · intro shift
    simp only [crc16_append, crcByte, List.foldl_cons, List.foldl_nil, crcBit_eq]
    rfl
  · intro l a cs byte size r1 r2 r3 r4 r5 r6
    have hsize : sizeCode l = size := by cases l <;> rfl
    have hrows (h : ¬ r1) : outcomeOf l a cs = if r2 then .failure .char else if r3 then .failure .length
        else if r4 then .failure .check else if r5 then .failure .address else if r6 then .failure .length
        else if byte 4 = 1 then .failure .check else if byte 4 = 2 then .notReady (byte 5) else .good (byte 5) := by
      rw [outcomeOf_begun h, statusOutcome, hsize]
      rfl
    refine ⟨fun h => by rw [show cs = [] from h]; rfl, fun h h2 => ?_, fun h h2 h3 => ?_, fun h h2 h3 h4 => ?_,
      fun h h2 h3 h4 h5 => ?_, fun h h2 h3 h4 h5 => ?_⟩ <;> rw [hrows h]
    · rw [if_pos h2]
    · rw [if_neg h2, if_pos h3]
    · rw [if_neg h2, if_neg h3, if_pos h4]
    · rw [if_neg h2, if_neg h3, if_neg h4, if_pos h5]
    · rw [if_neg h2, if_neg h3, if_neg h4, if_neg h5]
      refine ⟨fun h6 => if_pos h6, fun h6 => ?_⟩
      rw [if_neg h6]
      exact ⟨fun hb => if_pos hb, fun hb => by rw [hb]; rfl, fun hb => by rw [hb]; rfl⟩

/-! ### A panel's record (R139, R140, R143, R147) -/

/-- R140: a counter holds at 65535. -/
theorem countUp_eq (n : Nat) : countUp n = if n < 65535 then n + 1 else 65535 := by
  unfold countUp
  split <;> omega

/-- R140: the counters after a failure. -/
theorem Counters.count_eq (c : Counters) (f : Failure) (h : Health) :
    c.count f h = match f with
      | .noReply => if h = .absent then c
                    else { c with noReply := if c.noReply < 65535 then c.noReply + 1 else 65535 }
      | .char => { c with char := if c.char < 65535 then c.char + 1 else 65535 }
      | .length => { c with length := if c.length < 65535 then c.length + 1 else 65535 }
      | .check => { c with check := if c.check < 65535 then c.check + 1 else 65535 }
      | .address => { c with address := if c.address < 65535 then c.address + 1 else 65535 } := by
  cases f <;> simp only [Counters.count, countUp_eq]

section
variable {q : Panel}

/-- R147: the QUERY of a panel that is probed is due when its countdown stands at 0. -/
theorem Panel.judgeQuery_probed (h : q.health = .absent ∨ q.health = .offline) :
    q.judgeQuery = { q with queryDue := decide (q.probe = 0) } := by
  rcases h with h | h <;> rw [Panel.judgeQuery, Panel.countedOut, h]

/-- R147: the QUERY of an ONLINE panel is due when its idle count stands at 16. -/
theorem Panel.judgeQuery_online (h : q.health = .online) :
    q.judgeQuery = { q with queryDue := decide (q.idle = 16) } := by
  rw [Panel.judgeQuery, Panel.countedOut, h]

/-- R147: no QUERY of a JOINING or FAILING panel is due by count. -/
theorem Panel.judgeQuery_asked (h : q.health = .joining ∨ q.health = .failing) :
    q.judgeQuery = { q with queryDue := false } := by
  rcases h with h | h <;> rw [Panel.judgeQuery, Panel.countedOut, h]

/-- R143: a panel that has never answered, or has gone OFFLINE, joins at a GOOD. -/
theorem Panel.afterGood_joins (h : q.health = .absent ∨ q.health = .offline) :
    q.afterGood = { q with health := .joining, goodRun := 0 } := by
  rcases h with h | h <;> rw [Panel.afterGood, h]

/-- R143: a GOOD of a JOINING panel, the third or not. -/
theorem Panel.afterGood_joining (h : q.health = .joining) :
    q.afterGood = if 2 ≤ q.goodRun then { q with health := .online, goodRun := q.goodRun + 1, failRun := 0 }
      else { q with goodRun := q.goodRun + 1 } := by
  rw [Panel.afterGood, h]
  simp only [Nat.reduceLeDiff]

/-- R143: a GOOD leaves an ONLINE panel so. -/
theorem Panel.afterGood_online (h : q.health = .online) : q.afterGood = q := by
  rw [Panel.afterGood, h]

/-- R143: a FAILING panel is ONLINE again at a GOOD. -/
theorem Panel.afterGood_failing (h : q.health = .failing) :
    q.afterGood = { q with health := .online, failRun := 0 } := by
  rw [Panel.afterGood, h]

/-- R143: an ABSENT panel joins at a NOT_READY. -/
theorem Panel.afterNotReady_absent (h : q.health = .absent) :
    q.afterNotReady = { q with health := .joining, goodRun := 0 } := by
  rw [Panel.afterNotReady, h]

/-- R143: NOT_READY moves the health of an ABSENT panel alone. -/
theorem Panel.afterNotReady_of_ne (h : q.health ≠ .absent) : q.afterNotReady = q := by
  unfold Panel.afterNotReady
  split
  · contradiction
  all_goals rfl

/-- R143: a failure leaves the health of a panel that is probed. -/
theorem Panel.afterFailure_probed (h : q.health = .absent ∨ q.health = .offline) : q.afterFailure = q := by
  rcases h with h | h <;> rw [Panel.afterFailure, h]

/-- R143: a failure takes a JOINING panel OFFLINE. -/
theorem Panel.afterFailure_joining (h : q.health = .joining) : q.afterFailure = q.goOffline := by
  rw [Panel.afterFailure, h]

/-- R143: the first failure of an ONLINE panel. -/
theorem Panel.afterFailure_online (h : q.health = .online) :
    q.afterFailure = { q with health := .failing, failRun := 1 } := by
  rw [Panel.afterFailure, h]

/-- R143: a failure of a FAILING panel, the fourth in a row or not. -/
theorem Panel.afterFailure_failing (h : q.health = .failing) :
    q.afterFailure = if 3 ≤ q.failRun then Panel.goOffline { q with failRun := q.failRun + 1 }
      else { q with failRun := q.failRun + 1 } := by
  rw [Panel.afterFailure, h]
  simp only [Nat.reduceLeDiff]

end

/-- Settles O48, by the health before the outcome. -/
theorem healthMovesByOutcome : Obligations.HealthMovesByOutcome := by
  refine ⟨fun q n => ?_, fun q k => ?_⟩
  · intro g r seen
    let x : Panel := { q with idle := 0, light := some n }
    have hgood : g = x.afterGood.judgeQuery := rfl
    have hnot : r = x.afterNotReady.judgeQuery := rfl
    rw [hgood, hnot]
    refine ⟨fun h => ?_, fun h hrun => ?_, fun h hrun => ?_, fun h => ?_, fun h => ?_, fun h => ?_, fun h => ?_,
      fun h h' => ?_⟩
    · rw [Panel.afterGood_joins (q := x) h, Panel.judgeQuery_asked (Or.inl rfl)]
    · rw [Panel.afterGood_joining (q := x) h, if_neg (Nat.not_le.mpr hrun)]
      exact Panel.judgeQuery_asked (Or.inl h)
    · rw [Panel.afterGood_joining (q := x) h, if_pos hrun, Panel.judgeQuery_online rfl]
      rfl
    · rw [Panel.afterGood_online (q := x) h, Panel.judgeQuery_online (q := x) h]
      rfl
    · rw [Panel.afterGood_failing (q := x) h, Panel.judgeQuery_online rfl]
      rfl
    · rw [Panel.afterNotReady_absent (q := x) h, Panel.judgeQuery_asked (Or.inl rfl)]
    · have hne : x.health ≠ .absent := fun ha => nomatch h.symm.trans ha
      rw [Panel.afterNotReady_of_ne hne, Panel.judgeQuery_probed (q := x) (Or.inr h)]
    · rw [Panel.afterNotReady_of_ne (q := x) h]
      cases hq : x.health with
      | absent => exact absurd hq h
      | offline => exact absurd hq h'
      | online => exact Panel.judgeQuery_online hq
      | joining => exact Panel.judgeQuery_asked (Or.inl hq)
      | failing => exact Panel.judgeQuery_asked (Or.inr hq)
  · intro counted counters b failed out
    let x : Panel := { q with idle := 0, counters := counters }
    have hfail : b = x.afterFailure.judgeQuery :=
      congrArg (fun n : Counters => (Panel.afterFailure { q with idle := 0, counters := n }).judgeQuery)
        (q.counters.count_eq k q.health)
    rw [hfail]
    refine ⟨fun h => ?_, fun h => ?_, fun h => ?_, fun h hrun => ?_, fun h hrun => ?_⟩
    · rw [Panel.afterFailure_probed (q := x) h, Panel.judgeQuery_probed (q := x) h]
    · rw [Panel.afterFailure_joining (q := x) h, Panel.judgeQuery_probed (Or.inr rfl)]
      rfl
    · rw [Panel.afterFailure_online (q := x) h, Panel.judgeQuery_asked (Or.inr rfl)]
    · rw [Panel.afterFailure_failing (q := x) h, if_neg (Nat.not_le.mpr hrun)]
      exact Panel.judgeQuery_asked (Or.inr h)
    · rw [Panel.afterFailure_failing (q := x) h, if_pos hrun, Panel.judgeQuery_probed (Or.inr rfl)]
      rfl

end Sys2Proof.Machine
end

section
/-! PROOF. The groups of a line, its rounds and its panels at a sweep boundary (R147, R149, R151); O49. -/

namespace Sys2Proof.Machine

/-! ### A group of a line -/

section
variable (c : LineCtl) {g : Nat} (f : Group → Group)

/-- The groups after one is changed. -/
theorem LineCtl.changeGroup_eq_set (h : g < c.groups.length) :
    c.changeGroup g f = { c with groups := c.groups.set g (f (c.group g)) } := by
  have hx : c.groups[g]? = some (c.group g) := by
    rw [LineCtl.group, List.getD_eq_getElem?_getD, List.getElem?_eq_getElem h]
    rfl
  rw [LineCtl.changeGroup, changeAt_eq_set f g c.groups _ hx]

/-- The group that is changed. -/
theorem LineCtl.group_changeGroup (h : g < c.groups.length) : (c.changeGroup g f).group g = f (c.group g) := by
  rw [c.changeGroup_eq_set f h, LineCtl.group, List.getD_eq_getElem?_getD, List.getElem?_set_self h]
  rfl

/-- The groups beside the one that is changed. -/
theorem LineCtl.group_changeGroup_of_ne {k : Nat} (h : k ≠ g) : (c.changeGroup g f).group k = c.group k := by
  rw [LineCtl.group, LineCtl.changeGroup, List.getD_eq_getElem?_getD, getElem?_changeAt, if_neg h,
    ← List.getD_eq_getElem?_getD]
  rfl

end

/-- A group after every one is changed by its number. -/
theorem getD_mapGroups (f : Nat → Group → Group) {xs : List Group} {g : Nat} (h : g < xs.length) (d : Group) :
    (mapGroups f 0 xs).getD g d = f g (xs.getD g d) := by
  rw [List.getD_eq_getElem?_getD, getElem?_mapGroups, Nat.zero_add, List.getD_eq_getElem?_getD,
    List.getElem?_eq_getElem h]
  rfl

/-- Two changes of every group, one after the other. -/
theorem mapGroups_mapGroups (f k : Nat → Group → Group) (n : Nat) (xs : List Group) :
    mapGroups f n (mapGroups k n xs) = mapGroups (fun g x => f g (k g x)) n xs := by
  induction xs generalizing n with
  | nil => rfl
  | cons x rest ih => simp only [mapGroups, ih]

/-- The configuration in force of a group. -/
theorem LineCtl.isGrouped_eq {c : LineCtl} {f : LineConfig} (h : c.config = some f) (g : Nat) :
    c.isGrouped g = (f.group g).grouped := by
  rw [LineCtl.isGrouped, h]

theorem LineCtl.hold_eq {c : LineCtl} {f : LineConfig} (h : c.config = some f) (g : Nat) :
    c.hold g = (f.group g).hold := by
  rw [LineCtl.hold, h]

/-! ### The rounds of a group (R149, R151) -/

section
variable {x : Group} {r : Round}

/-- R151: with a member left, a SHOW becomes due when all are staged. -/
theorem Group.judgeRound_members (hr : x.round = some r) (h : r.members ≠ []) :
    x.judgeRound = { x with showDue := x.showDue || r.members.all (·.staged) } := by
  obtain ⟨round, due⟩ := x
  obtain rfl : round = some r := hr
  cases hfull : r.members.all (·.staged) <;> simp [Group.judgeRound, h, Round.full, hfull]

/-- R151: a round of no members closes. -/
theorem Group.judgeRound_nil (hr : x.round = some r) (h : r.members = []) :
    x.judgeRound = { x with round := none, showDue := false } := by
  rw [Group.judgeRound, hr]
  simp [h]

/-- R149: an open round at its hold limit has its SHOW due, an earlier one as it was. -/
theorem Group.judgeHold_round (hr : x.round = some r) (hold : Nat) :
    x.judgeHold hold = { x with showDue := x.showDue || decide (hold ≤ r.age) } := by
  obtain ⟨round, due⟩ := x
  obtain rfl : round = some r := hr
  by_cases h : hold ≤ r.age <;> simp [Group.judgeHold, h]

theorem Group.judgeHold_closed (hr : x.round = none) (hold : Nat) : x.judgeHold hold = x := by
  rw [Group.judgeHold, hr]

/-- R149: an open round is a sweep older. -/
theorem Group.grow_round (hr : x.round = some r) :
    x.grow = { x with round := some { r with age := min (r.age + 1) 15 } } := by
  rw [Group.grow, hr]

theorem Group.grow_closed (hr : x.round = none) : x.grow = x := by
  rw [Group.grow, hr]

/-- R149: a group with an open round opens no other. -/
theorem Group.openWith_round (hr : x.round = some r) (members : List Member) : x.openWith members = x := by
  rw [Group.openWith, hr]

/-- R149: a group opens a round of the panels that have work, where there are any. -/
theorem Group.openWith_closed (hr : x.round = none) {members : List Member} (h : members ≠ []) :
    x.openWith members = { x with round := some { members := members, age := 0 }
                                  showDue := x.showDue || members.all (·.staged) } := by
  rw [Group.openWith, hr]
  simp only [List.isEmpty_iff, if_neg h]
  exact Group.judgeRound_members (x := { x with round := some { members := members, age := 0 } }) rfl h

theorem Group.openWith_nil (x : Group) : x.openWith [] = x := by
  unfold Group.openWith
  split <;> rfl

end

/-! ### The panels with work (R149) -/

/-- R149: what gives a panel work. -/
theorem Part.panelWork_iff (p : Part) (l : Line) (q : Panel) : p.panelWork l q = true ↔
    q.address ∈ p.cmp.refresh l ∨ (∃ x ∈ p.cmp.slots, x.state.panel = some (l, q.address)) ∨ q.owed = true := by
  simp [Part.panelWork, or_assoc]

/-- R149: the members of a round that would open now. -/
theorem Part.mem_roundMembers (p : Part) (l : Line) (g : Nat) (m : Member) : m ∈ p.roundMembers l g ↔
    ∃ q ∈ (p.line l).panels, q.group = g ∧ p.panelWork l q = true ∧ m = { address := q.address, staged := q.owed } := by
  simp only [Part.roundMembers, List.mem_map, List.mem_filter, beq_iff_eq, and_assoc, eq_comm (a := m)]

/-- R147: the counts move at a sweep boundary, the address, the group and the show owed do not. -/
theorem Panel.sweep_keeps (q : Panel) :
    q.sweep.address = q.address ∧ q.sweep.group = q.group ∧ q.sweep.owed = q.owed := by
  unfold Panel.sweep
  split <;> exact ⟨rfl, rfl, rfl⟩

/-- R149: the counts of R147 move no panel in or out of a round that would open. -/
theorem Part.roundMembers_sweep (p : Part) (l : Line) (g : Nat) {c : LineCtl}
    (h : c.panels = (p.line l).panels.map Panel.sweep) : (p.setLine l c).roundMembers l g = p.roundMembers l g := by
  have hwork (q : Panel) : (p.setLine l c).panelWork l q.sweep = p.panelWork l q := by
    simp [Part.panelWork, Panel.sweep_keeps]
  simp [Part.roundMembers, h, List.filter_map, Function.comp_def, hwork, Panel.sweep_keeps]

/-! ### The sweep boundary (R147, R149) -/

section
variable {q : Panel}

/-- R147: the idle count of an ONLINE panel. -/
theorem Panel.sweep_online (h : q.health = .online) :
    q.sweep = { q with idle := min (q.idle + 1) 16, queryDue := decide (15 ≤ q.idle) } := by
  have hfull : (min (q.idle + 1) 16 = 16) = (15 ≤ q.idle) := by
    rw [eq_iff_iff]
    omega
  have hsweep : q.sweep = Panel.judgeQuery { q with idle := min (q.idle + 1) 16 } := by rw [Panel.sweep, h]
  rw [hsweep, Panel.judgeQuery_online (q := { q with idle := min (q.idle + 1) 16 }) h]
  simp only [hfull]

/-- R147: the probe countdown of an ABSENT or OFFLINE panel. -/
theorem Panel.sweep_probed (h : q.health = .absent ∨ q.health = .offline) :
    q.sweep = { q with probe := q.probe - 1, queryDue := decide (q.probe ≤ 1) } := by
  have hend : (q.probe - 1 = 0) = (q.probe ≤ 1) := by
    rw [eq_iff_iff]
    omega
  have hsweep : q.sweep = Panel.judgeQuery { q with probe := q.probe - 1 } := by
    rcases h with h | h <;> rw [Panel.sweep, h]
  rw [hsweep, Panel.judgeQuery_probed (q := { q with probe := q.probe - 1 }) h]
  simp only [hend]

/-- R147: a JOINING or FAILING panel has no count. -/
theorem Panel.sweep_asked (h : q.health = .joining ∨ q.health = .failing) : q.sweep = q := by
  rcases h with h | h <;> rw [Panel.sweep, h]

end

/-- R149: a group at a sweep boundary: its open round ages, or one opens where the group is GROUPED. -/
def LineCtl.sweepGroup (c : LineCtl) (members : Nat → List Member) (g : Nat) (x : Group) : Group :=
  let aged := x.grow.judgeHold (c.hold g)
  if c.isGrouped g then aged.openWith (members g) else aged

/-- R147, R149: a sweep boundary at a line as one update. -/
theorem Part.lineBoundary_eq {p : Part} {l : Line} (h : (p.line l).boundaries ≠ 0) :
    p.lineBoundary l = p.setLine l { p.line l with
      boundaries := (p.line l).boundaries - 1
      groups := mapGroups ((p.line l).sweepGroup (p.roundMembers l)) 0 (p.line l).groups
      panels := (p.line l).panels.map Panel.sweep } := by
  rw [Part.lineBoundary, if_neg h]
  simp only [Part.line_setLine, Part.setLine_setLine, mapGroups_mapGroups, Part.roundMembers_sweep]
  rfl

/-- R149: an open round at a sweep boundary. -/
theorem LineCtl.sweepGroup_round (c : LineCtl) (members : Nat → List Member) (g : Nat) {x : Group} {r : Round}
    (hr : x.round = some r) :
    c.sweepGroup members g x = { x with
      round := some { r with age := min (r.age + 1) 15 }
      showDue := x.showDue || decide (c.hold g ≤ min (r.age + 1) 15) } := by
  have haged := Group.judgeHold_round (x := x.grow) (by rw [Group.grow_round hr]) (c.hold g)
  rw [LineCtl.sweepGroup, Group.openWith_round (by rw [haged, Group.grow_round hr]), ite_self, haged,
    Group.grow_round hr]

/-- R149: a group without a round at a sweep boundary. -/
theorem LineCtl.sweepGroup_closed (c : LineCtl) (members : Nat → List Member) (g : Nat) {x : Group}
    (hr : x.round = none) :
    c.sweepGroup members g x = if c.isGrouped g then x.openWith (members g) else x := by
  rw [LineCtl.sweepGroup, Group.grow_closed hr, Group.judgeHold_closed hr]

/-- Settles O49: the counts panel by panel, the rounds group by group, and the three judgements. -/
theorem lineAgesAtSweepBoundary : Obligations.LineAgesAtSweepBoundary := by
  refine ⟨fun s l hboundaries => ?_, fun s l g a => ?_⟩
  · intro c work
    have hwork (q : Panel) : work q ↔ s.part.panelWork l q = true := (s.part.panelWork_iff l q).symm
    have hmem (g : Nat) (m : Member) : m ∈ s.part.roundMembers l g ↔
        ∃ q ∈ c.panels, q.group = g ∧ work q ∧ m = { address := q.address, staged := q.owed } := by
      simp only [hwork]
      exact s.part.mem_roundMembers l g m
    have hsome (g : Nat) : s.part.roundMembers l g ≠ [] ↔ ∃ q ∈ c.panels, q.group = g ∧ work q := by
      simp only [ne_eq, List.eq_nil_iff_forall_not_mem, not_forall, not_not, hmem]
      exact ⟨fun ⟨m, q, hq, hg, hw, hm⟩ => ⟨q, hq, hg, hw⟩, fun ⟨q, hq, hg, hw⟩ => ⟨_, q, hq, hg, hw, rfl⟩⟩
    refine ⟨_, _, exec_next (·.lineBoundary l) rfl (Part.lineBoundary_eq hboundaries), rfl, rfl, ?_⟩
    simp only [Part.line_setLine, Part.setLine_setLine]
    refine ⟨rfl, ?_, length_mapGroups _ _ _, fun g hg => ?_, rfl, Part.setLine_line _ _⟩
    · refine congrArg (c.panels.map ·) (funext fun q => ?_)
      split
      next hq => exact Panel.sweep_online hq
      next hq => exact Panel.sweep_probed (Or.inl hq)
      next hq => exact Panel.sweep_probed (Or.inr hq)
      next hq => exact Panel.sweep_asked (Or.inl hq)
      next hq => exact Panel.sweep_asked (Or.inr hq)
    · have hgroup : (mapGroups (c.sweepGroup (s.part.roundMembers l)) 0 c.groups).getD g Group.reset
          = c.sweepGroup (s.part.roundMembers l) g (c.group g) := getD_mapGroups _ hg _
      refine ⟨fun r hr => hgroup.trans (c.sweepGroup_round _ g hr), fun hr => ?_⟩
      have hclosed := hgroup.trans (c.sweepGroup_closed (s.part.roundMembers l) g hr)
      refine ⟨fun hidle => hclosed.trans ?_, fun hgrouped hpanels => ⟨s.part.roundMembers l g, ?_, hmem g⟩⟩
      · split
        next hgrouped =>
          have hnil : s.part.roundMembers l g = [] :=
            not_not.mp fun hne => hidle ⟨hgrouped, (hsome g).mp hne⟩
          rw [hnil, Group.openWith_nil]
        next => rfl
      · exact hclosed.trans ((if_pos hgrouped).trans (Group.openWith_closed hr ((hsome g).mpr hpanels)))
  · intro c
    refine ⟨fun r hg hr hhold => ?_, ?_, ?_⟩
    · have hjudged : (c.group g).judgeHold (c.hold g) = { c.group g with showDue := true } := by
        rw [Group.judgeHold_round hr, decide_eq_true hhold, Bool.or_true]
      refine exec_next (·.holdReached l g) rfl ?_
      rw [← hjudged]
      exact congrArg (s.part.setLine l) (c.changeGroup_eq_set _ hg)
    · intro asked
      refine exec_next (fun p => p.setLine l ((p.line l).changePanel a Panel.idleFull)) rfl ?_
      refine congrArg (fun f => s.part.setLine l { c with panels := c.panels.map f }) (funext fun q => ?_)
      exact (ite_and ..).symm
    · intro asked
      refine exec_next (fun p => p.setLine l ((p.line l).changePanel a Panel.probeEnd)) rfl ?_
      refine congrArg (fun f => s.part.setLine l { c with panels := c.panels.map f }) (funext fun q => ?_)
      exact (ite_and ..).symm

end Sys2Proof.Machine
end

section
/-! PROOF. The line arbiter: whose turn it is, the first work present and the exchange that begins (R145 to R148, R151),
and the SHOW decision (R153); O46. -/

namespace Sys2Proof.Machine

/-! ### Round-robin (R145) -/

section
variable {pointer a : Nat} {rising : List Nat} (hsorted : rising.Pairwise (· ≤ ·)) (ha : a ∈ rising)
include hsorted ha

/-- R145: the lowest address above the pointer. -/
theorem roundRobin_above (hp : pointer < a) (hfirst : ∀ b ∈ rising, pointer < b → a ≤ b) :
    roundRobin pointer rising = some a := by
  have hfind : rising.find? (fun b => decide (pointer < b)) = some a := by
    cases h : rising.find? (fun b => decide (pointer < b)) with
    | none => exact absurd (decide_eq_true hp) (List.find?_eq_none.mp h a ha)
    | some b =>
      obtain ⟨hb, before, after, rfl, hbefore⟩ := List.find?_eq_some_iff_append.mp h
      have hab : a ≤ b := hfirst b (by simp) (of_decide_eq_true hb)
      have hba : b ≤ a := by
        rcases List.mem_append.mp ha with ha | ha
        · exact absurd hp (by simpa using hbefore a ha)
        · rcases List.mem_cons.mp ha with rfl | ha
          · exact Nat.le_refl _
          · exact (List.pairwise_cons.mp (List.pairwise_append.mp hsorted).2.1).1 a ha
      rw [Nat.le_antisymm hab hba]
  rw [roundRobin, hfind]

/-- R145: with none above the pointer, the lowest address of all. -/
theorem roundRobin_wraps (hp : ∀ b ∈ rising, b ≤ pointer) (hfirst : ∀ b ∈ rising, a ≤ b) :
    roundRobin pointer rising = some a := by
  have hfind : rising.find? (fun b => decide (pointer < b)) = none :=
    List.find?_eq_none.mpr fun b hb => by simpa using hp b hb
  rw [roundRobin, hfind]
  cases rising with
  | nil => cases ha
  | cons b rest =>
    have hba : b ≤ a := by
      rcases List.mem_cons.mp ha with rfl | ha
      · exact Nat.le_refl _
      · exact (List.pairwise_cons.mp hsorted).1 a ha
    rw [Nat.le_antisymm (hfirst b List.mem_cons_self) hba]
    rfl

end

/-- The addresses of the panels that a test holds of. -/
theorem LineCtl.mem_rising (c : LineCtl) (test : Panel → Bool) (a : Nat) :
    a ∈ c.rising test ↔ ∃ q ∈ c.panels, q.address = a ∧ test q = true := by
  simp only [LineCtl.rising, mem_sortBy, List.mem_map, List.mem_filter, and_assoc]
  exact exists_congr fun q => and_congr_right fun _ => and_comm

theorem LineCtl.rising_sorted (c : LineCtl) (test : Panel → Bool) : (c.rising test).Pairwise (· ≤ ·) :=
  sortBy_sorted id _

section
variable {c : LineCtl} {test : Panel → Bool} {ok : Nat → Prop}
  (hok : ∀ a, ok a ↔ ∃ q ∈ c.panels, q.address = a ∧ test q = true)
include hok

/-- R145: whose turn it is among the panels that a test holds of. -/
theorem LineCtl.roundRobin_turn {pointer a : Nat} (ha : ok a)
    (hturn : (pointer < a ∧ ∀ b, ok b → pointer < b → a ≤ b) ∨ ((∀ b, ok b → b ≤ pointer) ∧ ∀ b, ok b → a ≤ b)) :
    roundRobin pointer (c.rising test) = some a := by
  have hmem (b : Nat) : b ∈ c.rising test ↔ ok b := (c.mem_rising test b).trans (hok b).symm
  simp only [← hmem] at ha hturn
  rcases hturn with ⟨hp, hfirst⟩ | ⟨hp, hfirst⟩
  · exact roundRobin_above (c.rising_sorted test) ha hp hfirst
  · exact roundRobin_wraps (c.rising_sorted test) ha hp hfirst

/-- R145: nobody's turn. -/
theorem LineCtl.roundRobin_none (h : ∀ a, ¬ ok a) (pointer : Nat) : roundRobin pointer (c.rising test) = none := by
  have hnil : c.rising test = [] :=
    List.eq_nil_iff_forall_not_mem.mpr fun a ha => h a ((hok a).mpr ((c.mem_rising test a).mp ha))
  rw [hnil]
  rfl

end

/-! ### The work present (R145 to R147, R151) -/

/-- R151: the SHOW of a group may be sent. -/
theorem Group.sendable_iff (x : Group) (hold : Nat) : x.sendable hold = true ↔
    x.showDue = true ∧ ∃ r, x.round = some r ∧
      ((r.members ≠ [] ∧ ∀ m ∈ r.members, m.staged = true) ∨ hold ≤ r.age) := by
  unfold Group.sendable
  cases hr : x.round with
  | none => simp
  | some r => simp [Round.ready, Round.full]

/-- R150: the panel is an unstaged member of its group's open round. -/
theorem LineCtl.awaitsLoad_iff (c : LineCtl) (q : Panel) : c.awaitsLoad q = true ↔
    ∃ r, (c.group q.group).round = some r ∧ ∃ m ∈ r.members, m.address = q.address ∧ m.staged = false := by
  unfold LineCtl.awaitsLoad
  cases hr : (c.group q.group).round with
  | none => simp
  | some r => simp

/-- R146: a WAITING slot of the panel is eligible. -/
theorem Part.loadable_iff (p : Part) (l : Line) (q : Panel) : p.loadable l q = true ↔
    (q.health = .online ∨ q.health = .failing) ∧ (∃ x ∈ p.cmp.slots, x.state = .waiting l q.address) ∧
      (∀ x ∈ p.cmp.slots, x.state ≠ .rendering l q.address) ∧
      ((p.line l).isGrouped q.group = true → ∃ r, ((p.line l).group q.group).round = some r ∧
        ∃ m ∈ r.members, m.address = q.address ∧ m.staged = false) := by
  simp only [Part.loadable, Bool.and_eq_true, Health.drawn_iff, Composer.holds, List.any_eq_true, decide_eq_true_eq,
    Bool.not_eq_true', List.any_eq_false, Bool.or_eq_true, LineCtl.awaitsLoad_iff, and_assoc, imp_iff_not_or,
    Bool.not_eq_true, ne_eq]

/-- R145: an addressed SHOW is due to the panel. -/
theorem LineCtl.showable_iff (c : LineCtl) (q : Panel) : c.showable q = true ↔
    (q.health = .online ∨ q.health = .failing) ∧ q.owed = true ∧ ¬ c.isGrouped q.group = true := by
  simp only [LineCtl.showable, Bool.and_eq_true, Health.drawn_iff, Bool.not_eq_true', and_assoc, Bool.not_eq_true]

/-- R147: a QUERY is due for the panel. -/
theorem Panel.askable_iff (q : Panel) :
    q.askable = true ↔ q.health = .joining ∨ q.health = .failing ∨ q.queryDue = true := by
  cases h : q.health <;> simp [Panel.askable, h]

/-! ### The first work (R145) -/

section
variable {p : Part} {l : Line}

theorem Part.chooseWork_free {f : LineConfig} (hconfig : (p.line l).config = some f)
    (hexchange : (p.line l).exchange = none) (hquiet : (p.line l).quiet = none) (hrun : p.regs.run = true) :
    p.chooseWork l = p.firstWork l := by
  simp [Part.chooseWork, Part.lineFree, hconfig, hexchange, hquiet, hrun]

theorem Part.firstWork_broadcast {g : Nat} (hdue : (p.line l).dueGroup = some g) :
    p.firstWork l = some (.broadcast g) := by
  simp only [Part.firstWork, hdue]

variable (hdue : (p.line l).dueGroup = none)
include hdue

theorem Part.firstWork_load {a i : Nat}
    (hload : roundRobin (p.line l).loadPtr ((p.line l).rising (p.loadable l)) = some a)
    (hslot : p.cmp.waitingSlot l a = some i) : p.firstWork l = some (.load a i) := by
  simp only [Part.firstWork, hdue, hload, hslot, Option.map_some]

variable (hload : roundRobin (p.line l).loadPtr ((p.line l).rising (p.loadable l)) = none)
include hload

theorem Part.firstWork_show {a : Nat}
    (hshow : roundRobin (p.line l).showPtr ((p.line l).rising (p.line l).showable) = some a) :
    p.firstWork l = some (.showOne a) := by
  simp only [Part.firstWork, hdue, hload, hshow]

theorem Part.firstWork_query {a : Nat}
    (hshow : roundRobin (p.line l).showPtr ((p.line l).rising (p.line l).showable) = none)
    (hquery : roundRobin (p.line l).queryPtr ((p.line l).rising Panel.askable) = some a) :
    p.firstWork l = some (.query a) := by
  simp only [Part.firstWork, hdue, hload, hshow, hquery, Option.map_some]

end

/-! ### The exchange that begins (R146 to R148, R151) -/

/-- R138: an exchange at its beginning, at the rate in force (R135). -/
def LineConfig.sends (f : LineConfig) (us : Word) (kind : ExchangeKind) (address group : Nat) (frame : List Byte) :
    Exchange :=
  { kind := kind, address := address, group := group, frame := frame, rate := f.rate, awaiting := false
    due := us + BitVec.ofNat 32 (sendingTime f.rate frame.length) }

section
variable (p : Part) (l : Line) {f : LineConfig}

/-- A line and the composer are set in either order. -/
theorem Part.setLine_cmp (c : LineCtl) (k : Composer) :
    { p.setLine l c with cmp := k } = Part.setLine { p with cmp := k } l c := by
  cases l <;> rfl

/-- What the beginning of an exchange does to the line. -/
theorem Part.setLine_startExchange {d : LineCtl} (h : d.config = some f) (kind : ExchangeKind) (a g : Nat)
    (frame : List Byte) : (p.setLine l d).startExchange l kind a g frame
      = p.setLine l { d with exchange := some (f.sends p.swp.us kind a g frame) } := by
  simp only [Part.startExchange, Part.line_setLine, Part.setLine_setLine, Part.setLine_keeps, h, Option.map_some,
    Option.getD_some, LineConfig.sends]

variable (hconfig : (p.line l).config = some f)
include hconfig

theorem Part.startBroadcast_eq (g : Nat) : p.startBroadcast l g = p.setLine l { ((p.line l).showDecision f g).1 with
    exchange := some (f.sends p.swp.us (.broadcast ((((p.line l).group g).round.map Round.full).getD false)) 0 g
      (frameOf 0 0x02 [BitVec.ofNat 8 g, BitVec.ofNat 8 ((p.line l).showDecision f g).2])) } := by
  rw [Part.startBroadcast, hconfig]
  exact Part.setLine_startExchange p l (d := ((p.line l).showDecision f g).1) hconfig _ _ _ _

theorem Part.startShow_eq (a : Nat) : p.startShow l a =
    p.setLine l { (LineCtl.showDecision { p.line l with showPtr := a } f ((p.line l).groupOf a)).1 with
      exchange := some (f.sends p.swp.us .showOne a ((p.line l).groupOf a) (frameOf a 0x02
        [BitVec.ofNat 8 ((p.line l).groupOf a),
         BitVec.ofNat 8 (LineCtl.showDecision { p.line l with showPtr := a } f ((p.line l).groupOf a)).2])) } := by
  rw [Part.startShow, hconfig]
  exact Part.setLine_startExchange p l
    (d := (LineCtl.showDecision { p.line l with showPtr := a } f ((p.line l).groupOf a)).1) hconfig _ _ _ _

theorem Part.startQuery_eq (a : Nat) : p.startQuery l a =
    p.setLine l { (p.line l).changePanel a Panel.probed with
      queryPtr := a
      exchange := some (f.sends p.swp.us .query a ((p.line l).groupOf a) (frameOf a 0x03 [])) } :=
  Part.setLine_startExchange p l (d := { (p.line l).changePanel a Panel.probed with queryPtr := a }) hconfig _ _ _ _

theorem Part.startLoad_eq {a i : Nat} {x : Slot} (hx : p.cmp.slots[i]? = some x) : p.startLoad l a i =
    Part.setLine { p with cmp := { p.cmp with slots := p.cmp.slots.set i { x with state := .loading l a } } } l
      { p.line l with
        loadPtr := a
        exchange := some (f.sends p.swp.us (.load i) a ((p.line l).groupOf a)
          (frameOf a 0x01 (BitVec.ofNat 8 ((p.line l).groupOf a) :: x.image))) } := by
  rw [← Part.setLine_startExchange _ l (d := { p.line l with loadPtr := a }) hconfig,
    ← changeAt_eq_set (fun s : Slot => { s with state := .loading l a }) i _ x hx, ← Part.setLine_cmp]
  simp only [Part.startLoad, hx, Part.setLine_keeps]
  rfl

end

/-- R147: the probe countdown begins anew with a probe. -/
theorem Panel.probed_eq (q : Panel) : q.probed =
    if q.health = .absent ∨ q.health = .offline then { q with probe := 32, queryDue := false } else q := by
  obtain ⟨address, group, health⟩ := q
  cases health <;> rfl

/-! ### The SHOW decision (R153) -/

/-- R153: the brighter of two readings is one of them. -/
theorem brighter_mem {x y : Option Nat} {n : Nat} (h : brighter x y = some n) : x = some n ∨ y = some n := by
  cases x with
  | none => exact Or.inr h
  | some a =>
    cases y with
    | none => exact Or.inl h
    | some b =>
      rcases max_choice a b with hmax | hmax
      · exact Or.inl (hmax ▸ h)
      · exact Or.inr (hmax ▸ h)

/-- R153: the brighter of two readings is below neither. -/
theorem le_brighter {x y : Option Nat} {m : Nat} (h : x = some m ∨ y = some m) :
    ∃ n, brighter x y = some n ∧ m ≤ n := by
  cases x with
  | none => exact ⟨m, h.resolve_left nofun, Nat.le_refl m⟩
  | some a =>
    cases y with
    | none => exact ⟨m, h.resolve_right nofun, Nat.le_refl m⟩
    | some b =>
      refine ⟨max a b, rfl, ?_⟩
      rcases h with h | h <;> cases h
      · exact Nat.le_max_left _ _
      · exact Nat.le_max_right _ _

/-- R153: the brightest of the readings is one of them. -/
theorem foldl_brighter_mem {xs : List (Option Nat)} {x : Option Nat} {n : Nat} (h : xs.foldl brighter x = some n) :
    x = some n ∨ some n ∈ xs := by
  induction xs generalizing x with
  | nil => exact Or.inl h
  | cons y rest ih =>
    rcases ih h with hxy | hrest
    · exact (brighter_mem hxy).imp_right fun hy => List.mem_cons.mpr (Or.inl hy.symm)
    · exact Or.inr (List.mem_cons_of_mem _ hrest)

/-- R153: the brightest of the readings is below none of them. -/
theorem le_foldl_brighter {xs : List (Option Nat)} {x : Option Nat} {m : Nat} (h : x = some m ∨ some m ∈ xs) :
    ∃ n, xs.foldl brighter x = some n ∧ m ≤ n := by
  induction xs generalizing x m with
  | nil => exact ⟨m, h.resolve_right List.not_mem_nil, Nat.le_refl m⟩
  | cons y rest ih =>
    rw [List.mem_cons, ← or_assoc, eq_comm (a := some m)] at h
    rcases h with hxy | hrest
    · obtain ⟨k, hk, hmk⟩ := le_brighter hxy
      obtain ⟨n, hn, hkn⟩ := ih (Or.inl hk)
      exact ⟨n, hn, Nat.le_trans hmk hkn⟩
    · exact ih (Or.inr hrest)

section
variable {c : LineCtl} {g : Nat}

/-- R153: the readings that count. -/
theorem LineCtl.mem_lights (n : Nat) :
    some n ∈ (c.panels.filter (fun q => q.group == g && decide (q.health = .online))).map (·.light) ↔
      ∃ q ∈ c.panels, q.group = g ∧ q.health = .online ∧ q.light = some n := by
  simp only [List.mem_map, List.mem_filter, Bool.and_eq_true, beq_iff_eq, decide_eq_true_eq, and_assoc]

/-- R153: no ONLINE panel of the group has a reading. -/
theorem LineCtl.reading_none (h : ∀ n, ¬ ∃ q ∈ c.panels, q.group = g ∧ q.health = .online ∧ q.light = some n) :
    c.reading g = none := by
  cases hr : c.reading g with
  | none => rfl
  | some n => exact absurd ((LineCtl.mem_lights n).mp ((foldl_brighter_mem hr).resolve_left nofun)) (h n)

/-- R153: the highest reading of the group's ONLINE panels. -/
theorem LineCtl.reading_some {n : Nat}
    (h : ∃ q ∈ c.panels, q.group = g ∧ q.health = .online ∧ q.light = some n)
    (hmax : ∀ m, (∃ q ∈ c.panels, q.group = g ∧ q.health = .online ∧ q.light = some m) → m ≤ n) :
    c.reading g = some n := by
  obtain ⟨k, hk, hnk⟩ := le_foldl_brighter (x := none) (Or.inr ((LineCtl.mem_lights n).mpr h))
  have hkn : k ≤ n := hmax k ((LineCtl.mem_lights k).mp ((foldl_brighter_mem hk).resolve_left nofun))
  rw [Nat.le_antisymm hnk hkn]
  exact hk

end

/-- R153: a decision moves the two steps alone. -/
theorem Group.takeStep_frame (x : Group) (step : Option Nat) :
    x.takeStep step = { x with sentStep := (x.takeStep step).sentStep, candStep := (x.takeStep step).candStep } := by
  unfold Group.takeStep
  repeat' split
  all_goals rfl

/-! The cases of a decision with a reading: no step sent yet, the step sent, the candidate again, a new candidate. -/

section
variable {x : Group} {step : Nat}

theorem Group.takeStep_first (h : x.sentStep = none) :
    x.takeStep (some step) = { x with sentStep := some step, candStep := none } := by
  simp only [Group.takeStep, h]

theorem Group.takeStep_same (h : x.sentStep = some step) : x.takeStep (some step) = { x with candStep := none } := by
  simp only [Group.takeStep, h, if_true]

variable {sent : Nat} (h : x.sentStep = some sent) (hne : step ≠ sent)
include h hne

theorem Group.takeStep_again (hcand : x.candStep = some step) :
    x.takeStep (some step) = { x with sentStep := some step, candStep := none } := by
  simp only [Group.takeStep, h, if_neg hne, if_pos hcand]

theorem Group.takeStep_candidate (hcand : x.candStep ≠ some step) :
    x.takeStep (some step) = { x with candStep := some step } := by
  simp only [Group.takeStep, h, if_neg hne, if_neg hcand]

end

/-- Settles O46: the four kinds of work in order, each with its exchange, and the cases of the SHOW decision. -/
theorem arbiterBeginsTheFirstWork : Obligations.ArbiterBeginsTheFirstWork := by
  refine ⟨?_, ?_⟩
  · intro s l f c us hconfig hexchange hquiet hrun grouped dueGroup up loadable showable askable turn sending
    have hgrouped (g : Nat) : c.isGrouped g = true ↔ grouped g := by rw [LineCtl.isGrouped_eq hconfig]; rfl
    have hfree : s.part.chooseWork l = s.part.firstWork l := Part.chooseWork_free hconfig hexchange hquiet hrun
    have hdue (g : Nat) : (g < 4 ∧ (c.isGrouped g && (c.group g).sendable (c.hold g)) = true) ↔ dueGroup g := by
      rw [Bool.and_eq_true, hgrouped, Group.sendable_iff, LineCtl.hold_eq hconfig]
      rfl
    have hload (a : Nat) : loadable a ↔ ∃ q ∈ c.panels, q.address = a ∧ s.part.loadable l q = true := by
      refine exists_congr fun q => and_congr_right fun _ => and_congr_right fun hq => ?_
      subst hq
      simp only [Part.loadable_iff, c, hgrouped]
      rfl
    have hshow (a : Nat) : showable a ↔ ∃ q ∈ c.panels, q.address = a ∧ c.showable q = true := by
      simp only [LineCtl.showable_iff, hgrouped]
      rfl
    have hask (a : Nat) : askable a ↔ ∃ q ∈ c.panels, q.address = a ∧ q.askable = true := by
      simp only [Panel.askable_iff]
      rfl
    refine ⟨fun g hg hlower => ?_, fun hnone => ?_⟩
    · intro d full
      have hfirst : c.dueGroup = some g := by
        obtain ⟨hlt, htest⟩ := (hdue g).mpr hg
        refine List.find?_range_eq_some.mpr ⟨htest, List.mem_range.mpr hlt, fun h hh => ?_⟩
        rw [Bool.not_eq_true']
        exact eq_false_of_ne_true fun ht => hlower h hh ((hdue h).mp ⟨Nat.lt_trans hh hlt, ht⟩)
      have hwork : s.part.chooseWork l = some (.broadcast g) := hfree.trans (Part.firstWork_broadcast hfirst)
      refine exec_next (·.beginBroadcast l) rfl ?_
      simp only [Part.beginBroadcast, hwork]
      exact Part.startBroadcast_eq _ l hconfig g
    · have hnodue : c.dueGroup = none := List.find?_eq_none.mpr fun g hg ht =>
        hnone g ((hdue g).mp ⟨List.mem_range.mp hg, ht⟩)
      refine ⟨fun a i x hturn hx hstate hbefore => ?_, fun hnoload => ⟨fun a hturn => ?_, fun hnoshow a hturn => ?_⟩⟩
      · intro g slots begun
        have hslot : s.part.cmp.waitingSlot l a = some i := (findIndex_some _ _ _).mpr
          ⟨⟨x, hx, decide_eq_true hstate⟩, fun j hj y hy => decide_eq_false (hbefore j hj y hy)⟩
        have hwork : s.part.chooseWork l = some (.load a i) :=
          hfree.trans (Part.firstWork_load hnodue (LineCtl.roundRobin_turn hload hturn.1 hturn.2) hslot)
        refine exec_next (·.beginLoadExchange l) rfl ?_
        simp only [Part.beginLoadExchange, hwork]
        exact Part.startLoad_eq _ l hconfig hx
      · intro g d
        have hwork : s.part.chooseWork l = some (.showOne a) :=
          hfree.trans (Part.firstWork_show hnodue (LineCtl.roundRobin_none hload hnoload _)
            (LineCtl.roundRobin_turn hshow hturn.1 hturn.2))
        refine exec_next (·.beginShowExchange l) rfl ?_
        simp only [Part.beginShowExchange, hwork]
        exact Part.startShow_eq _ l hconfig a
      · intro g begun
        have hwork : s.part.chooseWork l = some (.query a) :=
          hfree.trans (Part.firstWork_query hnodue (LineCtl.roundRobin_none hload hnoload _)
            (LineCtl.roundRobin_none hshow hnoshow _) (LineCtl.roundRobin_turn hask hturn.1 hturn.2))
        have hbegun : (fun q : Panel => if q.address = a then q.probed else q) = begun := by
          funext q
          rw [Panel.probed_eq, ← ite_and]
        refine exec_next (·.beginQuery l) rfl ?_
        simp only [Part.beginQuery, hwork]
        rw [← hbegun]
        exact Part.startQuery_eq _ l hconfig a
  · intro c f g hg old d new lit
    have hnew : new = old.takeStep ((c.reading g).map (lightStep f.thresholds)) := LineCtl.group_changeGroup c _ hg
    refine ⟨rfl, ?_, fun hunlit => ?_, fun n hlit hmax => ?_⟩
    · have hset : d.1 = { c with groups := c.groups.set g new } := by
        rw [hnew]
        exact c.changeGroup_eq_set _ hg
      rw [hset, show new = { old with sentStep := new.sentStep, candStep := new.candStep } from
        hnew ▸ Group.takeStep_frame _ _]
    · rw [hnew, LineCtl.reading_none hunlit]
      exact ⟨rfl, rfl⟩
    · intro step
      have hstep : new = old.takeStep (some step) := by
        rw [hnew, LineCtl.reading_some hlit hmax]
        rfl
      rw [hstep]
      refine ⟨fun h => ?_, fun h => ?_, fun sent h hne => ⟨fun hcand => ?_, fun hcand => ?_⟩⟩
      · rw [Group.takeStep_first h]
        exact ⟨rfl, rfl⟩
      · rw [Group.takeStep_same h]
        exact ⟨h, rfl⟩
      · rw [Group.takeStep_again h hne hcand]
        exact ⟨rfl, rfl⟩
      · rw [Group.takeStep_candidate h hne hcand]
        exact ⟨h, rfl⟩

end Sys2Proof.Machine
end

section
/-! PROOF. The ends of a frame and of an exchange (R138 to R140, R143, R144, R146, R148, R150 to R152); O47. -/

namespace Sys2Proof.Machine

theorem LineCtl.group_congr {c d : LineCtl} (h : d.groups = c.groups) (g : Nat) : d.group g = c.group g := by
  rw [LineCtl.group, LineCtl.group, h]

/-! ### Rounds that members are staged in and leave (R150, R152) -/

section
variable {x : Group} {r : Round} (hr : x.round = some r) (a : Nat)
include hr

/-- R150: a member is staged. -/
theorem Group.stage_eq (h : r.members ≠ []) :
    x.stage a = { x with
      round := some { r with
        members := r.members.map (fun m => if m.address = a then { m with staged := true } else m) }
      showDue := x.showDue ||
        (r.members.map (fun m => if m.address = a then { m with staged := true } else m)).all (·.staged) } := by
  rw [Group.stage, hr]
  refine Group.judgeRound_members (x := { x with round := some { r with members := _ } }) rfl ?_
  simpa using h

/-- R152: the members that a leaving one leaves. -/
theorem Group.leave_judges : x.leave a = Group.judgeRound
    { x with round := some { r with members := r.members.filter (fun m => decide (m.address ≠ a)) } } := by
  have hstays : (fun m : Member => m.address != a) = fun m => decide (m.address ≠ a) :=
    funext fun m => Bool.eq_iff_iff.mpr (by simp)
  rw [Group.leave, hr, hstays]

end

/-! ### The end of a broadcast SHOW (R151) -/

/-- R151: the flags at a round's close. -/
theorem Group.close_eq (x : Group) (full : Bool) :
    x.close full = { x with round := none, showDue := false, completed := full || x.completed
                            syncFail := !full && (x.syncFail || x.completed) } := by
  unfold Group.close
  cases full <;> cases x.completed <;> simp

/-- R152: a change of mode that waited clears the flags. -/
theorem Group.applyChange_eq (x : Group) :
    x.applyChange = { x with completed := !x.changed && x.completed, syncFail := !x.changed && x.syncFail
                             changed := false } := by
  obtain ⟨_, _, _, _, _, _, changed⟩ := x
  cases changed <;> rfl

/-- R151: a staged member. -/
theorem Group.hasStaged_iff (x : Group) (a : Nat) : x.hasStaged a = true ↔
    ∃ r, x.round = some r ∧ ∃ m ∈ r.members, m.address = a ∧ m.staged = true := by
  unfold Group.hasStaged
  cases hr : x.round with
  | none => simp
  | some r => simp

/-- R186: a flag raised on a condition. -/
theorem Part.raiseIf_eq (p : Part) (b : Bool) (f : Flag) : p.raiseIf b f =
    { p with rep := { p.rep with attention := if b = true then p.rep.attention ||| f.mask else p.rep.attention } } := by
  cases b <;> rfl

/-- R151: the line at the end of the broadcast SHOW of a group. -/
def LineCtl.shown (c : LineCtl) (g : Nat) (full : Bool) : LineCtl :=
  { c.changeGroup g (fun x => (x.close full).applyChange) with
    exchange := none
    panels := c.panels.map (fun q =>
      if (c.group g).hasStaged q.address = true then { q with owed := false } else q) }

/-- R151, R152: the group that was shown. -/
theorem LineCtl.shown_group {c : LineCtl} {g : Nat} (h : g < c.groups.length) (full : Bool) :
    (c.shown g full).group g = { c.group g with
      round := none, showDue := false, completed := !(c.group g).changed && (full || (c.group g).completed)
      syncFail := !(c.group g).changed && (!full && ((c.group g).syncFail || (c.group g).completed))
      changed := false } := by
  refine (c.group_changeGroup _ h).trans ?_
  rw [Group.applyChange_eq, Group.close_eq]

/-- R151: the show owed of the staged members is cleared. -/
theorem LineCtl.shown_panel {c : LineCtl} {i : Nat} {q : Panel} (hi : c.panels[i]? = some q) (g : Nat) (full : Bool) :
    (c.shown g full).panels[i]?
      = some (if (c.group g).hasStaged q.address = true then { q with owed := false } else q) := by
  rw [LineCtl.shown, List.getElem?_map, hi]
  rfl

/-- R151: the end of a broadcast SHOW as one update. -/
theorem Part.closeRound_eq (p : Part) (l : Line) (g : Nat) (full : Bool) :
    p.closeRound l g full = { p.setLine l ((p.line l).shown g full) with
      rep := { p.rep with attention :=
        if (!full && ((p.line l).group g).completed) = true then p.rep.attention ||| 0x040#10
        else p.rep.attention } } := by
  rw [Part.closeRound, Part.raiseIf_eq]
  simp only [Part.setLine_keeps]
  rfl

section
variable {p : Part} {l : Line} {x : Exchange} (hx : (p.line l).exchange = some x) (hsending : x.awaiting = false)
include hx hsending

/-- R138: an addressed frame has been sent. -/
theorem Part.frameSent_addressed (hkind : ∀ full, x.kind ≠ .broadcast full) : p.frameSent l =
    p.setLine l { p.line l with exchange := some { x with awaiting := true, due := p.swp.us + 2000#32 } } := by
  simp only [Part.frameSent, hx, hsending, Bool.false_eq_true, if_false]
  cases hk : x.kind with
  | broadcast full => exact absurd hk (hkind full)
  | load i => rfl
  | showOne => rfl
  | query => rfl

/-- R151: a broadcast SHOW has been sent. -/
theorem Part.frameSent_broadcast {full : Bool} (hkind : x.kind = .broadcast full) :
    p.frameSent l = p.closeRound l x.group full := by
  simp only [Part.frameSent, hx, hsending, Bool.false_eq_true, if_false, hkind]

end

/-! ### The end of an addressed exchange (R139, R140, R143, R144, R146, R148, R150) -/

/-- R143: the healths that an outcome can lead to. -/
def Health.moves : Health → List Health
  | .absent => [.absent, .joining]
  | .joining => [.joining, .online, .offline]
  | .online => [.online, .failing]
  | .failing => [.failing, .online, .offline]
  | .offline => [.offline, .joining]

section
variable (q : Panel)

theorem Panel.afterGood_moves : q.afterGood.address = q.address ∧ q.afterGood.group = q.group ∧
    q.afterGood.health ∈ q.health.moves ∧ q.afterGood.health ≠ .offline := by
  unfold Panel.afterGood
  repeat' split
  all_goals refine ⟨rfl, rfl, ?_⟩; simp_all [Health.moves]

theorem Panel.afterNotReady_moves : q.afterNotReady.address = q.address ∧ q.afterNotReady.group = q.group ∧
    q.afterNotReady.health ∈ q.health.moves := by
  unfold Panel.afterNotReady
  split
  all_goals refine ⟨rfl, rfl, ?_⟩; simp_all [Health.moves]

theorem Panel.afterFailure_moves : q.afterFailure.address = q.address ∧ q.afterFailure.group = q.group ∧
    q.afterFailure.health ∈ q.health.moves := by
  unfold Panel.afterFailure Panel.goOffline
  repeat' split
  all_goals refine ⟨rfl, rfl, ?_⟩; simp_all [Health.moves]

/-- R143: an outcome leaves the place of a record and moves its health along the table. -/
theorem Panel.after_moves (o : ExchangeOutcome) : (q.after o).address = q.address ∧ (q.after o).group = q.group ∧
    (q.after o).health ∈ q.health.moves := by
  cases o with
  | good n =>
    obtain ⟨ha, hg, hm, -⟩ := Panel.afterGood_moves { q with idle := 0, light := some n }
    exact ⟨ha, hg, hm⟩
  | notReady n => exact Panel.afterNotReady_moves { q with idle := 0, light := some n }
  | failure k => exact Panel.afterFailure_moves { q with idle := 0, counters := q.counters.count k q.health }

/-- R143: only a failure takes a panel OFFLINE. -/
theorem Panel.after_good_ne_offline {o : ExchangeOutcome} (h : o.isGood = true) : (q.after o).health ≠ .offline := by
  cases o with
  | good n => exact (Panel.afterGood_moves { q with idle := 0, light := some n }).2.2.2
  | notReady n => cases h
  | failure k => cases h

end

/-- R144: the changes of health that raise PANEL are all but ABSENT to JOINING. -/
theorem Health.moves_marked {h k : Health} (hk : k ∈ h.moves) :
    (decide (h ≠ k) && (h.marked || k.marked)) = true ↔ k ≠ h ∧ ¬ (h = .absent ∧ k = .joining) := by
  revert hk
  cases h <;> cases k <;> decide

/-- R144: what the composer is told. -/
theorem panelEventOf_eq (l : Line) (a : Nat) (before after : Health) :
    panelEventOf l a before after = if after = before then [] else if after = .online then [.online l a]
      else if after = .offline then [.offline l a] else [] := by
  unfold panelEventOf
  cases before <;> cases after <;> rfl

section
variable (c : LineCtl) (a : Nat) {f : Panel → Panel}

/-- The record of a panel that is changed. -/
theorem LineCtl.panel_changePanel (hf : ∀ q, (f q).address = q.address) :
    (c.changePanel a f).panel a = (c.panel a).map f := by
  have haddress (q : Panel) : (if q.address = a then f q else q).address = q.address := by
    split
    · exact hf q
    · rfl
  simp only [LineCtl.panel, LineCtl.changePanel, List.find?_map, Function.comp_def, haddress]
  exact Option.map_congr fun q hq => if_pos (by simpa using List.find?_some hq)

/-- The group of a panel that is changed. -/
theorem LineCtl.groupOf_changePanel (hf : ∀ q, (f q).address = q.address) (hg : ∀ q, (f q).group = q.group) :
    (c.changePanel a f).groupOf a = c.groupOf a := by
  rw [LineCtl.groupOf, c.panel_changePanel a hf, Option.map_map, LineCtl.groupOf]
  simp only [Function.comp_def, hg]

end

/-- R146, R148: what an outcome makes of a record's show owed. -/
def ExchangeKind.owes (kind : ExchangeKind) (good owed : Bool) : Bool :=
  match kind with
  | .load _ => good || owed
  | .showOne => !good && owed
  | .query => owed
  | .broadcast _ => owed

/-- R146, R150: a GOOD of a LOAD. -/
theorem LineCtl.good_load (c : LineCtl) (i a : Nat) : c.good (.load i) a =
    let loaded := c.changePanel a (fun q => { q with owed := true })
    if c.isGrouped (c.groupOf a) = true then loaded.changeGroup (c.groupOf a) (fun x => x.stage a) else loaded := by
  have hgroup : (c.changePanel a (fun q => { q with owed := true })).groupOf a = c.groupOf a :=
    c.groupOf_changePanel a (fun _ => rfl) (fun _ => rfl)
  simp only [LineCtl.good, hgroup]
  rfl

/-- R146, R148: what a GOOD does to the records. -/
theorem LineCtl.good_panels (c : LineCtl) (kind : ExchangeKind) (a : Nat) : (c.good kind a).panels =
    c.panels.map (fun q => if q.address = a then { q with owed := kind.owes true q.owed } else q) := by
  have hkeeps : c.panels = c.panels.map (fun q => if q.address = a then { q with owed := q.owed } else q) := by
    simp
  cases kind with
  | load i =>
    rw [LineCtl.good_load]
    dsimp only
    split <;> rfl
  | showOne => rfl
  | query => exact hkeeps
  | broadcast full => exact hkeeps

/-- R150: a GOOD stages the panel of a LOAD in its GROUPED group, and moves no group otherwise. -/
theorem LineCtl.good_stages (c : LineCtl) (i a : Nat) (h : c.isGrouped (c.groupOf a) = true) :
    (c.good (.load i) a).groups = changeAt (fun x => x.stage a) (c.groupOf a) c.groups := by
  rw [LineCtl.good_load]
  dsimp only
  rw [if_pos h]
  rfl

theorem LineCtl.good_groups (c : LineCtl) {kind : ExchangeKind} {a : Nat}
    (h : ¬ (c.isGrouped (c.groupOf a) = true ∧ ∃ i, kind = .load i)) : (c.good kind a).groups = c.groups := by
  cases kind with
  | load i =>
    rw [LineCtl.good_load]
    dsimp only
    rw [if_neg fun hg => h ⟨hg, i, rfl⟩]
    rfl
  | showOne => rfl
  | query => rfl
  | broadcast full => rfl

/-- What a GOOD leaves of the line. -/
theorem LineCtl.good_frame (c : LineCtl) (kind : ExchangeKind) (a : Nat) :
    { c.good kind a with groups := c.groups, panels := c.panels } = c := by
  cases kind with
  | load i =>
    rw [LineCtl.good_load]
    dsimp only
    split <;> rfl
  | showOne => rfl
  | query => rfl
  | broadcast full => rfl

/-- The line at the end of an addressed exchange, but for what a change of health does. -/
def LineCtl.ended (c : LineCtl) (x : Exchange) (o : ExchangeOutcome) : LineCtl :=
  let idle := { c with exchange := none }
  (if o.isGood then idle.good x.kind x.address else idle).changePanel x.address (fun q => q.after o)

section
variable (c : LineCtl) (x : Exchange) (o : ExchangeOutcome)

/-- R139, R146, R148: the records at the end of an addressed exchange. -/
theorem LineCtl.ended_panels : (c.ended x o).panels = c.panels.map (fun q => if q.address = x.address then
    Panel.after { q with owed := x.kind.owes o.isGood q.owed } o else q) := by
  let idle := { c with exchange := none }
  have howes : (if o.isGood then idle.good x.kind x.address else idle).panels = c.panels.map (fun q =>
      if q.address = x.address then { q with owed := x.kind.owes o.isGood q.owed } else q) := by
    cases o.isGood with
    | true => exact idle.good_panels x.kind x.address
    | false =>
      have hkeeps (b : Bool) : x.kind.owes false b = b := by cases x.kind <;> rfl
      simp only [hkeeps, ite_self, List.map_id', Bool.false_eq_true, if_false]
      rfl
  rw [LineCtl.ended, LineCtl.changePanel, howes, List.map_map]
  refine congrArg (c.panels.map ·) (funext fun q => ?_)
  by_cases ha : q.address = x.address <;> simp [ha]

/-- What the end of an addressed exchange leaves of the line. -/
theorem LineCtl.ended_frame : (c.ended x o).exchange = none ∧
    { c.ended x o with groups := c.groups, exchange := c.exchange, panels := c.panels } = c := by
  have hgood := LineCtl.good_frame { c with exchange := none } x.kind x.address
  unfold LineCtl.ended
  cases o.isGood with
  | false => exact ⟨rfl, rfl⟩
  | true => exact ⟨congrArg (·.exchange) hgood, congrArg (fun d : LineCtl => { d with exchange := c.exchange }) hgood⟩

variable {c x o}

/-- R150: the panel of a LOAD that ends GOOD is staged. -/
theorem LineCtl.ended_stages (hgrouped : c.isGrouped (c.groupOf x.address) = true) (hgood : o.isGood = true)
    (hload : ∃ i, x.kind = .load i) :
    (c.ended x o).groups = (c.changeGroup (c.groupOf x.address) (fun y => y.stage x.address)).groups := by
  obtain ⟨i, hi⟩ := hload
  rw [LineCtl.ended, hgood, hi]
  exact LineCtl.good_stages { c with exchange := none } i x.address hgrouped

/-- R150: no other end of an exchange moves a group. -/
theorem LineCtl.ended_groups
    (h : ¬ (c.isGrouped (c.groupOf x.address) = true ∧ o.isGood = true ∧ ∃ i, x.kind = .load i)) :
    (c.ended x o).groups = c.groups := by
  unfold LineCtl.ended
  cases hgood : o.isGood with
  | false => rfl
  | true => exact LineCtl.good_groups { c with exchange := none } fun hstages => h ⟨hstages.1, hgood, hstages.2⟩

/-- R139: the record of the panel that the exchange was with. -/
theorem LineCtl.ended_panel {q : Panel} (hq : c.panel x.address = some q) : (c.ended x o).panel x.address
    = some (Panel.after { q with owed := x.kind.owes o.isGood q.owed } o) := by
  have hchanged := c.panel_changePanel x.address
    (f := fun q => Panel.after { q with owed := x.kind.owes o.isGood q.owed } o)
    (fun q => (Panel.after_moves { q with owed := x.kind.owes o.isGood q.owed } o).1)
  rw [hq] at hchanged
  rw [LineCtl.panel, LineCtl.ended_panels]
  exact hchanged

end

theorem LineCtl.health_eq {c : LineCtl} {a : Nat} {q : Panel} (h : c.panel a = some q) : c.health a = q.health := by
  rw [LineCtl.health, h]

theorem LineCtl.groupOf_eq {c : LineCtl} {a : Nat} {q : Panel} (h : c.panel a = some q) : c.groupOf a = q.group := by
  rw [LineCtl.groupOf, h]
  rfl

/-- R139, R152: the line at the end of an addressed exchange, whose panel leaves its round where it goes OFFLINE. -/
def LineCtl.taken (c : LineCtl) (x : Exchange) (o : ExchangeOutcome) (q q' : Panel) : LineCtl :=
  if q'.health = .offline ∧ q.health ≠ .offline then
    (c.ended x o).changeGroup q.group (fun y => y.leave x.address)
  else c.ended x o

section
variable (c : LineCtl) (x : Exchange) (o : ExchangeOutcome) {q q' : Panel}

theorem LineCtl.taken_leaves (h : q'.health = .offline ∧ q.health ≠ .offline) :
    c.taken x o q q' = (c.ended x o).changeGroup q.group (fun y => y.leave x.address) := if_pos h

theorem LineCtl.taken_stays (h : ¬ (q'.health = .offline ∧ q.health ≠ .offline)) : c.taken x o q q' = c.ended x o :=
  if_neg h

/-- What the end of an addressed exchange does to the line, its groups apart. -/
theorem LineCtl.taken_frame : (c.taken x o q q').exchange = none ∧
    (c.taken x o q q').panels = c.panels.map (fun q => if q.address = x.address then
      Panel.after { q with owed := x.kind.owes o.isGood q.owed } o else q) ∧
    { c.taken x o q q' with groups := c.groups, exchange := c.exchange, panels := c.panels } = c := by
  obtain ⟨hidle, hframe⟩ := c.ended_frame x o
  unfold LineCtl.taken
  split <;> exact ⟨hidle, c.ended_panels x o, hframe⟩

/-- R150, R152: the end of an addressed exchange moves the group of its panel alone. -/
theorem LineCtl.taken_group_of_ne (hq : c.groupOf x.address = q.group) {g : Nat} (hg : g ≠ q.group) :
    (c.taken x o q q').group g = c.group g := by
  have hended : (c.ended x o).group g = c.group g := by
    by_cases h : c.isGrouped (c.groupOf x.address) = true ∧ o.isGood = true ∧ ∃ i, x.kind = .load i
    · exact (LineCtl.group_congr (LineCtl.ended_stages h.1 h.2.1 h.2.2) g).trans
        (c.group_changeGroup_of_ne _ (hq ▸ hg))
    · exact LineCtl.group_congr (LineCtl.ended_groups h) g
  unfold LineCtl.taken
  split
  · exact ((c.ended x o).group_changeGroup_of_ne _ hg).trans hended
  · exact hended

end

/-- R146: the slot of a LOAD that ends, freed or WAITING again. -/
def Slot.settled (l : Line) (a : Nat) (good : Bool) (s : Slot) : Slot :=
  if s.state = .loading l a then (if good then Slot.freed else { s with state := .waiting l a }) else s

/-- R146: the render store at the end of an exchange. -/
def Exchange.settles (x : Exchange) (l : Line) (good : Bool) (slots : List Slot) : List Slot :=
  match x.kind with
  | .load i => changeAt (Slot.settled l x.address good) i slots
  | .showOne => slots
  | .query => slots
  | .broadcast _ => slots

theorem Exchange.settles_load (x : Exchange) {i : Nat} (hi : x.kind = .load i) (l : Line) (good : Bool)
    {slots : List Slot} {j : Nat} {y : Slot} (hy : slots[j]? = some y) :
    (x.settles l good slots)[j]? = some (if j = i ∧ y.state = .loading l x.address then
      (if good then Slot.freed else { y with state := .waiting l x.address }) else y) := by
  rw [Exchange.settles, hi]
  simp only [getElem?_changeAt, hy, Option.map_some, Slot.settled, ite_and]
  split <;> rfl

theorem Exchange.settles_of_ne (x : Exchange) (h : ∀ i, x.kind ≠ .load i) (l : Line) (good : Bool) (slots : List Slot) :
    x.settles l good slots = slots := by
  unfold Exchange.settles
  cases hk : x.kind with
  | load i => exact absurd hk (h i)
  | showOne => rfl
  | query => rfl
  | broadcast full => rfl

theorem Part.settleExchange_eq (p : Part) (l : Line) (x : Exchange) (good : Bool) :
    p.settleExchange l x good = { p with cmp := { p.cmp with slots := x.settles l good p.cmp.slots } } := by
  unfold Part.settleExchange Exchange.settles
  cases x.kind <;> rfl

/-- R144: what a change of health does beyond the record, as one update. -/
theorem Part.healthChanged_eq (p : Part) (l : Line) (a : Nat) {h k : Health} (hk : k ∈ h.moves) :
    p.healthChanged l a h k =
      { p.setLine l (if k = .offline ∧ h ≠ .offline then
          (p.line l).changeGroup ((p.line l).groupOf a) (fun x => x.leave a) else p.line l) with
        rep := { p.rep with attention := if k ≠ h ∧ ¬ (h = .absent ∧ k = .joining) then
          p.rep.attention ||| 0x020#10 else p.rep.attention }
        cmp := { p.cmp with panelEvents := p.cmp.panelEvents ++ (if k = h then [] else if k = .online then [.online l a]
          else if k = .offline then [.offline l a] else []) } } := by
  have hout : (h ≠ k ∧ k = .offline) ↔ (k = .offline ∧ h ≠ .offline) :=
    ⟨fun ⟨hne, he⟩ => ⟨he, he ▸ hne⟩, fun ⟨he, hne⟩ => ⟨he ▸ hne, he⟩⟩
  simp only [Part.healthChanged, Part.raiseIf_eq, Health.moves_marked hk, panelEventOf_eq, hout]
  split <;> cases l <;> rfl

/-- R139, R144, R146: the end of an addressed exchange as one update. -/
theorem Part.endExchange_eq {p : Part} {l : Line} {x : Exchange} {q q' : Panel} (o : ExchangeOutcome)
    (hq : (p.line l).panel x.address = some q)
    (hq' : q' = Panel.after { q with owed := x.kind.owes o.isGood q.owed } o) :
    p.endExchange l x o =
      { p.setLine l ((p.line l).taken x o q q') with
        rep := { p.rep with attention := if q'.health ≠ q.health ∧ ¬ (q.health = .absent ∧ q'.health = .joining) then
          p.rep.attention ||| 0x020#10 else p.rep.attention }
        cmp := { p.cmp with
          slots := x.settles l o.isGood p.cmp.slots
          panelEvents := p.cmp.panelEvents ++ (if q'.health = q.health then []
            else if q'.health = .online then [.online l x.address]
            else if q'.health = .offline then [.offline l x.address] else []) } } := by
  subst hq'
  have hended := LineCtl.ended_panel (o := o) hq
  obtain ⟨-, hgroup, hmoves⟩ := Panel.after_moves { q with owed := x.kind.owes o.isGood q.owed } o
  have hends : p.endExchange l x o = (Part.setLine
      { p with cmp := { p.cmp with slots := x.settles l o.isGood p.cmp.slots } } l ((p.line l).ended x o)).healthChanged
        l x.address ((p.line l).health x.address) (((p.line l).ended x o).health x.address) := by
    simp only [Part.endExchange, Part.settleExchange_eq, Part.line_setLine]
    cases l <;> rfl
  rw [hends, LineCtl.health_eq hq, LineCtl.health_eq hended, Part.healthChanged_eq _ _ _ hmoves]
  simp only [Part.line_setLine, LineCtl.groupOf_eq hended, hgroup, Part.setLine_setLine, Part.setLine_keeps]
  cases l <;> rfl

/-- The line that was set, whatever the report unit and the composer became. -/
theorem Part.line_of_parts (p : Part) (l : Line) (c : LineCtl) (r : Report) (k : Composer) :
    Part.line { p.setLine l c with rep := r, cmp := k } l = c := by
  cases l <;> rfl

/-- Setting the line back leaves what the report unit and the composer became. -/
theorem Part.setLine_of_parts (p : Part) (l : Line) (c : LineCtl) (r : Report) (k : Composer) :
    { (Part.setLine { p.setLine l c with rep := r, cmp := k } l (p.line l)) with rep := p.rep, cmp := p.cmp } = p := by
  cases l <;> rfl

theorem Part.setLine_of_rep (p : Part) (l : Line) (c : LineCtl) (r : Report) :
    { (Part.setLine { p.setLine l c with rep := r } l (p.line l)) with rep := p.rep } = p := by
  cases l <;> rfl

/-- R138: a reply that is complete, or has timed out, ends the exchange that awaits it. -/
theorem Part.replyEnded_awaited {p : Part} {l : Line} {x : Exchange} (hx : (p.line l).exchange = some x)
    (hawaiting : x.awaiting = true) (cs : List RxChar) :
    p.replyEnded l cs = p.endExchange l x (outcomeOf l x.address cs) := by
  simp only [Part.replyEnded, hx, hawaiting, if_true]

/-- Settles O47: the frame sent, to a panel or to a group, the reply ended, and the members of a round. -/
theorem exchangesEnd : Obligations.ExchangesEnd := by
  refine ⟨?_, ?_, ?_, ?_⟩
  · intro s l x hx hsending hkind sent
    refine exec_next (·.frameSent l) rfl (Part.frameSent_addressed hx hsending fun full hfull => ?_)
    rcases hkind with hk | hk | ⟨i, hk⟩ <;> exact nomatch hk.symm.trans hfull
  · intro s l x full hx hsending hkind hgroup c old staged
    have hclose := (Part.frameSent_broadcast hx hsending hkind).trans (s.part.closeRound_eq l x.group full)
    refine ⟨_, c.shown x.group full, exec_next (·.frameSent l) rfl hclose, rfl, (s.part.line_of_parts l _ _ _).symm, ?_⟩
    rw [LineCtl.shown_group hgroup]
    refine ⟨rfl, rfl, rfl, fun h => ?_, fun h => ⟨fun hfull => ?_, fun hfull => ?_⟩, rfl, rfl,
      fun g hg => c.group_changeGroup_of_ne _ hg, rfl, List.length_map _, fun i q hi => ?_, rfl, ?_, rfl,
      s.part.setLine_of_rep l _ _⟩
    · rw [show (c.group x.group).changed = true from h]
      exact ⟨rfl, rfl⟩
    · rw [show (c.group x.group).changed = false from h, hfull]
      exact ⟨rfl, rfl⟩
    · rw [show (c.group x.group).changed = false from h, hfull]
      exact ⟨rfl, rfl⟩
    · have hstaged : old.hasStaged q.address = true ↔ staged q.address := old.hasStaged_iff q.address
      rw [LineCtl.shown_panel hi]
      exact ⟨fun h => congrArg some (if_pos (hstaged.mpr h)), fun h => congrArg some (if_neg (mt hstaged.mp h))⟩
    · simp only [Bool.and_eq_true, Bool.not_eq_true']
      rfl
  · intro s l x cs run q hx hawaiting hrun hq hkind c outcome good owed q' leaves stages
    have hgroupOf : c.groupOf x.address = q.group := LineCtl.groupOf_eq hq
    have hstages (h : stages) : (c.ended x outcome).groups
        = (c.changeGroup q.group (fun y => y.stage x.address)).groups := by
      rw [← hgroupOf]
      exact LineCtl.ended_stages (hgroupOf ▸ h.1) h.2.1 h.2.2
    have hstays (h : ¬ stages) : (c.ended x outcome).groups = c.groups := LineCtl.ended_groups (hgroupOf ▸ h)
    have hexcludes (h : stages) : ¬ leaves := fun hout => Panel.after_good_ne_offline _ h.2.1 hout.1
    obtain ⟨hidle, hpanels, hframe⟩ := c.taken_frame x outcome (q := q) (q' := q')
    have hends := (Part.replyEnded_awaited hx hawaiting cs).trans (Part.endExchange_eq (q' := q') outcome hq rfl)
    have hexec : exec run s = s.onPart (·.replyEnded l cs) := by rcases hrun with rfl | rfl <;> rfl
    refine ⟨_, c.taken x outcome q q', exec_next (·.replyEnded l cs) hexec hends, rfl,
      (s.part.line_of_parts l _ _ _).symm, hidle, hpanels, fun hl hs => ?_,
      fun g hg => c.taken_group_of_ne x outcome hgroupOf hg, fun hs hlen => ?_, fun hl hlen => ?_, hframe,
      fun i hi j y hy => x.settles_load hi l outcome.isGood hy, fun hload => x.settles_of_ne hload l outcome.isGood _,
      rfl, rfl, rfl, rfl, s.part.setLine_of_parts l _ _ _⟩
    · rw [c.taken_stays x outcome hl]
      exact hstays hs
    · rw [c.taken_stays x outcome (hexcludes hs)]
      exact (LineCtl.group_congr (hstages hs) q.group).trans (c.group_changeGroup _ hlen)
    · have hkept := hstays fun hs => hexcludes hs hl
      rw [c.taken_leaves x outcome hl, (c.ended x outcome).group_changeGroup _ (by rwa [hkept]),
        LineCtl.group_congr hkept]
  · intro x r a hr hmembers staged left
    have hleave := Group.leave_judges hr a
    refine ⟨Group.stage_eq hr a hmembers, fun hnil => ?_, fun hne => ?_⟩
    · exact hleave.trans (Group.judgeRound_nil rfl hnil)
    · exact hleave.trans (Group.judgeRound_members (r := { r with members := left }) rfl hne)

end Sys2Proof.Machine
end

section
/-! PROOF. A line takes a profile (R142, R152), the exchange that is cut off and its quiet time (R138), and the levels
of TXD and DIR (R135); O50. -/

namespace Sys2Proof.Machine

/-! ### The exchange that is cut off (R138, R142) -/

/-- R135: the quarters of a us that a bit takes, by the rate code. -/
theorem bitQuarters_eq (rate : Nat) :
    bitQuarters rate = if rate = 0 then 8 else if rate = 1 then 4 else if rate = 2 then 2 else 1 := by
  unfold bitQuarters
  split <;> simp_all

/-- R142: the exchange in flight is with a panel that the configuration removes. -/
theorem LineCtl.losesExchange_iff (c : LineCtl) (f : LineConfig) : c.losesExchange f = true ↔
    ∃ x, c.exchange = some x ∧ (¬ ∃ q ∈ f.panels, q.address = x.address) ∧ ∀ full, x.kind ≠ .broadcast full := by
  unfold LineCtl.losesExchange
  cases hx : c.exchange with
  | none => simp
  | some x => cases hk : x.kind <;> simp [hk]

/-- R138: the frame of an exchange as characters being sent. -/
def Exchange.framing (x : Exchange) : Sending :=
  { bytes := x.frame, rate := x.rate, start := x.due - BitVec.ofNat 32 (sendingTime x.rate x.frame.length) }

section
variable (x : Exchange)

/-- R138: an exchange that awaits its reply sends nothing. -/
theorem Exchange.sending_awaiting (h : x.awaiting = true) : x.sending = none := if_pos h

/-- R138: before that it sends its frame. -/
theorem Exchange.sending_frame (h : x.awaiting = false) : x.sending = some x.framing := if_neg (ne_true_of_eq_false h)

end

section
variable {c : LineCtl} {x : Exchange} (hx : c.exchange = some x) (us : Word)
include hx

/-- R138: with no character in hand the quiet time runs from now. -/
theorem LineCtl.cutOff_past (h : x.awaiting = true ∨ x.frame.length < x.framing.begun us) :
    c.cutOff us = { c with exchange := none, tail := none, quiet := some (us + 2000#32) } := by
  have hnone : x.sending.bind (·.cut us) = none := by
    cases hawaiting : x.awaiting with
    | true => rw [x.sending_awaiting hawaiting, Option.bind_none]
    | false =>
      rw [x.sending_frame hawaiting, Option.bind_some]
      exact if_neg (Nat.not_le.mpr (h.resolve_left (ne_true_of_eq_false hawaiting)))
  simp only [LineCtl.cutOff, hx, hnone]
  rfl

/-- R138: the character in hand is sent to its end, and the quiet time runs from there. -/
theorem LineCtl.cutOff_within (hsending : x.awaiting = false) (h : x.framing.begun us ≤ x.frame.length) :
    c.cutOff us = { c with
      exchange := none
      tail := some { x.framing with bytes := x.frame.take (x.framing.begun us) }
      quiet := some (x.framing.start + BitVec.ofNat 32 (sendingTime x.rate (x.framing.begun us)) + 2000#32) } := by
  have hsome : x.sending.bind (·.cut us)
      = some { x.framing with bytes := x.frame.take (x.framing.begun us) } := by
    rw [x.sending_frame hsending, Option.bind_some]
    exact if_pos h
  simp only [LineCtl.cutOff, hx, hsome, Sending.ending, List.length_take_of_le h]
  rfl

end

theorem LineCtl.cutOff_exchange (c : LineCtl) (us : Word) : (c.cutOff us).exchange = none := by
  unfold LineCtl.cutOff
  split
  · assumption
  · split <;> rfl

/-- R138: what a cutting off leaves of the line. -/
theorem LineCtl.cutOff_frame (c : LineCtl) (us : Word) :
    { c.cutOff us with exchange := c.exchange, quiet := c.quiet, tail := c.tail } = c := by
  unfold LineCtl.cutOff
  split
  · rfl
  · split <;> rfl

/-! ### A group under a new configuration (R142, R152) -/

/-- R152: the load changes the mode of a group. -/
def LineCtl.modeChanges (c : LineCtl) (f : LineConfig) (g : Nat) : Bool :=
  c.config.isSome && decide (c.isGrouped g ≠ (f.group g).grouped)

theorem LineCtl.modeChanges_iff (c : LineCtl) (f : LineConfig) (g : Nat) : c.modeChanges f g = true ↔
    ∃ o, c.config = some o ∧ (o.group g).grouped ≠ (f.group g).grouped := by
  unfold LineCtl.modeChanges LineCtl.isGrouped
  cases c.config <;> simp

/-- R142: a broadcast SHOW of the group is in flight. -/
theorem LineCtl.broadcasting_iff (c : LineCtl) (g : Nat) : c.broadcasting g = true ↔
    ∃ x full, c.exchange = some x ∧ x.kind = .broadcast full ∧ x.group = g := by
  unfold LineCtl.broadcasting
  cases hx : c.exchange with
  | none => simp
  | some x => cases hk : x.kind <;> simp [hk]

/-- R142: the members that stay in the open round. -/
theorem Group.restrict_eq (x : Group) (f : LineConfig) (g : Nat) : x.restrict f g = { x with
    round := x.round.map (fun r => { r with
      members := r.members.filter (fun m => f.panels.any (fun q => q.address == m.address && q.group == g)) }) } := by
  obtain ⟨round⟩ := x
  cases round <;> rfl

/-- R152: a group under its new mode, with no broadcast in flight. -/
def Group.underMode (x : Group) (changes grouped : Bool) : Group := if changes then x.changeMode grouped else x

section
variable (x : Group) {changes grouped : Bool}

theorem Group.underMode_keeps : (x.underMode changes grouped).sentStep = x.sentStep ∧
    (x.underMode changes grouped).candStep = x.candStep ∧ (x.underMode changes grouped).changed = x.changed := by
  cases changes <;> cases grouped <;> exact ⟨rfl, rfl, rfl⟩

/-- R152: a change of mode clears the flags. -/
theorem Group.underMode_clears (h : changes = true) :
    (x.underMode changes grouped).completed = false ∧ (x.underMode changes grouped).syncFail = false := by
  subst h
  cases grouped <;> exact ⟨rfl, rfl⟩

theorem Group.underMode_same (h : ¬ changes = true) : x.underMode changes grouped = x := if_neg h

/-- R152: GROUPED to SEQUENTIAL closes the round with no SHOW. -/
theorem Group.underMode_closes (h : changes = true) (hg : grouped = false) :
    (x.underMode changes grouped).round = none ∧ (x.underMode changes grouped).showDue = false := by
  subst h hg
  exact ⟨rfl, rfl⟩

/-- R152: no other change touches the round. -/
theorem Group.underMode_round (h : ¬ (changes = true ∧ grouped = false)) :
    (x.underMode changes grouped).round = x.round ∧ (x.underMode changes grouped).showDue = x.showDue := by
  cases changes with
  | false => exact ⟨rfl, rfl⟩
  | true =>
    cases grouped with
    | true => exact ⟨rfl, rfl⟩
    | false => exact absurd ⟨rfl, rfl⟩ h

end

section
variable {x : Group} (hold : Nat)

theorem Group.rejudge_keeps : (x.rejudge hold).completed = x.completed ∧ (x.rejudge hold).syncFail = x.syncFail ∧
    (x.rejudge hold).sentStep = x.sentStep ∧ (x.rejudge hold).candStep = x.candStep ∧
    (x.rejudge hold).changed = x.changed := by
  unfold Group.rejudge
  repeat' split
  all_goals exact ⟨rfl, rfl, rfl, rfl, rfl⟩

theorem Group.rejudge_closed (h : x.round = none) : x.rejudge hold = x := by
  rw [Group.rejudge, h]

/-- R151: a round that no member is left of closes. -/
theorem Group.rejudge_nil {r : Round} (hr : x.round = some r) (h : r.members = []) :
    x.rejudge hold = { x with round := none, showDue := false } := by
  simp only [Group.rejudge, hr, h, List.isEmpty_nil, if_true]

/-- R151, R152: the SHOW of a round with members is due by its law. -/
theorem Group.rejudge_members {r : Round} (hr : x.round = some r) (h : r.members ≠ []) :
    x.rejudge hold = { x with showDue := r.members.all (·.staged) || decide (hold ≤ r.age) } := by
  have hne : r.members.isEmpty = false := List.isEmpty_eq_false_iff.mpr h
  simp only [Group.rejudge, hr, hne, Bool.false_eq_true, if_false, Round.ready, Round.full, Bool.not_false,
    Bool.true_and]

end

section
variable (x : Group) {changes grouped : Bool} (hold : Nat)

/-- R152: what a load leaves of a group with no broadcast in flight. -/
theorem Group.rejudge_underMode_keeps :
    ((x.underMode changes grouped).rejudge hold).sentStep = x.sentStep ∧
    ((x.underMode changes grouped).rejudge hold).candStep = x.candStep ∧
    ((x.underMode changes grouped).rejudge hold).changed = x.changed := by
  obtain ⟨hsent, hcand, hchanged⟩ := x.underMode_keeps (changes := changes) (grouped := grouped)
  obtain ⟨-, -, hsent', hcand', hchanged'⟩ := Group.rejudge_keeps (x := x.underMode changes grouped) hold
  exact ⟨hsent'.trans hsent, hcand'.trans hcand, hchanged'.trans hchanged⟩

/-- R152: its flags. -/
theorem Group.rejudge_underMode_flags :
    (changes = true → ((x.underMode changes grouped).rejudge hold).completed = false ∧
      ((x.underMode changes grouped).rejudge hold).syncFail = false) ∧
    (¬ changes = true → ((x.underMode changes grouped).rejudge hold).completed = x.completed ∧
      ((x.underMode changes grouped).rejudge hold).syncFail = x.syncFail) := by
  obtain ⟨hcompleted, hsync, -⟩ := Group.rejudge_keeps (x := x.underMode changes grouped) hold
  rw [hcompleted, hsync]
  exact ⟨x.underMode_clears, fun h => by rw [x.underMode_same h]; exact ⟨rfl, rfl⟩⟩

/-- R152: GROUPED to SEQUENTIAL closes its round. -/
theorem Group.rejudge_underMode_closes (h : changes = true) (hg : grouped = false) :
    ((x.underMode changes grouped).rejudge hold).round = none ∧
    ((x.underMode changes grouped).rejudge hold).showDue = false := by
  obtain ⟨hr, hd⟩ := x.underMode_closes h hg
  rw [Group.rejudge_closed hold hr]
  exact ⟨hr, hd⟩

variable {x} (h : ¬ (changes = true ∧ grouped = false))
include h

/-- R152: its round otherwise, judged by the members left and the hold limit. -/
theorem Group.rejudge_underMode_none (hnone : x.round = none) :
    ((x.underMode changes grouped).rejudge hold).round = none ∧
    ((x.underMode changes grouped).rejudge hold).showDue = x.showDue := by
  obtain ⟨hr, hd⟩ := x.underMode_round h
  rw [Group.rejudge_closed hold (hr.trans hnone)]
  exact ⟨hr.trans hnone, hd⟩

theorem Group.rejudge_underMode_nil {r : Round} (hopen : x.round = some r) (hnil : r.members = []) :
    ((x.underMode changes grouped).rejudge hold).round = none ∧
    ((x.underMode changes grouped).rejudge hold).showDue = false := by
  obtain ⟨hr, -⟩ := x.underMode_round h
  rw [Group.rejudge_nil hold (hr.trans hopen) hnil]
  exact ⟨rfl, rfl⟩

theorem Group.rejudge_underMode_members {r : Round} (hopen : x.round = some r) (hne : r.members ≠ []) :
    ((x.underMode changes grouped).rejudge hold).round = some r ∧
    ((x.underMode changes grouped).rejudge hold).showDue = (r.members.all (·.staged) || decide (hold ≤ r.age)) := by
  obtain ⟨hr, -⟩ := x.underMode_round h
  rw [Group.rejudge_members hold (hr.trans hopen) hne]
  exact ⟨hr.trans hopen, rfl⟩

end

/-- R142: a group whose broadcast SHOW is in flight takes note of a change of mode. -/
theorem Group.reconfigure_broadcasting (x : Group) {c : LineCtl} (f : LineConfig) {g : Nat}
    (h : c.broadcasting g = true) :
    x.reconfigure c f g = { x.restrict f g with changed := x.changed || c.modeChanges f g } := by
  rw [Group.reconfigure]
  simp only [h, if_true, Group.restrict_eq]
  rfl

/-- R152: any other group is judged anew under its new mode and hold limit. -/
theorem Group.reconfigure_free (x : Group) {c : LineCtl} (f : LineConfig) {g : Nat} (h : ¬ c.broadcasting g = true) :
    x.reconfigure c f g
      = ((x.restrict f g).underMode (c.modeChanges f g) (f.group g).grouped).rejudge (f.group g).hold :=
  if_neg h

/-! ### The line under a new configuration (R142) -/

/-- R142: the record of an address in both lists. -/
theorem panelOf_kept {c : LineCtl} {place : PanelPlace} {q : Panel} (h : c.panel place.address = some q) :
    panelOf c place = { q with group := place.group } := by
  rw [panelOf, h]

/-- R142: the record of an address in the new list alone. -/
theorem panelOf_new {c : LineCtl} {place : PanelPlace} (h : c.panel place.address = none) :
    panelOf c place = newPanel place.address place.group := by
  rw [panelOf, h]

section
variable (c : LineCtl) (f : LineConfig) (us : Word)

/-- R142: the exchange, its quiet time and its tail under the new configuration: cut off, or as they were. -/
theorem LineCtl.configure_cut (h : c.losesExchange f = true) :
    (c.configure f us).exchange = (c.cutOff us).exchange ∧ (c.configure f us).quiet = (c.cutOff us).quiet ∧
      (c.configure f us).tail = (c.cutOff us).tail := by
  simp only [LineCtl.configure, h, if_true, and_self]

theorem LineCtl.configure_uncut (h : ¬ c.losesExchange f = true) :
    (c.configure f us).exchange = c.exchange ∧ (c.configure f us).quiet = c.quiet ∧
      (c.configure f us).tail = c.tail := by
  simp only [LineCtl.configure, h, Bool.false_eq_true, if_false, and_self]

/-- R142: what a profile leaves of the line. -/
theorem LineCtl.configure_frame : { c.configure f us with
    config := c.config, panels := c.panels, exchange := c.exchange, quiet := c.quiet, tail := c.tail
    groups := c.groups } = c := by
  by_cases h : c.losesExchange f = true
  · simp only [LineCtl.configure, h, if_true]
    exact congrArg (fun d : LineCtl => { d with config := c.config, panels := c.panels, groups := c.groups })
      (c.cutOff_frame us)
  · simp only [LineCtl.configure, h, Bool.false_eq_true, if_false]

end

/-- R142: the first profile handed to the line is taken. -/
theorem Part.lineProfile_eq {p : Part} {l : Line} {f : Profile} {rest : List Profile}
    (h : (p.line l).profiles = f :: rest) :
    p.lineProfile l = p.setLine l { (p.line l).configure (f.line l) p.swp.us with profiles := rest } := by
  rw [Part.lineProfile, h]

/-! ### The quiet time (R138) -/

theorem reached_iff (now deadline : Word) : reached now deadline = true ↔ (now - deadline).toNat < 2147483648 :=
  decide_eq_true_iff

/-- R138: whether the character in hand of a cut-off exchange is still being sent. -/
theorem LineCtl.tailSends_some {c : LineCtl} {x : Sending} (h : c.tail = some x) (us : Word) : c.tailSends us =
    decide (2147483648 ≤ (us - (x.start + BitVec.ofNat 32 (sendingTime x.rate x.bytes.length))).toNat) := by
  rw [LineCtl.tailSends, h]
  exact decide_not.symm.trans (decide_eq_decide.mpr Nat.not_lt)

theorem LineCtl.tailSends_none {c : LineCtl} (h : c.tail = none) (us : Word) : c.tailSends us = false := by
  rw [LineCtl.tailSends, h]

/-- R138: the character in hand of a cut-off exchange is still being sent. -/
theorem LineCtl.tailSends_iff (c : LineCtl) (us : Word) : c.tailSends us = true ↔ ∃ x, c.tail = some x ∧
    2147483648 ≤ (us - (x.start + BitVec.ofNat 32 (sendingTime x.rate x.bytes.length))).toNat := by
  cases h : c.tail with
  | none => simp [LineCtl.tailSends_none h]
  | some x => simp [LineCtl.tailSends_some h]

section
variable {c : LineCtl} {us d : Word} (hd : c.quiet = some d)
include hd

/-- R138: the quiet time ends once its 2 ms have passed, judged modulo 2^32 (log 25), and not before. -/
theorem LineCtl.quietEnd_reached (h : (us - d).toNat < 2147483648) :
    c.quietEnd us = { c with quiet := none, tail := none } := by
  simp only [LineCtl.quietEnd, reachedOpt, hd, (reached_iff us d).mpr h, if_true]

theorem LineCtl.quietEnd_before (h : 2147483648 ≤ (us - d).toNat) : c.quietEnd us = c := by
  have hr : ¬ reached us d = true := fun hr => absurd ((reached_iff us d).mp hr) (Nat.not_lt.mpr h)
  simp only [LineCtl.quietEnd, reachedOpt, hd, hr, Bool.false_eq_true, if_false]

/-- R138: a start bit is heard only while the controller receives. -/
theorem LineCtl.quietAgain_sending (h : c.tailSends us = true) : c.quietAgain us = c := by
  simp only [LineCtl.quietAgain, hd, h, if_true]

theorem LineCtl.quietAgain_receiving (h : ¬ c.tailSends us = true) :
    c.quietAgain us = { c with quiet := some (us + 2000#32) } := by
  simp only [LineCtl.quietAgain, hd, h, Bool.false_eq_true, if_false]
  rfl

end

theorem LineCtl.quietEnd_none {c : LineCtl} (h : c.quiet = none) (us : Word) : c.quietEnd us = c := by
  simp only [LineCtl.quietEnd, reachedOpt, h, Bool.false_eq_true, if_false]

theorem LineCtl.quietAgain_none {c : LineCtl} (h : c.quiet = none) (us : Word) : c.quietAgain us = c := by
  simp only [LineCtl.quietAgain, h]

section
variable {s : State} {l : Line} {d : LineCtl}

theorem exec_cutOffQuietEnd (h : (s.part.line l).quietEnd s.part.swp.us = d) :
    exec (.cutOffQuietEnd l) s = .next { s with part := s.part.setLine l d } :=
  exec_next (fun p => p.setLine l ((p.line l).quietEnd p.swp.us)) rfl (congrArg (s.part.setLine l) h)

theorem exec_quietTimeStartBit (h : (s.part.line l).quietAgain s.part.swp.us = d) :
    exec (.quietTimeStartBit l) s = .next { s with part := s.part.setLine l d } :=
  exec_next (fun p => p.setLine l ((p.line l).quietAgain p.swp.us)) rfl (congrArg (s.part.setLine l) h)

end

/-! ### TXD and DIR (R135) -/

/-- R135: the bits of a character. -/
theorem characterBits_get (b : Byte) {i : Nat} (h : i < 11) : (characterBits b)[i]? = some
    (if i = 0 then false else if i ≤ 8 then b.toNat.testBit (i - 1) else if i = 9 then evenParity b else true) := by
  interval_cases i <;> rfl

/-- R135: the bits of characters sent back to back, 11 to a character. -/
theorem flatMap_characterBits_get (bytes : List Byte) (n : Nat) :
    (bytes.flatMap characterBits)[n]? = (bytes[n / 11]?).bind (fun b => (characterBits b)[n % 11]?) := by
  induction bytes generalizing n with
  | nil => rfl
  | cons b rest ih =>
    have hlength : (characterBits b).length = 11 := rfl
    rw [List.flatMap_cons]
    by_cases h : n < 11
    · rw [List.getElem?_append_left (by rwa [hlength]), Nat.div_eq_of_lt h, Nat.mod_eq_of_lt h]
      rfl
    · obtain ⟨m, rfl⟩ := Nat.exists_eq_add_of_le' (Nat.not_lt.mp h)
      rw [List.getElem?_append_right (by rw [hlength]; omega), hlength, Nat.add_sub_cancel, ih,
        Nat.add_div_right m (by decide), Nat.add_mod_right]
      rfl

section
variable (x : Sending) {quarters : Nat}

/-- R135: TXD rests at 1 once the characters are sent. -/
theorem Sending.level_past (h : x.bytes[quarters / bitQuarters x.rate / 11]? = none) : x.level quarters = true := by
  rw [Sending.level, List.getD_eq_getElem?_getD, flatMap_characterBits_get, h]
  rfl

/-- R135: TXD while a character is being sent. -/
theorem Sending.level_character {b : Byte} (h : x.bytes[quarters / bitQuarters x.rate / 11]? = some b) :
    x.level quarters =
      if quarters / bitQuarters x.rate % 11 = 0 then false
      else if quarters / bitQuarters x.rate % 11 ≤ 8 then b.toNat.testBit (quarters / bitQuarters x.rate % 11 - 1)
      else if quarters / bitQuarters x.rate % 11 = 9 then evenParity b else true := by
  rw [Sending.level, List.getD_eq_getElem?_getD, flatMap_characterBits_get, h, Option.bind_some,
    characterBits_get b (Nat.mod_lt _ (by decide))]
  rfl

end

section
variable (c : LineCtl) (us : Word) (quarter : Nat)

/-- R135: TXD rests at 1 while nothing is sent. -/
theorem LineCtl.txd_resting (h : c.sending = none) : c.txd us quarter = true := by
  rw [LineCtl.txd, h]

theorem LineCtl.txd_sending {y : Sending} (h : c.sending = some y) :
    c.txd us quarter = y.level (4 * (us - y.start).toNat + quarter) := by
  rw [LineCtl.txd, h]

/-- R138: with an exchange in flight its frame is sent, and DIR is at transmit until its sending ends. -/
theorem LineCtl.sending_exchange {x : Exchange} (hx : c.exchange = some x) :
    c.sending = x.sending ∧ c.transmitting us = !x.awaiting := by
  rw [LineCtl.sending, LineCtl.transmitting, hx]
  exact ⟨rfl, rfl⟩

/-- R138: with none, what a cut-off exchange left. -/
theorem LineCtl.sending_tail (hx : c.exchange = none) : c.sending = c.tail ∧ c.transmitting us = c.tailSends us := by
  rw [LineCtl.sending, LineCtl.transmitting, hx]
  exact ⟨rfl, rfl⟩

end

/-- Settles O50: the profile, record by record and group by group, the cut, the quiet time, and the levels of TXD and
DIR. -/
theorem lineTakesProfile : Obligations.LineTakesProfile := by
  unfold Obligations.LineTakesProfile
  intro quarters
  have hquarters : bitQuarters = quarters := funext bitQuarters_eq
  refine ⟨?_, ?_, ?_⟩
  · intro s l f rest hprofiles c n listed cut round grouped hold broadcasting modeChanges
    have hcut : cut ↔ c.losesExchange n = true := (c.losesExchange_iff n).symm
    have hbroadcasting (g : Nat) : broadcasting g ↔ c.broadcasting g = true := (c.broadcasting_iff g).symm
    have hmode (g : Nat) : modeChanges g ↔ c.modeChanges n g = true := (c.modeChanges_iff n g).symm
    have hrecord (i : Nat) (place : PanelPlace) (hi : n.panels[i]? = some place) :
        (n.panels.map (panelOf c))[i]? = some (panelOf c place) := by
      rw [List.getElem?_map, hi]
      rfl
    refine ⟨_, { c.configure n s.part.swp.us with profiles := rest },
      exec_next (·.lineProfile l) rfl (Part.lineProfile_eq hprofiles), rfl, (Part.line_setLine _ _ _).symm, rfl, rfl,
      List.length_map _, fun i place hi => ⟨fun q hq => ?_, fun hnew => ?_⟩, fun h => ?_, fun x h hx => ?_,
      fun h => c.configure_uncut n _ (mt hcut.mpr h), length_mapGroups _ _ _, fun g hg => ?_, ?_, ?_⟩
    · exact (hrecord i place hi).trans (congrArg some (panelOf_kept hq))
    · exact ⟨_, (hrecord i place hi).trans (congrArg some (panelOf_new hnew)), rfl, rfl, rfl, rfl, rfl, rfl, rfl, rfl,
        rfl, rfl, rfl⟩
    · exact (c.configure_cut n _ (hcut.mp h)).1.trans (c.cutOff_exchange _)
    · intro start begun
      have hbegun : x.framing.begun s.part.swp.us = begun := by
        rw [Sending.begun, hquarters]
        rfl
      obtain ⟨-, hquiet, htail⟩ := c.configure_cut n s.part.swp.us (hcut.mp h)
      rw [← hbegun]
      refine ⟨fun hpast => ?_, fun hsending hwithin => ?_⟩
      · have hcutOff := LineCtl.cutOff_past hx _ hpast
        exact ⟨htail.trans (congrArg (·.tail) hcutOff), hquiet.trans (congrArg (·.quiet) hcutOff)⟩
      · have hcutOff := LineCtl.cutOff_within hx _ hsending hwithin
        exact ⟨htail.trans (congrArg (·.tail) hcutOff), hquiet.trans (congrArg (·.quiet) hcutOff)⟩
    · have hgroup : (c.configure n s.part.swp.us).group g = (c.group g).reconfigure c n g := getD_mapGroups _ hg _
      have hround : (c.group g).restrict n g = { c.group g with round := round g } := Group.restrict_eq _ n g
      rw [show LineCtl.group { c.configure n s.part.swp.us with profiles := rest } g = _ from hgroup]
      by_cases hb : c.broadcasting g = true
      · rw [Group.reconfigure_broadcasting _ n hb, hround]
        refine ⟨rfl, rfl, fun _ => ⟨rfl, rfl, rfl, rfl, ?_⟩, fun h => absurd ((hbroadcasting g).mpr hb) h⟩
        rw [hmode, Bool.or_eq_true]
      · rw [Group.reconfigure_free _ n hb, hround]
        let x : Group := { c.group g with round := round g }
        obtain ⟨hsent, hcand, hchanged⟩ := x.rejudge_underMode_keeps (hold g)
        obtain ⟨hclears, hsame⟩ := x.rejudge_underMode_flags (hold g)
        have hkeeps (h : ¬ (modeChanges g ∧ grouped n g = false)) :
            ¬ (c.modeChanges n g = true ∧ grouped n g = false) := fun hm => h ⟨(hmode g).mpr hm.1, hm.2⟩
        exact ⟨hsent, hcand, fun h => absurd ((hbroadcasting g).mp h) hb, fun _ => ⟨hchanged,
          fun hm => hclears ((hmode g).mp hm), fun hm => hsame (mt (hmode g).mpr hm),
          fun hm => x.rejudge_underMode_closes (hold g) ((hmode g).mp hm),
          fun hm => ⟨Group.rejudge_underMode_none (x := x) (hold g) (hkeeps hm),
            fun r => Group.rejudge_underMode_nil (x := x) (hold g) (hkeeps hm),
            fun r => Group.rejudge_underMode_members (x := x) (hold g) (hkeeps hm)⟩⟩⟩
    · exact congrArg (fun d : LineCtl => { d with profiles := c.profiles }) (c.configure_frame n s.part.swp.us)
    · exact (Part.setLine_setLine _ _ _ _).trans (Part.setLine_line _ _)
  · intro s l c us ended again sends
    have hsends : sends ↔ c.tailSends us = true := (c.tailSends_iff us).symm
    have hkeep : (.next { s with part := s.part.setLine l c } : Answer) = .next s := by
      rw [Part.setLine_line]
    exact ⟨fun d hd => ⟨fun h => exec_cutOffQuietEnd (LineCtl.quietEnd_reached hd h),
        fun h => (exec_cutOffQuietEnd (LineCtl.quietEnd_before hd h)).trans hkeep,
        fun h => exec_quietTimeStartBit (LineCtl.quietAgain_receiving hd (mt hsends.mpr h)),
        fun h => (exec_quietTimeStartBit (LineCtl.quietAgain_sending hd (hsends.mp h))).trans hkeep⟩,
      fun hnone => ⟨(exec_cutOffQuietEnd (LineCtl.quietEnd_none hnone us)).trans hkeep,
        (exec_quietTimeStartBit (LineCtl.quietAgain_none hnone us)).trans hkeep⟩⟩
  · intro c us quarter shown
    have hshown (y : Sending) : y.level (4 * (us - y.start).toNat + quarter) = shown y.bytes y.rate y.start := by
      simp only [shown, ← hquarters]
      split
      next h => exact y.level_past h
      next b h => exact y.level_character h
    refine ⟨fun x hx => ?_, fun hx => ?_⟩
    · obtain ⟨hsending, hdir⟩ := c.sending_exchange us hx
      refine ⟨fun h => ⟨?_, ?_⟩, fun h => ⟨?_, ?_⟩⟩
      · exact c.txd_resting us quarter (hsending.trans (x.sending_awaiting h))
      · rw [hdir, h]
        rfl
      · rw [hdir, h]
        rfl
      · exact (c.txd_sending us quarter (hsending.trans (x.sending_frame h))).trans (hshown _)
    · obtain ⟨hsending, hdir⟩ := c.sending_tail us hx
      refine ⟨fun h => ⟨?_, ?_⟩, fun x h => ⟨?_, ?_⟩⟩
      · exact c.txd_resting us quarter (hsending.trans h)
      · exact hdir.trans (LineCtl.tailSends_none h us)
      · exact (c.txd_sending us quarter (hsending.trans h)).trans (hshown x)
      · exact hdir.trans (LineCtl.tailSends_some h us)

end Sys2Proof.Machine
end

section
/-! PROOF. The sweep timer (chapter 9): its boundaries, their number and the pulses they start (R157 to R160); O51. -/

namespace Sys2Proof.Machine

/-! ### Deadlines and sync states (R156, R157, R161) -/

theorem reachedOpt_iff (now : Word) (deadline : Option Word) :
    reachedOpt now deadline = true ↔ ∃ d, deadline = some d ∧ (now - d).toNat < 2147483648 := by
  cases deadline with
  | none => simp [reachedOpt]
  | some d => simp [reachedOpt, reached_iff]

theorem reachedOpt_some {now d : Word} {deadline : Option Word} (hd : deadline = some d) :
    reachedOpt now deadline = true ↔ (now - d).toNat < 2147483648 := by
  rw [hd]
  exact reached_iff now d

/-- A deadline set to the present time is reached. -/
theorem reachedOpt_now (now : Word) : reachedOpt now (some now) = true := by
  rw [reachedOpt_some rfl, BitVec.sub_self]
  decide

theorem SyncState.ownTimed_iff (x : SyncState) : x.ownTimed = true ↔ x ≠ .following := by
  cases x <;> simp [SyncState.ownTimed]

theorem SyncState.watches_iff (x : SyncState) : x.watches = true ↔ x = .following ∨ x = .freewheel := by
  cases x <;> simp [SyncState.watches]

/-- R157: a boundary of the timer's own is due. -/
theorem Part.boundaryDue_iff (p : Part) : p.boundaryDue = true ↔
    p.regs.run = true ∧ p.swp.sync ≠ .following ∧
      ∃ d, p.swp.nextDue = some d ∧ (p.swp.ms - d).toNat < 2147483648 := by
  rw [Part.boundaryDue, Bool.and_eq_true, Bool.and_eq_true, SyncState.ownTimed_iff, reachedOpt_iff, and_assoc]

/-! ### The sweep number (R159) -/

theorem numberAfter_noWrap (n : Nat) (zeroMark : Bool) : numberAfter 0 n zeroMark = 0 := if_pos rfl

section
variable {wrap n : Nat} (hwrap : wrap ≠ 0)
include hwrap

theorem numberAfter_zeroMark : numberAfter wrap n true = 1 := by
  rw [numberAfter, if_neg hwrap, if_pos rfl]

theorem numberAfter_restarts (h : n = 0 ∨ wrap ≤ n) : numberAfter wrap n false = 1 := by
  rw [numberAfter, if_neg hwrap, if_neg Bool.false_ne_true, if_pos h]

theorem numberAfter_counts (h : ¬ (n = 0 ∨ wrap ≤ n)) : numberAfter wrap n false = n + 1 := by
  rw [numberAfter, if_neg hwrap, if_neg Bool.false_ne_true, if_neg h]

end

/-! ### The pulses (R158, R160) -/

theorem Sweep.leadEnd_first {w : Sweep} (h : w.leadPulse = none) (number : Nat) :
    w.leadEnd number = w.us + leadPulseLength number := by
  rw [Sweep.leadEnd, h]

/-- R160: with a lead pulse in progress the line stays at 1 to the later of the two ends (log 53). -/
theorem Sweep.leadEnd_later {w : Sweep} {e : Word} (h : w.leadPulse = some e) (number : Nat) :
    w.leadEnd number = if (w.us + leadPulseLength number - e).toNat < 2147483648
      then w.us + leadPulseLength number else e := by
  simp only [Sweep.leadEnd, h, reached_iff]

theorem Sweep.endSweepPulse_reached {w : Sweep} {e : Word} (he : w.sweepPulse = some e)
    (h : (w.us - e).toNat < 2147483648) : w.endSweepPulse = { w with sweepPulse := none } :=
  if_pos ((reachedOpt_some he).mpr h)

theorem Sweep.endLeadPulse_reached {w : Sweep} {e : Word} (he : w.leadPulse = some e)
    (h : (w.us - e).toNat < 2147483648) : w.endLeadPulse = { w with leadPulse := none } :=
  if_pos ((reachedOpt_some he).mpr h)

/-! ### TSYNC as driven (R160) -/

theorem Part.tsyncDrive_pulse {p : Part} {e : Word} (h : p.swp.leadPulse = some e) : p.tsyncDrive = some true := by
  rw [Part.tsyncDrive, h]

section
variable {p : Part} (hpulse : p.swp.leadPulse = none)
include hpulse

theorem Part.tsyncDrive_leading (h : p.swp.sync = .leading) : p.tsyncDrive = some false := by
  simp only [Part.tsyncDrive, hpulse, h, if_true]

theorem Part.tsyncDrive_released (h : p.swp.sync ≠ .leading) : p.tsyncDrive = none := by
  simp only [Part.tsyncDrive, hpulse, h, if_false]

end

/-! ### Boundaries (R157, R158) -/

/-- R160: a boundary starts a lead pulse in LEADING alone. -/
theorem Sweep.boundary_of_ne_leading {w : Sweep} (h : w.sync ≠ .leading) (zeroMark : Bool) :
    w.boundary zeroMark = { w with
      number := numberAfter w.wrap w.number zeroMark, last := some { us := w.us, ms := w.ms }
      sweepPulse := some (w.us + 1000#32) } := by
  rw [Sweep.boundary, if_neg h]

/-- R157: a boundary of the timer's own, and next boundary due one period on. -/
theorem Part.ownBoundary_due {p : Part} (h : p.boundaryDue = true) : p.ownBoundary = { p.makeBoundary false with
    swp := { p.swp.boundary false with nextDue := some (p.swp.ms + msLength p.swp.period) } } :=
  if_pos h

theorem Part.ownBoundary_undue {p : Part} (h : ¬ p.boundaryDue = true) : p.ownBoundary = p := if_neg h

/-- R157, R164: a boundary of the timer's own keeps the sync state, the silence deadline and the profile's settings. -/
theorem Part.ownBoundary_settings (p : Part) :
    p.ownBoundary.swp.sync = p.swp.sync ∧ p.ownBoundary.swp.silence = p.swp.silence ∧
    p.ownBoundary.swp.profiles = p.swp.profiles ∧ p.ownBoundary.swp.period = p.swp.period ∧
    p.ownBoundary.swp.wrap = p.swp.wrap ∧ p.ownBoundary.swp.role = p.swp.role ∧
    p.ownBoundary.swp.outs = p.swp.outs := by
  by_cases h : p.boundaryDue = true
  · rw [Part.ownBoundary_due h]
    exact ⟨rfl, rfl, rfl, rfl, rfl, rfl, rfl⟩
  · rw [Part.ownBoundary_undue h]
    exact ⟨rfl, rfl, rfl, rfl, rfl, rfl, rfl⟩

theorem exec_sweepBoundary (s : State) : exec .sweepBoundary s = .next { s with part := s.part.ownBoundary } :=
  exec_next (·.ownBoundary) rfl rfl

/-- Settles O51, by the cases of the number, and by whether next boundary due is reached. -/
theorem sweepBoundaryByPeriod : Obligations.SweepBoundaryByPeriod := by
  refine ⟨fun wrap n zeroMark => ⟨?_, ?_, ?_, ?_⟩, fun s due hrun hsync hdue => ?_,
    fun s => ⟨fun e he h => ?_, fun e he h => ?_⟩, fun p => ⟨fun e => Part.tsyncDrive_pulse, fun hpulse =>
      ⟨Part.tsyncDrive_leading hpulse, Part.tsyncDrive_released hpulse⟩⟩⟩
  · rintro rfl
    exact numberAfter_noWrap n zeroMark
  · rintro hwrap rfl
    exact numberAfter_zeroMark hwrap
  · rintro hwrap rfl h
    exact numberAfter_restarts hwrap h
  · rintro hwrap rfl hn hlt
    exact numberAfter_counts hwrap (not_or.mpr ⟨hn, Nat.not_le.mpr hlt⟩)
  · intro w number ends later raised rung
    have hown : w.sync ≠ .following := by
      rcases hsync with h | h | h <;> simp [w, h]
    have hiff : s.part.boundaryDue = true ↔ (w.ms - due).toNat < 2147483648 := by
      simp [Part.boundaryDue_iff, hrun, hdue, w, hown]
    have hlater : w.leadEnd number = later := by
      cases he : w.leadPulse with
      | none => simp only [later, he, Sweep.leadEnd_first he, ends, leadPulseLength]
      | some e =>
        rw [Sweep.leadEnd_later he]
        simp only [later, he]
        rfl
    refine ⟨fun h => ?_, fun h => ?_⟩
    · rw [exec_sweepBoundary, Part.ownBoundary_due (hiff.mpr h), ← hlater]
      rfl
    · rw [exec_sweepBoundary, Part.ownBoundary_undue (mt hiff.mp (Nat.not_lt.mpr h))]
  · exact exec_next (fun p => { p with swp := p.swp.endSweepPulse }) rfl (by rw [Sweep.endSweepPulse_reached he h])
  · exact exec_next (fun p => { p with swp := p.swp.endLeadPulse }) rfl (by rw [Sweep.endLeadPulse_reached he h])

end Sys2Proof.Machine
end

section
/-! PROOF. Train sync (R161 to R163): the edges of TSYNC, what a valid pulse does, the loss and the regain of the leader;
O52. -/

namespace Sys2Proof.Machine

/-! ### Edges (R161) -/

theorem Part.watching_iff (p : Part) : p.watching = true ↔
    p.regs.run = true ∧ (p.swp.sync = .following ∨ p.swp.sync = .freewheel) := by
  rw [Part.watching, Bool.and_eq_true, SyncState.watches_iff]

/-- The part with TSYNC read at this level. -/
def Part.seeTsync (p : Part) (level : Bool) : Part := { p with pins := { p.pins with tsync := level } }

theorem Part.tsyncRise_watched {p : Part} (h : p.watching = true) :
    p.tsyncRise = { p.seeTsync true with swp := { p.swp with pulseStart := some p.swp.us } } :=
  if_pos h

theorem Part.tsyncRise_ignored {p : Part} (h : ¬ p.watching = true) : p.tsyncRise = p.seeTsync true := if_neg h

theorem Part.tsyncFall_ignored {p : Part} (h : ¬ p.watching = true) : p.tsyncFall = p.seeTsync false := if_neg h

theorem Part.tsyncFall_noPulse {p : Part} (h : p.watching = true) (hstart : p.swp.pulseStart = none) :
    p.tsyncFall = p.seeTsync false := by
  refine (if_pos h).trans ?_
  simp only [hstart]
  rfl

theorem Part.tsyncFall_pulse {p : Part} {start : Word} (h : p.watching = true)
    (hstart : p.swp.pulseStart = some start) :
    p.tsyncFall = Part.pulseEnds { p.seeTsync false with swp := { p.swp with pulseStart := none } }
      (p.swp.us - start).toNat := by
  refine (if_pos h).trans ?_
  simp only [hstart]
  rfl

/-! ### Pulses by their width (R161) -/

theorem Part.pulseEnds_glitch {width : Nat} (h : width < 250) (p : Part) : p.pulseEnds width = p := by
  rw [Part.pulseEnds, pulseClass, if_pos h]

theorem Part.pulseEnds_valid {width : Nat} (h : 250 ≤ width) (p : Part) :
    p.pulseEnds width = p.validPulse (decide (2000 ≤ width)) := by
  rw [Part.pulseEnds, pulseClass, if_neg (Nat.not_lt.mpr h)]
  by_cases hmark : width < 2000
  · rw [if_pos hmark, decide_eq_false (Nat.not_le.mpr hmark)]
  · rw [if_neg hmark, decide_eq_true (Nat.not_lt.mp hmark)]

/-! ### A valid pulse (R162, R163) -/

/-- R162: the guard of 20 ms after the last boundary. -/
theorem Sweep.clearOfLast_iff (w : Sweep) :
    w.clearOfLast = true ↔ ¬ ∃ b, w.last = some b ∧ (w.us - b.us).toNat < 20000 := by
  cases h : w.last with
  | none => simp [Sweep.clearOfLast, h]
  | some b => simp [Sweep.clearOfLast, h]

theorem Part.followPulse_clear {p : Part} (h : p.swp.clearOfLast = true) (zeroMark : Bool) :
    p.followPulse zeroMark = p.makeBoundary zeroMark :=
  if_pos h

section
variable {p : Part} (h : ¬ p.swp.clearOfLast = true)
include h

theorem Part.followPulse_ordinary : p.followPulse false = p :=
  (if_neg h).trans (if_neg Bool.false_ne_true)

theorem Part.followPulse_realigns : p.followPulse true =
    { p with swp := { p.swp with number := if p.swp.wrap = 0 then p.swp.number else 1 } } := by
  refine (if_neg h).trans ((if_pos rfl).trans ?_)
  rw [Sweep.realign]
  split <;> rfl

end

/-- R163: the regain of the leader keeps what the boundary of its pulse is made from. -/
theorem Part.regain_boundaries (p : Part) : p.regain.swp.number = p.swp.number ∧ p.regain.swp.wrap = p.swp.wrap ∧
    p.regain.swp.us = p.swp.us ∧ p.regain.swp.ms = p.swp.ms := by
  unfold Part.regain
  split <;> exact ⟨rfl, rfl, rfl, rfl⟩

/-- R163: a watching timer follows after a valid pulse. -/
theorem Part.regain_follows {p : Part} (h : p.swp.sync = .following ∨ p.swp.sync = .freewheel) :
    p.regain.swp.sync = .following := by
  rcases h with h | h
  · rw [Part.regain, if_neg (by simp [h])]
    exact h
  · rw [Part.regain, if_pos h]
    rfl

theorem Part.regain_clearOfLast (p : Part) : p.regain.swp.clearOfLast = p.swp.clearOfLast := by
  unfold Part.regain
  split <;> rfl

/-! ### The loss of the leader (R163) -/

/-- R163: the part when the leader is lost, before the boundary that is then made at once. -/
def Part.freed (p : Part) : Part :=
  Part.raise { p with swp := { p.swp with sync := .freewheel, silence := none, nextDue := some p.swp.ms } } .trainSync

/-- R163: the silence deadline is reached in FOLLOWING. -/
theorem Part.loseLeader_lost {p : Part} (hrun : p.regs.run = true) (hsync : p.swp.sync = .following)
    (h : reachedOpt p.swp.ms p.swp.silence = true) : p.loseLeader = p.freed.ownBoundary :=
  if_pos ⟨hrun, hsync, h⟩

theorem Part.loseLeader_kept {p : Part}
    (h : ¬ (p.regs.run = true ∧ p.swp.sync = .following ∧ reachedOpt p.swp.ms p.swp.silence = true)) :
    p.loseLeader = p :=
  if_neg h

/-- R163: the boundary of a timer that has lost its leader is due. -/
theorem Part.freed_boundaryDue {p : Part} (hrun : p.regs.run = true) : p.freed.boundaryDue = true := by
  have hown : p.freed.swp.sync ≠ .following := SyncState.noConfusion
  rw [Part.boundaryDue_iff]
  exact ⟨hrun, hown, (reachedOpt_iff p.swp.ms (some p.swp.ms)).mp (reachedOpt_now p.swp.ms)⟩

/-- R163: TRAIN_SYNC stands at the loss of the leader. -/
theorem Part.freed_attention (p : Part) : p.freed.rep.attention.getLsbD 7 = true := by
  have hmask : Flag.trainSync.mask.getLsbD 7 = true := by decide
  rw [Part.freed, Part.raise_attention, BitVec.getLsbD_or, hmask, Bool.or_true]

theorem exec_syncSilenceExpiry (s : State) : exec .syncSilenceExpiry s = .next { s with part := s.part.loseLeader } :=
  exec_next (·.loseLeader) rfl rfl

/-- Settles O52, by the width of a pulse and the guard of 20 ms, and by whether the silence deadline is reached. -/
theorem trainSyncFollowsTheLeader : Obligations.TrainSyncFollowsTheLeader := by
  constructor
  · intro s high low watches
    have hwatches : s.part.watching = true ↔ watches := s.part.watching_iff
    refine ⟨fun h => ?_, fun h => ⟨?_, fun hstart => ?_, fun start hstart => ?_⟩⟩
    · exact ⟨exec_next (·.tsyncRise) rfl (Part.tsyncRise_ignored (mt hwatches.mp h)),
        exec_next (·.tsyncFall) rfl (Part.tsyncFall_ignored (mt hwatches.mp h))⟩
    · exact exec_next (·.tsyncRise) rfl (Part.tsyncRise_watched (hwatches.mpr h))
    · exact exec_next (·.tsyncFall) rfl (Part.tsyncFall_noPulse (hwatches.mpr h) hstart)
    · intro w width zeroMark valid heard followed near
      have hfall {q : Part}
          (hq : Part.pulseEnds { low with swp := { w with pulseStart := none } } width = q) :
          exec .tsyncTrailingEdge s = .next { s with part := q } :=
        exec_next (·.tsyncFall) rfl ((Part.tsyncFall_pulse (hwatches.mpr h) hstart).trans hq)
      have hvalid {q : Part} (hwidth : 250 ≤ width) (hq : followed.followPulse zeroMark = q) :
          exec .tsyncTrailingEdge s = .next { s with part := q } :=
        hfall ((Part.pulseEnds_valid hwidth _).trans hq)
      have hclear : followed.swp.clearOfLast = true ↔ ¬ near :=
        (Bool.eq_iff_iff.mp heard.regain_clearOfLast).trans (Sweep.clearOfLast_iff valid)
      have hsync : followed.swp.sync = .following := heard.regain_follows h.2
      obtain ⟨hnumber, hwrap, hus, hms⟩ : followed.swp.number = w.number ∧ followed.swp.wrap = w.wrap ∧
        followed.swp.us = w.us ∧ followed.swp.ms = w.ms := heard.regain_boundaries
      refine ⟨fun hwidth => hfall (Part.pulseEnds_glitch hwidth _), fun hwidth hfar => ?_,
        fun hwidth hnear hmark => ?_, fun hwidth hnear hmark => ?_⟩
      · refine ⟨_, hvalid hwidth (Part.followPulse_clear (hclear.mpr hfar) zeroMark), rfl, ?_, rfl⟩
        rw [← hnumber, ← hwrap, ← hus, ← hms]
        exact followed.swp.boundary_of_ne_leading (by simp [hsync]) zeroMark
      · refine hvalid hwidth ?_
        rw [hmark, Part.followPulse_ordinary fun hc => hclear.mp hc hnear]
      · refine hvalid hwidth ?_
        rw [hmark, Part.followPulse_realigns fun hc => hclear.mp hc hnear, hnumber, hwrap]
  · intro s deadline hsilence w freed
    have hreached : reachedOpt w.ms w.silence = true ↔ (w.ms - deadline).toNat < 2147483648 := reachedOpt_some hsilence
    refine ⟨fun hrun hsync hms => ?_, fun h => ?_⟩
    · have hlost := Part.loseLeader_lost hrun hsync (hreached.mpr hms)
      refine ⟨exec_next (·.loseLeader) rfl hlost, _, exec_next (·.loseLeader) rfl
        (hlost.trans (Part.ownBoundary_due (Part.freed_boundaryDue hrun))), rfl, rfl, rfl, rfl, rfl, ?_⟩
      exact s.part.freed_attention
    · refine exec_next (·.loseLeader) rfl (Part.loseLeader_kept ?_)
      rintro ⟨hrun, hsync, hms⟩
      rcases h with h | h | h
      · exact absurd hrun (ne_true_of_eq_false h)
      · exact h hsync
      · exact Nat.not_lt.mpr h (hreached.mp hms)

end Sys2Proof.Machine
end

section
/-! PROOF. The sweep timer takes a coach profile (R157, R164, R166), and the tick of the time bases (R14, R165); O53 and
O2. -/

namespace Sys2Proof.Machine

/-! ### The timer's own state after a load (R157, R164) -/

/-- R164: the settings of a profile in force, before a change of role or period acts. -/
def Sweep.withSettings (w : Sweep) (f : Profile) : Sweep :=
  { w with period := f.period, wrap := f.wrap, role := f.role, outs := f.outs }

section
variable (w : Sweep)

theorem Sweep.keepRole_samePeriod : w.keepRole false = w := if_neg Bool.false_ne_true

theorem Sweep.keepRole_own (h : w.sync ≠ .following) : w.keepRole true = { w with nextDue := w.periodDue } :=
  (if_pos rfl).trans (if_pos (w.sync.ownTimed_iff.mpr h))

theorem Sweep.keepRole_following (h : w.sync = .following) :
    w.keepRole true = if w.silence.isSome then { w with silence := some w.silenceAgain } else w :=
  (if_pos rfl).trans (if_neg fun hown => w.sync.ownTimed_iff.mp hown h)

theorem Sweep.keepRole_frame (periodChanged : Bool) :
    { w.keepRole periodChanged with nextDue := w.nextDue, silence := w.silence } = w := by
  unfold Sweep.keepRole
  (repeat' split) <;> rfl

theorem Sweep.takeOwn_eq (before : SyncState) (periodChanged : Bool) (sync : SyncState) :
    w.takeOwn before periodChanged sync = { w with
      sync := sync, silence := none, pulseStart := none
      nextDue := if before.watches then some w.dueFromLast else if periodChanged then w.periodDue else w.nextDue } := by
  unfold Sweep.takeOwn
  (repeat' split) <;> rfl

variable {w}

theorem Sweep.silenceAgain_unheard (h : w.lastPulse = none) :
    w.silenceAgain = w.ms + msLength (3 * w.period) := by
  rw [Sweep.silenceAgain, h]

/-- R164: the silence deadline counts from the ms value of the last valid pulse (log 40). -/
theorem Sweep.silenceAgain_heard {us : Word} (h : w.lastPulse = some us) :
    w.silenceAgain = w.msAt us + msLength (3 * w.period) := by
  rw [Sweep.silenceAgain, h]

end

section
variable {w : Sweep} {f : Profile}

section
variable (hrole : f.role = w.role)
include hrole

theorem Sweep.configure_sameRole (run : Bool) :
    w.configure f run = (w.withSettings f).keepRole (decide (f.period ≠ w.period)) :=
  if_pos hrole

/-- R164: a load that keeps role and period moves no deadline. -/
theorem Sweep.configure_samePeriod (hperiod : f.period = w.period) (run : Bool) :
    w.configure f run = w.withSettings f := by
  rw [Sweep.configure_sameRole hrole, decide_eq_false (not_not.mpr hperiod), Sweep.keepRole_samePeriod]

/-- R157: a new period moves next boundary due of a timer that makes its own boundaries. -/
theorem Sweep.configure_newPeriod_own (hperiod : f.period ≠ w.period) (hown : w.sync ≠ .following) (run : Bool) :
    w.configure f run = { w.withSettings f with nextDue := (w.withSettings f).periodDue } := by
  rw [Sweep.configure_sameRole hrole, decide_eq_true hperiod]
  exact (w.withSettings f).keepRole_own hown

/-- R164: a new period moves the silence deadline of a follower, if it has one. -/
theorem Sweep.configure_newPeriod_following (hperiod : f.period ≠ w.period) (h : w.sync = .following) (run : Bool) :
    w.configure f run = if w.silence.isSome
      then { w.withSettings f with silence := some (w.withSettings f).silenceAgain } else w.withSettings f := by
  rw [Sweep.configure_sameRole hrole, decide_eq_true hperiod]
  exact (w.withSettings f).keepRole_following h

end

section
variable (hrole : f.role ≠ w.role)
include hrole

/-- R164: a load that sets FOLLOW. -/
theorem Sweep.configure_follow (hfollow : f.role = .follow) (run : Bool) :
    w.configure f run = (w.withSettings f).takeFollow run := by
  refine (if_neg hrole).trans ?_
  split
  next => rfl
  next h => exact absurd (hfollow.symm.trans h) Role.noConfusion
  next h => exact absurd (hfollow.symm.trans h) Role.noConfusion

/-- R164: a load that sets ALONE or LEAD. -/
theorem Sweep.configure_own (hfollow : f.role ≠ .follow) (run : Bool) :
    w.configure f run = (w.withSettings f).takeOwn w.sync (decide (f.period ≠ w.period))
      (if f.role = .lead then .leading else .alone) := by
  refine (if_neg hrole).trans ?_
  split
  next h => exact absurd h hfollow
  next h => rw [if_neg fun hlead => Role.noConfusion (h.symm.trans hlead)]; rfl
  next h => rw [if_pos h]; rfl

end

end

/-- R164: beside the profile's settings a load changes the sync state, the deadlines and the pulse start alone. -/
theorem Sweep.configure_frame (w : Sweep) (f : Profile) (run : Bool) :
    { w.configure f run with
      sync := w.sync, nextDue := w.nextDue, silence := w.silence, pulseStart := w.pulseStart } = w.withSettings f := by
  by_cases hrole : f.role = w.role
  · rw [Sweep.configure_sameRole hrole]
    exact congrArg (fun v : Sweep => { v with sync := w.sync, pulseStart := w.pulseStart })
      ((w.withSettings f).keepRole_frame _)
  · by_cases hfollow : f.role = .follow
    · rw [Sweep.configure_follow hrole hfollow]
      rfl
    · rw [Sweep.configure_own hrole hfollow, Sweep.takeOwn_eq]
      rfl

/-! ### What is then due comes at once (R157, R163) -/

theorem Part.sweepProfile_cons {p : Part} {f : Profile} {rest : List Profile} (h : p.swp.profiles = f :: rest) :
    p.sweepProfile = Part.loseLeader (Part.ownBoundary
      { p with swp := { p.swp.configure f p.regs.run with profiles := rest } }) := by
  simp only [Part.sweepProfile, h]

/-- R163: a timer that has just made a boundary of its own does not lose a leader. -/
theorem Part.loseLeader_ownBoundary {p : Part} (h : p.boundaryDue = true) :
    p.ownBoundary.loseLeader = p.ownBoundary := by
  refine Part.loseLeader_kept ?_
  rintro ⟨_, hsync, _⟩
  exact (p.boundaryDue_iff.mp h).2.1 (p.ownBoundary_settings.1.symm.trans hsync)

theorem Part.loseLeader_settings (p : Part) :
    p.loseLeader.swp.profiles = p.swp.profiles ∧ p.loseLeader.swp.period = p.swp.period ∧
    p.loseLeader.swp.wrap = p.swp.wrap ∧ p.loseLeader.swp.role = p.swp.role ∧
    p.loseLeader.swp.outs = p.swp.outs := by
  unfold Part.loseLeader
  split
  · exact (Part.ownBoundary_settings p.freed).2.2
  · exact ⟨rfl, rfl, rfl, rfl, rfl⟩

/-- Settles O53, by the role of the profile and whether the period changes, and by what is then due. -/
theorem sweepTakesProfile : Obligations.SweepTakesProfile := by
  intro s f rest hprofiles w run fromLast periodDue taken follows
  let q : Part := { s.part with swp := { w.configure f run with profiles := rest } }
  have hload : exec .sweepProfileLoad s = .next { s with part := q.ownBoundary.loseLeader } :=
    exec_next (·.sweepProfile) rfl (Part.sweepProfile_cons hprofiles)
  have hframe := congrArg (fun v : Sweep => { v with profiles := rest }) (w.configure_frame f run)
  refine ⟨q.swp, ⟨_, exec_sweepBoundary _, ?_⟩, ?_, hframe, fun hrole => ?_, fun hrole hfollow => ?_,
    fun hrole hfollow => ?_⟩
  · exact hload.trans (exec_syncSilenceExpiry { s with part := q.ownBoundary }).symm
  · intro boundary loss with'
    have hboundary : q.boundaryDue = true ↔ boundary := q.boundaryDue_iff
    have hloss : (q.regs.run = true ∧ q.swp.sync = .following ∧ reachedOpt q.swp.ms q.swp.silence = true) ↔ loss :=
      and_congr_right' (and_congr_right' (reachedOpt_iff _ _))
    have hundue (h : ¬ boundary) : q.ownBoundary = q := Part.ownBoundary_undue (mt hboundary.mp h)
    refine ⟨⟨_, hload, rfl, ?_⟩, fun hb hl => ?_, fun hb => ?_, fun hl => ?_⟩
    · simp only [Part.loseLeader_settings, Part.ownBoundary_settings]
      exact ⟨rfl, congrArg (·.period) hframe, congrArg (·.wrap) hframe, congrArg (·.role) hframe,
        congrArg (·.outs) hframe⟩
    · rw [hload, hundue hb, Part.loseLeader_kept (mt hloss.mp hl)]
    · rw [hload, Part.loseLeader_ownBoundary (hboundary.mpr hb), exec_sweepBoundary]
    · have hb : ¬ boundary := fun hb => hb.2.1 hl.2.1
      rw [hload, hundue hb, exec_syncSilenceExpiry]
  · have hkept := (w.withSettings f).keepRole_frame (decide (f.period ≠ w.period))
    rw [← Sweep.configure_sameRole hrole run] at hkept
    refine ⟨congrArg (·.sync) hkept, congrArg (·.pulseStart) hkept, fun hperiod => ?_, fun hperiod =>
      ⟨fun hown => ?_, fun hfollowing => ?_⟩⟩
    · have hsame := Sweep.configure_samePeriod hrole hperiod run
      exact ⟨congrArg (·.nextDue) hsame, congrArg (·.silence) hsame⟩
    · have hmoved := Sweep.configure_newPeriod_own hrole hperiod hown run
      exact ⟨congrArg (·.nextDue) hmoved, congrArg (·.silence) hmoved⟩
    · have hmoved := Sweep.configure_newPeriod_following hrole hperiod hfollowing run
      cases hsilence : w.silence with
      | none =>
        rw [hsilence, if_neg (by simp)] at hmoved
        exact ⟨congrArg (·.nextDue) hmoved, fun _ => (congrArg (·.silence) hmoved).trans hsilence, absurd rfl⟩
      | some d =>
        rw [hsilence, if_pos Option.isSome_some] at hmoved
        have hagain : (w.configure f run).silence = some (w.withSettings f).silenceAgain := congrArg (·.silence) hmoved
        refine ⟨congrArg (·.nextDue) hmoved, nofun, fun _ => ⟨fun h => ?_, fun us h => ?_⟩⟩
        · exact hagain.trans (congrArg some (Sweep.silenceAgain_unheard h))
        · exact hagain.trans (congrArg some (Sweep.silenceAgain_heard h))
  · have hset := Sweep.configure_follow hrole hfollow run
    exact ⟨congrArg (·.sync) hset, congrArg (·.nextDue) hset, congrArg (·.pulseStart) hset,
      congrArg (·.silence) hset⟩
  · have hset := (Sweep.configure_own hrole hfollow run).trans (Sweep.takeOwn_eq _ _ _ _)
    have hdue := congrArg (·.nextDue) hset
    refine ⟨congrArg (·.sync) hset, congrArg (·.silence) hset, congrArg (·.pulseStart) hset, fun h => ?_, fun h => ?_⟩
    · exact hdue.trans (if_pos (w.sync.watches_iff.mpr h))
    · refine hdue.trans ((if_neg (mt w.sync.watches_iff.mp h)).trans ?_)
      by_cases hperiod : f.period = w.period
      · rw [decide_eq_false (not_not.mpr hperiod), if_pos hperiod]
        rfl
      · rw [decide_eq_true hperiod, if_neg hperiod]
        rfl

/-! ### The time bases (R14, R165) -/

theorem Part.tick_withinMs {p : Part} (h : p.swp.usInMs + 1 ≠ 1000) : p.tick =
    { p with swp := { p.swp with us := p.swp.us + 1#32, usInMs := p.swp.usInMs + 1 } } := by
  rw [Part.tick, Sweep.tick, if_neg h, if_neg h]

theorem Part.tick_endsMs {p : Part} (h : p.swp.usInMs + 1 = 1000) : p.tick =
    { p with swp := { p.swp with us := p.swp.us + 1#32, usInMs := 0, ms := p.swp.ms + 1#32 }
             odo := p.odo.tickMs } := by
  rw [Part.tick, Sweep.tick, if_pos h, if_pos h]

section
variable {s : State} (hempty : s.pending = [])
include hempty

theorem step_due {c : Instr} (h : s.part.due = some c) : step s = exec c s := by
  simp only [step, hempty, idle, h]

theorem step_undue (h : s.part.due = none) : step s = .next { s with part := s.part.tick } := by
  simp only [step, hempty, idle, h]

end

/-- Settles O2, by whether an event is due, and by whether the us that passes ends a ms. -/
theorem emptyQueueRunsWhatIsDue : Obligations.EmptyQueueRunsWhatIsDue := by
  refine fun s hempty => ⟨fun c => step_due hempty, fun hdue => ?_⟩
  intro w o ends
  rw [step_undue hempty hdue]
  by_cases h : w.usInMs + 1 = 1000
  · have hends : ends = true := decide_eq_true h
    rw [Part.tick_endsMs h, hends]
    rfl
  · have hends : ends = false := decide_eq_false h
    rw [Part.tick_withinMs h, hends]
    rfl

end Sys2Proof.Machine
end

section
/-! PROOF. The laws at reset (O5), the answers of the commands (O3), and which bytes of memory a command stores (O6, O60). -/

namespace Sys2Proof.Machine

/-- Settles O3: `exec` runs an effect on the part, and leaves the queue. -/
theorem everyCommandAnswersNext : Obligations.EveryCommandAnswersNext :=
  fun c s => ⟨_, exec_eq_effectOf c s, rfl⟩

/-- Settles O5: at reset nothing is listed, placed, held or in flight. -/
theorem lawsHoldAtReset : Obligations.LawsHoldAtReset := by
  refine ⟨reset_memory_wf, Odometer.reset_limits, ?_, activeLimits_nil, Composer.reset_limits,
    ⟨BitVec.zero_and, Nat.succ_pos 63⟩, fun _ => ⟨rfl, fun k c => ?_, fun k => ?_, rfl, rfl, rfl, nofun⟩, fun k c => ?_⟩
  · rw [Part.trackerLaw_iff]
    exact Nat.zero_le _
  · cases k <;> rfl
  · cases k <;> rfl
  · cases k <;> cases c <;> rfl

/-! ### Memories that differ at some places alone -/

/-- The memory `m'` comes of `m` by stores at these places alone: it is canonical where `m` is, and any other byte reads as
it did. -/
structure Memory.StoresAt (place : Nat → Prop) (m m' : Memory) : Prop where
  canonical : Memory.wf m = true → Memory.wf m' = true
  elsewhere : ∀ a, ¬ place a → Memory.read m' a = Memory.read m a

section
variable {place wider : Nat → Prop} {m m' m'' : Memory}

theorem Memory.StoresAt.refl : Memory.StoresAt place m m := ⟨id, fun _ _ => rfl⟩

theorem Memory.StoresAt.of_eq (h : m' = m) : Memory.StoresAt place m m' := h ▸ .refl

theorem Memory.StoresAt.trans (h : Memory.StoresAt place m m') (h' : Memory.StoresAt place m' m'') :
    Memory.StoresAt place m m'' :=
  ⟨fun hm => h'.canonical (h.canonical hm), fun a ha => (h'.elsewhere a ha).trans (h.elsewhere a ha)⟩

theorem Memory.StoresAt.mono (h : Memory.StoresAt place m m') (hw : ∀ a, place a → wider a) :
    Memory.StoresAt wider m m' :=
  ⟨h.canonical, fun a ha => h.elsewhere a (mt (hw a) ha)⟩

/-- What the host writes last lies over what was stored before. -/
theorem Memory.StoresAt.writeAll (h : Memory.StoresAt place m m') (hm : Memory.wf m = true) (cells : List Host.Cell) :
    Memory.StoresAt place (Memory.writeAll m cells) (Memory.writeAll m' cells) := by
  unfold Memory.writeAll
  induction cells generalizing m m' with
  | nil => exact h
  | cons c rest ih =>
    refine ih ⟨fun _ => Memory.wf_write (h.canonical hm) _ _, fun a ha => ?_⟩ (Memory.wf_write hm _ _)
    by_cases hc : a = c.1
    · rw [hc, Memory.read_write_same (h.canonical hm), Memory.read_write_same hm]
    · rw [Memory.read_write_other _ _ hc, Memory.read_write_other _ _ hc, h.elsewhere a ha]

end

/-- Canonical memories above one bound whose bytes all read alike are one memory. -/
theorem Memory.ext_from {m m' : Memory} {lo lo' : Nat} (h : Memory.wfFrom lo m = true) (h' : Memory.wfFrom lo' m' = true)
    (hread : ∀ a, Memory.read m' a = Memory.read m a) : m' = m := by
  induction m generalizing m' lo lo' with
  | nil =>
    cases m' with
    | nil => rfl
    | cons c' rest' =>
      simp only [Memory.wfFrom, Bool.and_eq_true, decide_eq_true_eq] at h'
      exact absurd (by simpa [Memory.read] using hread c'.1) h'.1.2
  | cons c rest ih =>
    obtain ⟨k, v⟩ := c
    simp only [Memory.wfFrom, Bool.and_eq_true, decide_eq_true_eq] at h
    obtain ⟨⟨-, hv⟩, hrest⟩ := h
    cases m' with
    | nil => exact absurd (by simpa [Memory.read] using (hread k).symm) hv
    | cons c' rest' =>
      obtain ⟨k', v'⟩ := c'
      simp only [Memory.wfFrom, Bool.and_eq_true, decide_eq_true_eq] at h'
      obtain ⟨⟨-, hv'⟩, hrest'⟩ := h'
      have hk : k' = k := by
        rcases Nat.lt_trichotomy k' k with hlt | heq | hlt
        · have hthere := hread k'
          rw [Memory.read, if_pos rfl, Memory.read, if_neg (by omega), Memory.read_below hrest (by omega)] at hthere
          exact absurd hthere hv'
        · exact heq
        · have hthere := hread k
          rw [Memory.read, if_neg (by omega), Memory.read, if_pos rfl, Memory.read_below hrest' (by omega)] at hthere
          exact absurd hthere.symm hv
      subst hk
      have hhead : v' = v := by simpa [Memory.read] using hread k'
      have htail : rest' = rest := by
        refine ih hrest hrest' fun a => ?_
        by_cases ha : k' = a
        · rw [Memory.read_below hrest (by omega), Memory.read_below hrest' (by omega)]
        · simpa [Memory.read, ha] using hread a
      rw [hhead, htail]

/-- Stores at no place leave a canonical memory as it was. -/
theorem Memory.StoresAt.eq {m m' : Memory} (h : Memory.StoresAt (fun _ => False) m m') (hm : Memory.wf m = true) :
    m' = m :=
  Memory.ext_from hm (h.canonical hm) fun a => h.elsewhere a id

/-! ### The head block (11.2) and the writes of the edition unit -/

/-- The offsets of the head block's fields that the part writes (11.2). -/
def headByte (i : Nat) : Prop :=
  i ∈ [4, 5, 6, 7, 0x8C, 0x8E, 0x90, 0x91] ∨
    ∃ entry ∈ [0x10, 0x28, 0x40, 0x58, 0x70], ∃ j ∈ [8, 9, 10, 11, 12, 16, 17, 18, 19], i = entry + j

theorem headByte_listed {offset : Nat} (h : offset ∈ [4, 5, 6, 7, 0x8C, 0x8E, 0x90, 0x91]) : headByte offset := .inl h

/-- The addresses of the head block's fields that the part writes. -/
def headPlace (base : Word) (a : Nat) : Prop := ∃ i, a = busAddress base i ∧ headByte i

theorem slotEntry_mem (k : Kind) : slotEntry k ∈ [0x10, 0x28, 0x40, 0x58, 0x70] := by cases k <;> decide

/-- The fields written are fields of the head block. -/
def InHead (fields : List FieldWrite) : Prop := ∀ f ∈ fields, ∀ i, i < f.size → headByte (f.offset + i)

theorem inHead_full (e : Edition) (back : List Kind) : InHead (fullFields e back) := by
  intro f hf i hi
  simp only [fullFields, List.mem_append, List.mem_flatMap] at hf
  have entry (k : Kind) {j : Nat} (hj : j ∈ [8, 9, 10, 11, 12, 16, 17, 18, 19]) : headByte (slotEntry k + j) :=
    .inr ⟨_, slotEntry_mem k, j, hj, rfl⟩
  rcases hf with ⟨k, -, hk | hk⟩ | hf
  · split at hk
    · rw [List.mem_singleton.mp hk] at hi ⊢
      obtain rfl : i = 0 := by simpa [requestField] using hi
      exact entry k (by decide)
    · cases hk
  · simp only [kindFields, List.mem_cons, List.not_mem_nil, or_false] at hk
    rcases hk with rfl | rfl | rfl | rfl | rfl
    case inr.inr.inr.inr =>
      refine (Nat.add_assoc _ _ _).symm ▸ entry k ?_
      simp only at hi
      interval_cases i <;> decide
    all_goals
      obtain rfl : i = 0 := by simpa using hi
      exact entry k (by decide)
  · simp only [takeField, List.mem_cons, List.not_mem_nil, or_false] at hf
    rcases hf with rfl | rfl <;> obtain rfl : i = 0 := by simpa using hi
    · exact headByte_listed (by decide)
    · exact headByte_listed (offset := 0x8E) (by decide)

theorem inHead_take (e : Edition) : InHead [takeField e] := by
  intro f hf i hi
  rw [List.mem_singleton.mp hf] at hi ⊢
  obtain rfl : i = 0 := by simpa [takeField] using hi
  exact headByte_listed (offset := 0x8E) (by decide)

theorem inHead_position (r : PositionResult) : InHead (positionFields r) := by
  intro f hf i hi
  simp only [positionFields, List.mem_cons, List.not_mem_nil, or_false] at hf
  rcases hf with rfl | rfl <;> obtain rfl : i = 0 := by simpa using hi
  · exact headByte_listed (offset := 0x91) (by decide)
  · exact headByte_listed (by decide)

section
variable (p : Part) (bus : Bus)

/-- R171: a head-block write stores fields of the head block, the sequence word among them. -/
theorem Part.headWrite_stores {fields : List FieldWrite} (h : InHead fields) :
    Memory.StoresAt (headPlace p.regs.windowBase) p.mem (p.headWrite bus fields).mem := by
  refine ⟨fun hm => Part.headWrite_canonical hm bus fields, fun a ha => ?_⟩
  refine p.headWrite_read_other bus fields (fun f hf i hi hplace => ha ⟨_, hplace, h f hf i hi⟩)
    fun i hi hplace => ha ⟨_, hplace, .inl ?_⟩
  interval_cases i <;> decide

theorem Part.completionWrite_stores (k : Kind) (request : Nat) :
    Memory.StoresAt (headPlace p.regs.windowBase) (Memory.writeAll p.mem bus.late)
      (p.completionWrite bus k request).mem := by
  have hmem : (p.requestBack bus k request).1.mem = p.mem := by
    unfold Part.requestBack
    split <;> simp
  have := Part.headWrite_stores ((p.requestBack bus k request).1.lateWrites bus) bus
    (inHead_full ((p.requestBack bus k request).1.lateWrites bus).ed (p.requestBack bus k request).2)
  simpa [hmem, Part.completionWrite, Part.fullWrite] using this

/-- The result byte of an amendment's slot (11.3). -/
def slotPlace (base : Word) (slot a : Nat) : Prop := a = busAddress base (slot + 16)

/-- R181: a result write stores the slot's result byte. -/
theorem Part.resultWrite_stores (slot code : Nat) :
    Memory.StoresAt (slotPlace p.regs.windowBase slot) p.mem (p.resultWrite bus slot code).mem := by
  refine ⟨fun hm => Part.resultWrite_canonical hm bus slot code, fun a ha => ?_⟩
  have hother := read_writeFields_other p.regs.windowBase bus p.mem
    [{ offset := slot + 16, size := 1, value := code }] (a := a) (by
      intro f hf i hi hplace
      rw [List.mem_singleton.mp hf] at hi hplace
      obtain rfl : i = 0 := by simpa using hi
      exact ha hplace)
  unfold Part.resultWrite
  split <;> next heq => simpa [heq] using hother

theorem Part.takeRecord_stores (slot : Nat) (r : AmendResult) :
    Memory.StoresAt (fun a => headPlace p.regs.windowBase a ∨ slotPlace p.regs.windowBase slot a) p.mem
      (p.takeRecord bus slot r).mem := by
  let q := p.resultWrite bus slot r.code
  have hregs : q.regs = p.regs := by simp [q]
  have htake : Memory.StoresAt (headPlace q.regs.windowBase) q.mem (q.advanceTake bus).mem :=
    Part.headWrite_stores { q with ed := { q.ed with take := (q.ed.take + 1) % 64 } } bus
      (inHead_take { q.ed with take := (q.ed.take + 1) % 64 })
  rw [hregs] at htake
  exact ((p.resultWrite_stores bus slot r.code).mono fun _ => .inr).trans (htake.mono fun _ => .inl)

end

/-! ### The boundary operation, the switches and the delivery run -/

/-- The head block's fields, and the result bytes of the amendments owed. -/
def owedPlace (base : Word) (owed : List OwedWrite) (a : Nat) : Prop :=
  headPlace base a ∨ ∃ slot r, .amend slot r ∈ owed ∧ slotPlace base slot a

section
variable (p : Part) (bus : Bus)

/-- R188: an owed write, with no late write of the host between its reads and its writes. -/
theorem Part.makeOwed_stores (hlate : bus.late = []) {owed : List OwedWrite} {w : OwedWrite} (hw : w ∈ owed) :
    Memory.StoresAt (owedPlace p.regs.windowBase owed) p.mem (Part.makeOwed bus p w).mem := by
  cases w with
  | full k request =>
    have hfull := p.completionWrite_stores bus k request
    rw [hlate] at hfull
    exact hfull.mono fun _ => .inl
  | amend slot r =>
    exact (p.takeRecord_stores bus slot r).mono fun _ ha => ha.imp_right fun hslot => ⟨slot, r, hw, hslot⟩
  | position r => exact (p.headWrite_stores bus (inHead_position r)).mono fun _ => .inl

theorem Part.makeAllOwed_stores (hlate : bus.late = []) :
    Memory.StoresAt (owedPlace p.regs.windowBase p.ed.owed) p.mem (p.makeAllOwed bus).mem ∧
      (p.makeAllOwed bus).regs = p.regs := by
  unfold Part.makeAllOwed
  refine List.foldlRecOn (motive := fun q => Memory.StoresAt (owedPlace p.regs.windowBase p.ed.owed) p.mem q.mem ∧
    q.regs = p.regs) (b := { p with ed := { p.ed with owed := [] } }) p.ed.owed (Part.makeOwed bus) ⟨.refl, rfl⟩
    fun q ⟨hq, hregs⟩ w hw => ⟨hq.trans ?_, by simp [hregs]⟩
  rw [← hregs]
  exact q.makeOwed_stores bus hlate hw

@[simp] theorem Part.takeRequest_mem (head : List Byte) (x : Part × List Kind) (k : Kind) :
    (Part.takeRequest head x k).1.mem = x.1.mem := by
  unfold Part.takeRequest
  dsimp only
  (repeat' split) <;> simp

theorem Part.takeRequests_stores (head : List Byte) :
    Memory.StoresAt (headPlace p.regs.windowBase) (Memory.writeAll p.mem bus.late) (p.takeRequests bus head).mem := by
  let x := Kind.all.foldl (Part.takeRequest head) (p, [])
  have hx : x.1.mem = p.mem ∧ x.1.regs = p.regs :=
    List.foldlRecOn (motive := fun y : Part × List Kind => y.1.mem = p.mem ∧ y.1.regs = p.regs) Kind.all _ ⟨rfl, rfl⟩
      fun y hy k _ => by simpa using hy
  have hfull := (x.1.lateWrites bus).headWrite_stores bus (inHead_full (x.1.lateWrites bus).ed x.2)
  rwa [Part.lateWrites_mem, hx.1, (x.1.lateWrites_keeps bus).1, hx.2] at hfull

theorem Part.handPosition_stores (head : List Byte) :
    Memory.StoresAt (headPlace p.regs.windowBase) p.mem (p.handPosition bus head).mem := by
  unfold Part.handPosition
  split
  · exact .refl
  · split
    · exact p.headWrite_stores bus (inHead_position _)
    · exact .refl

/-- R170: the head block is written after the host's late writes, unless it could not be read. -/
theorem Part.readHead_stores : ∃ m, (m = p.mem ∨ m = Memory.writeAll p.mem bus.late) ∧
    Memory.StoresAt (headPlace p.regs.windowBase) m (p.readHead bus).mem := by
  unfold Part.readHead
  split
  · exact ⟨p.mem, .inl rfl, .of_eq (by simp)⟩
  · next head _ =>
    split
    · exact ⟨p.mem, .inl rfl, .of_eq (by simp)⟩
    · have hposition := (p.takeRequests bus head).handPosition_stores bus head
      rw [(p.takeRequests_keeps bus head).2.2.2.1] at hposition
      refine ⟨_, .inr rfl, ((p.takeRequests_stores bus head).trans hposition).trans (.of_eq ?_)⟩
      simp

/-- The memories over which a command of this bus operand stores: the one before it, the one with the host's writes, and
the one with the host's late writes. -/
def Part.landings (p : Part) (bus : Bus) : List Memory :=
  [p.mem, Memory.writeAll p.mem bus.host, Memory.writeAll (Memory.writeAll p.mem bus.host) bus.late]

theorem Part.boundaryOperation_stores (hp : p.memoryCanonical) : ∃ m ∈ p.landings bus,
    Memory.StoresAt (owedPlace p.regs.windowBase p.ed.owed) m (p.boundaryOperation bus).mem := by
  unfold Part.boundaryOperation
  split
  · let landed := Part.hostWrites { p with ed := { p.ed with boundary := false } } bus
    let paid := landed.makeAllOwed { bus with late := [] }
    obtain ⟨howed, hregs⟩ := landed.makeAllOwed_stores { bus with late := [] } rfl
    obtain ⟨m, hm, hhead⟩ := paid.readHead_stores bus
    rw [hregs] at hhead
    have hhead := hhead.mono (wider := owedPlace p.regs.windowBase p.ed.owed) fun _ => .inl
    rcases hm with rfl | rfl
    · exact ⟨landed.mem, by simp [Part.landings, landed], howed.trans hhead⟩
    · exact ⟨Memory.writeAll landed.mem bus.late, by simp [Part.landings, landed],
        (howed.writeAll (Memory.wf_writeAll hp bus.host) bus.late).trans hhead⟩
  · exact ⟨p.mem, by simp [Part.landings], .refl⟩

theorem Part.positionWrite_stores (r : PositionResult) :
    Memory.StoresAt (headPlace p.regs.windowBase) p.mem (p.positionWrite bus r).mem := by
  unfold Part.positionWrite
  split
  · exact .refl
  · exact p.headWrite_stores bus (inHead_position r)

theorem Part.takePosition_stores (kind : PositionKind) : ∃ m ∈ p.landings bus,
    Memory.StoresAt (headPlace p.regs.windowBase) m (p.takePosition kind bus).mem := by
  unfold Part.takePosition
  split
  · exact ⟨p.mem, by simp [Part.landings], .refl⟩
  · next r _ =>
    split
    · let q : Part := { (p.hostWrites bus).lateWrites bus with
        trk := { ((p.hostWrites bus).lateWrites bus).trk with request := none } }
      have hwrite := (q.answerPosition r).1.positionWrite_stores bus (q.answerPosition r).2
      rw [Part.answerPosition_mem, Part.answerPosition_regs] at hwrite
      exact ⟨q.mem, by simp [Part.landings, q], hwrite⟩
    · exact ⟨p.mem, by simp [Part.landings], .refl⟩

theorem Part.finishSwitch_stores (k : Kind) (w : Switch) : ∃ m, (m = p.mem ∨ m = Memory.writeAll p.mem bus.late) ∧
    Memory.StoresAt (headPlace p.regs.windowBase) m (p.finishSwitch bus k w).mem := by
  unfold Part.finishSwitch
  split
  · exact ⟨p.mem, .inl rfl, .refl⟩
  · exact ⟨_, .inr rfl, p.completionWrite_stores bus k w.request⟩

/-- A switch ends on what the host has written, whatever the part does before the write of its end. -/
theorem Part.finishSwitch_lands {q : Part} (hmem : q.mem = Memory.writeAll p.mem bus.host) (hregs : q.regs = p.regs)
    (k : Kind) (w : Switch) : ∃ m ∈ p.landings bus,
    Memory.StoresAt (headPlace p.regs.windowBase) m (q.finishSwitch bus k w).mem := by
  obtain ⟨m, hm, hstores⟩ := q.finishSwitch_stores bus k w
  rw [hmem] at hm
  rw [hregs] at hstores
  exact ⟨m, by simpa [Part.landings] using .inr hm, hstores⟩

theorem Part.completeSwitch_stores (k : Kind) : ∃ m ∈ p.landings bus,
    Memory.StoresAt (headPlace p.regs.windowBase) m (p.completeSwitch k bus).mem := by
  unfold Part.completeSwitch
  split
  · exact ⟨p.mem, by simp [Part.landings], .refl⟩
  · split
    · exact p.finishSwitch_lands bus (by simp) (by simp) k _
    · exact ⟨p.mem, by simp [Part.landings], .refl⟩

theorem Part.reportReject_window (e : Reject) :
    (p.reportReject e).1.mem = p.mem ∧ (p.reportReject e).1.regs = p.regs := by
  cases e <;> simp [Part.reportReject]

theorem Part.failSwitch_stores (k : Kind) : ∃ m ∈ p.landings bus,
    Memory.StoresAt (headPlace p.regs.windowBase) m (p.failSwitch k bus).mem := by
  unfold Part.failSwitch
  split
  · exact ⟨p.mem, by simp [Part.landings], .refl⟩
  · split
    · exact ⟨p.mem, by simp [Part.landings], .refl⟩
    · exact p.finishSwitch_lands bus (by simp [Part.reportReject_window]) (by simp [Part.reportReject_window]) k _

/-- The head block's fields, and the result byte of the slot at the take index. -/
def runPlace (base : Word) (e : Edition) (a : Nat) : Prop :=
  headPlace base a ∨ ∃ run, e.run = some run ∧ slotPlace base (takeSlot run.list e.take) a

theorem Part.runDelivery_stores : ∃ m ∈ p.landings bus,
    Memory.StoresAt (runPlace p.regs.windowBase p.ed) m (p.runDelivery bus).mem := by
  unfold Part.runDelivery
  split
  · split
    · exact ⟨p.mem, by simp [Part.landings], .refl⟩
    · next run hrun =>
      split
      · exact ⟨(p.hostWrites bus).mem, by simp [Part.landings], .of_eq (by simp)⟩
      · exact ⟨p.mem, by simp [Part.landings], .refl⟩
      · next r _ =>
        have hrecord := (p.hostWrites bus).takeRecord_stores bus (takeSlot run.list p.ed.take) r
        refine ⟨(p.hostWrites bus).mem, by simp [Part.landings], (hrecord.mono ?_).trans (.of_eq (by simp))⟩
        exact fun a ha => ha.imp_right fun hslot => ⟨run, hrun, hslot⟩
  · exact ⟨p.mem, by simp [Part.landings], .refl⟩

end

/-! ### The status page (11.5) -/

/-- Where a field of the page stands, and its size. -/
def PageField.place (f : PageField) : Nat × Nat := (f.offset, f.size)

/-- Where the fields of `n` health records stand, the first at an offset (11.5). -/
def healthPlaces (offset n : Nat) : List (Nat × Nat) := (List.range n).flatMap (fun i => let o := offset + 16 * i
  [ (o, 1), (o + 1, 1), (o + 2, 1), (o + 3, 1), (o + 4, 1), (o + 6, 2), (o + 8, 2), (o + 10, 2), (o + 12, 2),
    (o + 14, 2) ])

theorem healthPlaces_add (offset n k : Nat) :
    healthPlaces offset (n + k) = healthPlaces offset n ++ healthPlaces (offset + 16 * n) k := by
  unfold healthPlaces
  rw [List.range_add, List.flatMap_append, List.flatMap_map]
  simp only [Nat.mul_add, Nat.add_assoc]

theorem lineFields_places (offset n : Nat) (l : Line) :
    (lineFields offset n l).map PageField.place = healthPlaces offset n := by
  rw [lineFields, List.map_flatMap]
  rfl

theorem seatFields_places : seatFields.map PageField.place = (List.range 192).map (fun i => (0x080 + i, 1)) := by
  rw [show 192 = 96 + 96 from rfl, List.range_add, seatFields]
  simp only [List.map_append, List.map_map]
  congr 1

/-- 11.5: where every field of the page stands. -/
theorem pageFields_places : pageFields.map PageField.place
    = [ (0x004, 1), (0x005, 1), (0x006, 1), (0x007, 1), (0x008, 1), (0x00A, 2), (0x00C, 2), (0x00E, 2), (0x010, 2),
        (0x014, 4), (0x01C, 1), (0x01D, 1) ]
      ++ [0x020, 0x030, 0x040].flatMap (fun o => [(o, 1), (o + 2, 2), (o + 4, 4), (o + 8, 4), (o + 12, 4)])
      ++ [ (0x050, 1), (0x051, 1), (0x052, 1), (0x054, 2), (0x058, 4), (0x05C, 1), (0x05D, 1), (0x05E, 1), (0x060, 1),
           (0x061, 1), (0x062, 1), (0x064, 4) ]
      ++ (List.range 12).map (fun i => (0x068 + i, 1)) ++ (List.range 192).map (fun i => (0x080 + i, 1))
      ++ healthPlaces 0x140 60 := by
  unfold pageFields
  simp only [List.map_append, seatFields_places, lineFields_places]
  rw [show 60 = 48 + 4 + 8 from rfl, healthPlaces_add, healthPlaces_add]
  simp only [← List.append_assoc]
  rfl

/-- Every field of the page lies within it. -/
theorem pageFields_within {f : PageField} (hf : f ∈ pageFields) : f.offset + f.size ≤ 0x1000 := by
  have hplace : f.place ∈ pageFields.map PageField.place := List.mem_map_of_mem hf
  generalize hx : f.place = x at hplace
  obtain ⟨hoffset, hsize⟩ : f.offset = x.1 ∧ f.size = x.2 := by rw [← hx]; exact ⟨rfl, rfl⟩
  rw [hoffset, hsize]
  clear hoffset hsize hx hf
  rw [pageFields_places] at hplace
  simp only [List.mem_append] at hplace
  rcases hplace with ((((h | h) | h) | h) | h) | h
  · revert x; decide
  · revert x; decide
  · revert x; decide
  · obtain ⟨i, hi, rfl⟩ := List.mem_map.mp h
    have := List.mem_range.mp hi
    simp only
    omega
  · obtain ⟨i, hi, rfl⟩ := List.mem_map.mp h
    have := List.mem_range.mp hi
    simp only
    omega
  · obtain ⟨i, hi, hx⟩ := List.mem_flatMap.mp h
    have := List.mem_range.mp hi
    simp only [List.mem_cons, List.not_mem_nil, or_false] at hx
    rcases hx with rfl | rfl | rfl | rfl | rfl | rfl | rfl | rfl | rfl | rfl <;> simp only <;> omega

/-- The addresses of the status page. -/
def pagePlace (base : Word) (a : Nat) : Prop := ∃ i, i < 0x1000 ∧ a = busAddress base (0x1000 + i)

section
variable (p : Part) (bus : Bus)

/-- One field of the page written stores its own bytes. -/
theorem writeFields_page (m : Memory) {base : Word} {offset size : Nat} (value : Nat) (h : offset + size ≤ 0x1000) :
    Memory.StoresAt (pagePlace base) m
      (writeFields base bus m [{ offset := pageBase + offset, size := size, value := value }]).1 := by
  refine ⟨fun hm => wf_writeFields base bus hm _, fun a ha => read_writeFields_other base bus m _ ?_⟩
  intro f hf i hi hplace
  rw [List.mem_singleton.mp hf] at hi hplace
  simp only at hi
  exact ha ⟨offset + i, by omega, by rw [hplace, Nat.add_assoc]; rfl⟩

theorem Part.reachField_stores {f : PageField} (hf : f ∈ pageFields) :
    Memory.StoresAt (pagePlace p.regs.windowBase) p.mem (Part.reachField bus p f).mem := by
  have hfield := writeFields_page bus p.mem (base := p.regs.windowBase) (f.value p) (pageFields_within hf)
  unfold Part.reachField
  dsimp only
  split
  · exact .refl
  · split <;> next heq => simpa [heq] using hfield

theorem Part.reachFields_stores {fs : List PageField} (hfs : ∀ f ∈ fs, f ∈ pageFields) :
    Memory.StoresAt (pagePlace p.regs.windowBase) p.mem (p.reachFields bus fs).mem := by
  have hfold : Memory.StoresAt (pagePlace p.regs.windowBase) p.mem (p.reachFields bus fs).mem ∧
      (p.reachFields bus fs).regs = p.regs := by
    unfold Part.reachFields
    refine List.foldlRecOn (motive := fun q => Memory.StoresAt (pagePlace p.regs.windowBase) p.mem q.mem ∧
      q.regs = p.regs) fs (Part.reachField bus) ⟨.refl, rfl⟩ fun q ⟨hq, hregs⟩ f hf => ⟨hq.trans ?_, by simp [hregs]⟩
    rw [← hregs]
    exact q.reachField_stores bus (hfs f hf)
  exact hfold.1

theorem Part.pageSequence_stores :
    Memory.StoresAt (pagePlace p.regs.windowBase) p.mem (p.pageSequence bus).mem := by
  have hword : Memory.StoresAt (pagePlace p.regs.windowBase) p.mem (writeFields p.regs.windowBase bus p.mem
      [{ offset := pageBase, size := 4, value := (p.rep.pageSeq + 1#32).toNat }]).1 :=
    writeFields_page bus p.mem (offset := 0) (size := 4) (p.rep.pageSeq + 1#32).toNat (by decide)
  unfold Part.pageSequence
  dsimp only
  split <;> next heq => rw [heq] at hword; exact hword

theorem Part.pageBoundary_stores (reach : Nat) : ∃ m ∈ p.landings bus,
    Memory.StoresAt (pagePlace p.regs.windowBase) m (p.pageBoundary bus reach).mem := by
  unfold Part.pageBoundary
  split
  · exact ⟨p.mem, by simp [Part.landings], .refl⟩
  · dsimp only
    split
    · exact ⟨p.mem, by simp [Part.landings], .refl⟩
    · split
      · exact ⟨p.mem, by simp [Part.landings], .refl⟩
      · let begun := Part.hostWrites { p with
          rep := { p.rep with boundaries := p.rep.boundaries - 1, writing := some reach } } bus
        exact ⟨begun.mem, by simp [Part.landings, begun], begun.reachFields_stores bus fun f => List.mem_of_mem_take⟩

theorem Part.endPage_stores : ∃ m ∈ p.landings bus,
    Memory.StoresAt (pagePlace p.regs.windowBase) m (p.endPage bus).mem := by
  unfold Part.endPage
  split
  · exact ⟨p.mem, by simp [Part.landings], .refl⟩
  · next reached _ =>
    have hrest := (p.hostWrites bus).reachFields_stores bus (fs := pageFields.drop reached) fun f => List.mem_of_mem_drop
    have hword := ((p.hostWrites bus).reachFields bus (pageFields.drop reached)).pageSequence_stores bus
    rw [((p.hostWrites bus).reachFields_keeps bus _).1] at hword
    exact ⟨(p.hostWrites bus).mem, by simp [Part.landings], hrest.trans hword⟩

end

end Sys2Proof.Machine
end

section
/-! PROOF. What the starts and the ends of loads and the amendments leave as it was; the statements O6 and O60. -/

namespace Sys2Proof.Machine

/-! ### Loads begun (R22, R65, R87) -/

/-- What a load's beginning leaves as it was, beside `Part.beginLoad_keeps`. -/
@[simp] theorem Part.beginLoad_rest (p : Part) (k : Kind) (l : LoadState) :
    (p.beginLoad k l).1.mem = p.mem ∧ (p.beginLoad k l).1.res = p.res ∧ (p.beginLoad k l).1.rep = p.rep ∧
    (p.beginLoad k l).1.ed.boundary = p.ed.boundary ∧ (p.beginLoad k l).1.ed.run = p.ed.run := by
  unfold Part.beginLoad
  rw [p.dropLoadPin_eq k l]
  dsimp only
  split
  · split <;> simp
  · simp

@[simp] theorem Part.startStopLoad_mem (p : Part) : p.startStopLoad.mem = p.mem := by simp [Part.startStopLoad]

@[simp] theorem Part.startSeatLoad_mem (p : Part) : p.startSeatLoad.mem = p.mem := by simp [Part.startSeatLoad]

@[simp] theorem Part.startNoticeLoad_mem (p : Part) : p.startNoticeLoad.mem = p.mem := by simp [Part.startNoticeLoad]

@[simp] theorem Part.stopLoadTold_mem (p : Part) : p.stopLoadTold.mem = p.mem := by
  unfold Part.stopLoadTold
  split <;> simp

@[simp] theorem Part.trackerBoundary_mem (p : Part) : p.trackerBoundary.mem = p.mem := by
  unfold Part.trackerBoundary
  split
  · rfl
  · dsimp only
    split <;> simp

@[simp] theorem Part.seatLoadTold_mem (p : Part) : p.seatLoadTold.mem = p.mem := by
  unfold Part.seatLoadTold
  split <;> simp

@[simp] theorem Part.reservationBoundary_mem (p : Part) : p.reservationBoundary.mem = p.mem := by
  unfold Part.reservationBoundary
  split
  · rfl
  · dsimp only
    split <;> simp

@[simp] theorem Part.noticeLoadTold_mem (p : Part) : p.noticeLoadTold.mem = p.mem := by
  unfold Part.noticeLoadTold
  split <;> simp
/-! ### Notices and amendments -/

@[simp] theorem Part.countDown_mem (p : Part) : p.countDown.mem = p.mem := by rw [Part.countDown_eq]; rfl

@[simp] theorem Part.noticeBoundary_mem (p : Part) : p.noticeBoundary.mem = p.mem := by
  unfold Part.noticeBoundary
  split
  · rfl
  · dsimp only
    split <;> simp

@[simp] theorem Part.readReference_load (p : Part) : p.readReference.res.load = p.res.load := by
  unfold Part.readReference Reservations.readView
  dsimp only
  (repeat' split) <;> rfl

@[simp] theorem Part.evaluateSeat_load (p : Part) (number : Nat) : (p.evaluateSeat number).res.load = p.res.load := by
  simp [Part.evaluateSeat]

@[simp] theorem Part.amended_load (p : Part) (number : Nat) (segments : List Segment) :
    (p.amended number segments).res.load = p.res.load := by
  simp [Part.amended]

/-- What a judgement of an amendment leaves as it was, beside `JudgeKeeps`. -/
def JudgeSpares (judge : Part → Amendment → Part × AmendResult) : Prop :=
  ∀ p a, (judge p a).1.mem = p.mem ∧ (judge p a).1.trk = p.trk ∧ (judge p a).1.res.load = p.res.load ∧
    (judge p a).1.ntc = p.ntc ∧ (judge p a).1.cmp.comp = p.cmp.comp ∧ (judge p a).1.regs = p.regs ∧
    (judge p a).1.ed = p.ed ∧ (judge p a).1.rep = p.rep

@[simp] theorem addSegment_spares : JudgeSpares (·.judgeOnSeat Part.addSegment) := by
  intro p a
  unfold Part.judgeOnSeat Part.addSegment
  dsimp only
  (repeat' split) <;> simp

@[simp] theorem cancelSegment_spares : JudgeSpares (·.judgeOnSeat Part.cancelSegment) := by
  intro p a
  unfold Part.judgeOnSeat Part.cancelSegment
  dsimp only
  (repeat' split) <;> simp

@[simp] theorem judgeClear_spares : JudgeSpares Part.judgeClear := by
  intro p a
  unfold Part.judgeClear
  split <;> simp

@[simp] theorem judgeInvalid_spares : JudgeSpares Part.judgeInvalid :=
  fun _ _ => ⟨rfl, rfl, rfl, rfl, rfl, rfl, rfl, rfl⟩

/-- What an amendment leaves as it was, beside `Part.takeAmendment_keeps`: the run alone changes at the edition unit. -/
@[simp] theorem Part.takeAmendment_spares {judge : Part → Amendment → Part × AmendResult} (hj : JudgeSpares judge)
    (p : Part) (isMine : Nat → Bool) :
    (p.takeAmendment isMine judge).mem = p.mem ∧ (p.takeAmendment isMine judge).trk = p.trk ∧
    (p.takeAmendment isMine judge).res.load = p.res.load ∧
    (p.takeAmendment isMine judge).cmp.comp = p.cmp.comp ∧
    (p.takeAmendment isMine judge).ed.profile = p.ed.profile ∧ (p.takeAmendment isMine judge).ed.stops = p.ed.stops ∧
    (p.takeAmendment isMine judge).ed.reservations = p.ed.reservations ∧
    (p.takeAmendment isMine judge).ed.notices = p.ed.notices ∧
    (p.takeAmendment isMine judge).ed.content = p.ed.content ∧
    (p.takeAmendment isMine judge).ed.boundary = p.ed.boundary ∧
    (p.takeAmendment isMine judge).rep.writing = p.rep.writing ∧
    (p.takeAmendment isMine judge).rep.boundaries = p.rep.boundaries := by
  have answer (a : Amendment) :
      (p.answerAmendment judge a).1 = p ∨ (p.answerAmendment judge a).1 = (judge p a).1 := by
    unfold Part.answerAmendment
    split
    · exact .inl rfl
    · split
      · exact .inl rfl
      · exact .inr rfl
  unfold Part.takeAmendment
  split
  · simp
  · split
    · next a _ =>
      split
      · obtain ⟨hmem, htrk, hload, hntc, hcomp, hregs, hed, hrep⟩ := hj p a
        rcases answer a with h | h <;> simp [h, hmem, htrk, hload, hcomp, hed, hrep]
      · simp
    · simp
    · simp

/-! ### Ends of loads, and the composer's reads: the host's writes alone -/

section
variable (p : Part) (bus : Bus)

theorem Part.completeStopLoad_mem : (p.completeStopLoad bus).mem ∈ p.landings bus := by
  unfold Part.completeStopLoad
  split
  · dsimp only
    split <;> simp [Part.landings]
  · simp [Part.landings]
  · simp [Part.landings]

theorem Part.completeSeatLoad_mem : (p.completeSeatLoad bus).mem ∈ p.landings bus := by
  unfold Part.completeSeatLoad
  split
  · dsimp only
    split <;> simp [Part.landings]
  · simp [Part.landings]
  · simp [Part.landings]

theorem Part.completeNoticeLoad_mem : (p.completeNoticeLoad bus).mem ∈ p.landings bus := by
  unfold Part.completeNoticeLoad
  split
  · dsimp only
    split <;> simp [Part.landings]
  · simp [Part.landings]
  · simp [Part.landings]

theorem Part.beginComposition_mem : (p.beginComposition bus).mem ∈ p.landings bus := by
  unfold Part.beginComposition
  split
  · simp [Part.landings]
  · dsimp only
    split <;> simp [Part.landings]

theorem Part.beginElement_mem : (p.beginElement bus).mem ∈ p.landings bus := by
  unfold Part.beginElement
  (repeat' split) <;> simp [Part.landings]

theorem Part.endGlyph_mem : (p.endGlyph bus).mem ∈ p.landings bus := by
  unfold Part.endGlyph
  (repeat' split) <;> simp [Part.landings]

end

/-! ### Register writes -/

theorem Part.portWrite_mem (p : Part) {n : Nat} (hn : n < 8) (v : Word) : (p.portWrite n v).mem = p.mem := by
  rw [Part.portWrite_eq p hn]
  simp

theorem ignoredRegisterWf_lt {n : Nat} (h : ignoredRegisterWf n = true) : n < 8 := by
  simp only [ignoredRegisterWf, Bool.or_eq_true, Bool.and_eq_true, decide_eq_true_eq] at h
  omega

theorem Part.ignoredWrite_mem (p : Part) (n : Nat) (v : Word) : (effectOf (.ignoredRegisterWrite n v) p).mem = p.mem := by
  unfold effectOf
  dsimp only
  split
  · next hn => exact p.portWrite_mem (ignoredRegisterWf_lt hn) v
  · rfl

/-! ### O6, O60: the stores of every command -/

/-- The bytes that a command with a bus operand stores beside the host's. -/
def storePlace (c : Instr) (p : Part) (a : Nat) : Prop :=
  match c with
  | .placeAtStop _ | .placeInLeg _ | .unplace _ | .switchCompletion _ _ | .switchRefusal _ _ =>
    headPlace p.regs.windowBase a
  | .boundaryOperation _ => owedPlace p.regs.windowBase p.ed.owed a
  | .amendmentSlotRead _ => runPlace p.regs.windowBase p.ed a
  | .statusPageWrite _ _ | .statusPageWriteDone _ => pagePlace p.regs.windowBase a
  | _ => False

/-- A command without a bus operand leaves memory. -/
theorem effectOf_mem {c : Instr} (h : busOf c = none) (p : Part) : (effectOf c p).mem = p.mem := by
  cases c with
  | runSet value | runClear value | engineReset value | freezeSet value | freezeClear value | windowBaseWrite value
  | attentionWrite value | attentionEnableWrite value => exact p.portWrite_mem (by decide) _
  | ignoredRegisterWrite n value => exact p.ignoredWrite_mem n value
  | placeAtStop bus | placeInLeg bus | unplace bus | stopListLoadComplete bus | reservationLoadComplete bus
  | amendmentSlotRead bus | noticeLoadComplete bus | compositionBegin bus | elementBegin bus | glyphDecodeEnd bus
  | boundaryOperation bus | switchCompletion kind bus | switchRefusal kind bus | statusPageWrite bus reach
  | statusPageWriteDone bus => cases h
  | _ => simp [effectOf]

/-- A memory that the host alone made is stored at no place. -/
theorem Part.landed_stores {p : Part} {bus : Bus} {m' : Memory} (h : m' ∈ p.landings bus) (place : Nat → Prop) :
    ∃ m ∈ p.landings bus, Memory.StoresAt place m m' := ⟨m', h, .refl⟩

/-- A command with a bus operand stores at its places alone, beside the host's writes. -/
theorem effectOf_stores {c : Instr} {bus : Bus} (h : busOf c = some bus) {p : Part} (hp : p.memoryCanonical) :
    ∃ m ∈ p.landings bus, Memory.StoresAt (storePlace c p) m (effectOf c p).mem := by
  cases c with
  | placeAtStop b | placeInLeg b | unplace b => cases h; exact p.takePosition_stores bus _
  | stopListLoadComplete b => cases h; exact Part.landed_stores (p.completeStopLoad_mem bus) _
  | reservationLoadComplete b => cases h; exact Part.landed_stores (p.completeSeatLoad_mem bus) _
  | noticeLoadComplete b => cases h; exact Part.landed_stores (p.completeNoticeLoad_mem bus) _
  | compositionBegin b => cases h; exact Part.landed_stores (p.beginComposition_mem bus) _
  | elementBegin b => cases h; exact Part.landed_stores (p.beginElement_mem bus) _
  | glyphDecodeEnd b => cases h; exact Part.landed_stores (p.endGlyph_mem bus) _
  | amendmentSlotRead b => cases h; exact p.runDelivery_stores bus
  | boundaryOperation b => cases h; exact p.boundaryOperation_stores bus hp
  | switchCompletion k b => cases h; exact p.completeSwitch_stores bus k
  | switchRefusal k b => cases h; exact p.failSwitch_stores bus k
  | statusPageWrite b reach => cases h; exact p.pageBoundary_stores bus reach
  | statusPageWriteDone b => cases h; exact p.endPage_stores bus
  | _ => cases h

/-- The memories that a bus operand lands are canonical. -/
theorem Part.landings_canonical {p : Part} (hp : p.memoryCanonical) {bus : Bus} {m : Memory}
    (hm : m ∈ p.landings bus) : Memory.wf m = true := by
  simp only [Part.landings, List.mem_cons, List.not_mem_nil, or_false] at hm
  rcases hm with rfl | rfl | rfl
  · exact hp
  · exact Memory.wf_writeAll hp _
  · exact Memory.wf_writeAll (Memory.wf_writeAll hp _) _

theorem effectOf_canonical (c : Instr) (p : Part) (hp : p.memoryCanonical) : (effectOf c p).memoryCanonical := by
  cases hbus : busOf c with
  | none =>
    unfold Part.memoryCanonical
    rw [effectOf_mem hbus]
    exact hp
  | some bus =>
    obtain ⟨m, hm, hstores⟩ := effectOf_stores hbus hp
    exact hstores.canonical (Part.landings_canonical hp hm)

/-- Settles O6: every command stores by canonical writes, and a tick stores nothing. -/
theorem stepKeepsMemoryCanonical : Obligations.StepKeepsMemoryCanonical :=
  step_keeps effectOf_canonical fun _ h => h

/-- Settles O60: `effectOf_mem` and `effectOf_stores`, read command by command. -/
theorem commandsStoreOnlyTheirFields : Obligations.CommandsStoreOnlyTheirFields := by
  intro c s t hcanonical h
  rw [exec_eq_effectOf, State.onPart_next] at h
  subst h
  refine ⟨fun hbus => effectOf_mem hbus s.part, fun bus hbus => ?_⟩
  obtain ⟨m, hm, hstores⟩ := effectOf_stores hbus hcanonical
  refine ⟨m, by simpa [Part.landings] using hm, fun hc => ?_, fun hc a ha => ?_, fun hc a hhead hslot => ?_,
    fun hc a hhead hslot => ?_, fun hc a ha => ?_⟩
  · refine Memory.StoresAt.eq (hstores.mono fun a ha => ?_) (Part.landings_canonical hcanonical hm)
    rcases hc with rfl | rfl | rfl | rfl | rfl | rfl <;> exact ha
  · refine hstores.elsewhere a fun hplace => ha ?_
    rcases hc with rfl | rfl | rfl | ⟨k, rfl | rfl⟩ <;> exact hplace
  · subst hc
    exact hstores.elsewhere a fun hplace => hplace.elim hhead hslot
  · subst hc
    exact hstores.elsewhere a fun hplace => hplace.elim hhead hslot
  · refine hstores.elsewhere a fun hplace => ha ?_
    rcases hc with rfl | ⟨reach, rfl⟩ <;> exact hplace

end Sys2Proof.Machine
end

section
/-! PROOF. What the operations leave of the loads, the composition, the switches and the page write: the frames that the pin
law (O9) and the law of a stopped part (O10) need beside those of Laws/. -/

namespace Sys2Proof.Machine

/-! ### Positions, tables -/

@[simp] theorem Part.answerPosition_flight (p : Part) (r : PositionRequest) :
    (p.answerPosition r).1.trk.load = p.trk.load ∧ (p.answerPosition r).1.res.load = p.res.load ∧
    (p.answerPosition r).1.ntc.load = p.ntc.load ∧ (p.answerPosition r).1.cmp.comp = p.cmp.comp ∧
    (p.answerPosition r).1.ed = p.ed ∧ (p.answerPosition r).1.rep.writing = p.rep.writing ∧
    (p.answerPosition r).1.rep.boundaries = p.rep.boundaries := by
  unfold Part.answerPosition Part.answerPlaceAtStop Part.answerPlaceInLeg
  (repeat' split) <;> simp

@[simp] theorem Part.takePosition_flight (p : Part) (kind : PositionKind) (bus : Bus) :
    (p.takePosition kind bus).trk.load = p.trk.load ∧ (p.takePosition kind bus).res.load = p.res.load ∧
    (p.takePosition kind bus).ntc.load = p.ntc.load ∧ (p.takePosition kind bus).cmp.comp = p.cmp.comp ∧
    (p.takePosition kind bus).regs = p.regs ∧ (p.takePosition kind bus).ed.profile = p.ed.profile ∧
    (p.takePosition kind bus).ed.stops = p.ed.stops ∧ (p.takePosition kind bus).ed.reservations = p.ed.reservations ∧
    (p.takePosition kind bus).ed.notices = p.ed.notices ∧ (p.takePosition kind bus).ed.content = p.ed.content ∧
    (p.takePosition kind bus).ed.boundary = p.ed.boundary ∧ (p.takePosition kind bus).ed.run = p.ed.run ∧
    (p.takePosition kind bus).rep.writing = p.rep.writing ∧
    (p.takePosition kind bus).rep.boundaries = p.rep.boundaries := by
  unfold Part.takePosition
  split
  · simp
  · split <;> simp

@[simp] theorem Part.evaluateAll_load (p : Part) : p.evaluateAll.res.load = p.res.load := by
  simp [Part.evaluateAll]

@[simp] theorem Part.reservationJourney_load (p : Part) : p.reservationJourney.res.load = p.res.load := by
  unfold Part.reservationJourney Reservations.refer
  split <;> simp

@[simp] theorem Part.seatMapLoad_load (p : Part) : p.seatMapLoad.res.load = p.res.load := by
  unfold Part.seatMapLoad
  split <;> simp

/-! ### Marks -/

@[simp] theorem Part.markPanel_comp (p : Part) (l : Line) (a : Nat) : (p.markPanel l a).cmp.comp = p.cmp.comp := by
  unfold Part.markPanel
  (repeat' split) <;> simp

@[simp] theorem Part.markWhere_comp (p : Part) (test : PanelDraw → Bool) : (p.markWhere test).cmp.comp = p.cmp.comp := by
  unfold Part.markWhere
  exact foldl_keeps (·.cmp.comp) _ (fun q (x : PanelDraw) => q.markPanel_comp x.line x.address) _ _

@[simp] theorem Part.composerJourney_comp (p : Part) : p.composerJourney.cmp.comp = p.cmp.comp := by
  unfold Part.composerJourney
  split <;> simp

@[simp] theorem Part.composerProgress_comp (p : Part) : p.composerProgress.cmp.comp = p.cmp.comp := by
  unfold Part.composerProgress
  split <;> simp

@[simp] theorem Part.composerModule_comp (p : Part) : p.composerModule.cmp.comp = p.cmp.comp := by
  unfold Part.composerModule
  split <;> simp

@[simp] theorem Part.composerSelection_comp (p : Part) : p.composerSelection.cmp.comp = p.cmp.comp := by
  unfold Part.composerSelection
  split <;> simp

@[simp] theorem Part.composerBoundary_comp (p : Part) : p.composerBoundary.cmp.comp = p.cmp.comp := by
  unfold Part.composerBoundary
  split
  · rfl
  · dsimp only
    split <;> simp

@[simp] theorem Part.composerOnline_comp (p : Part) : p.composerOnline.cmp.comp = p.cmp.comp := by
  unfold Part.composerOnline
  split <;> simp

@[simp] theorem Part.contentSwitched_comp (p : Part) : p.contentSwitched.cmp.comp = p.cmp.comp := by
  simp [Part.contentSwitched]

/-! ### Drawing: the composition in flight keeps its pin -/

/-- The composition in flight holds this pin. -/
def Part.holdsPin (p : Part) (pin : Option ContentPin) : Prop := p.cmp.comp.bind (·.pin) = pin

@[simp] theorem Part.holdsPin_setComp (p : Part) (c : Composition) (pin : Option ContentPin) :
    (p.setComp c).holdsPin pin ↔ c.pin = pin := Iff.rfl

@[simp] theorem Part.holdsPin_composerError (p : Part) (f : MemFail) (pin : Option ContentPin) :
    (p.composerError f).holdsPin pin ↔ p.holdsPin pin := by
  simp [Part.holdsPin]

@[simp] theorem Part.holdsPin_composerErrors (p : Part) (fs : List MemFail) (pin : Option ContentPin) :
    (p.composerErrors fs).holdsPin pin ↔ p.holdsPin pin := by
  simp [Part.holdsPin]

@[simp] theorem Part.holdsPin_contentFault (p : Part) (glyph : Nat) (f : StreamFault) (pin : Option ContentPin) :
    (p.contentFault glyph f).holdsPin pin ↔ p.holdsPin pin := by
  simp [Part.holdsPin]

section
variable (p : Part) (bus : Bus) (c : Composition)

@[simp] theorem Composition.paint_pin (area r : Rect) (f : Nat → Nat → Byte → Byte) : (c.paint area r f).pin = c.pin := rfl

@[simp] theorem Composition.flat_pin (area r : Rect) (v : Nat) : (c.flat area r v).pin = c.pin := rfl

@[simp] theorem Composition.lay_pin (j : GlyphJob) (buffer : List Bool) : (c.lay j buffer).pin = c.pin := rfl

@[simp] theorem Composition.beginPage_pin (area : Area) (seat : Option Nat) (address : Nat) (h : PageHead) :
    (c.beginPage area seat address h).pin = c.pin := rfl

theorem Part.beginArea_holdsPin (area : Area) : (p.beginArea bus c area).holdsPin c.pin := by
  unfold Part.beginArea Part.omitPage
  dsimp only
  (repeat' split) <;> simp

theorem Part.drawStrip_holdsPin (g : PageDraw) (pin : ContentPin) (items : ContentItems) (r : Rect)
    (index y0 fy : Nat) (marker : Bool) : (p.drawStrip bus c g pin items r index y0 fy marker).holdsPin c.pin := by
  unfold Part.drawStrip Part.addMarker
  dsimp only
  (repeat' split) <;> simp

theorem Part.drawWindow_holdsPin (g : PageDraw) (pin : ContentPin) (items : ContentItems) (w : Window) :
    (p.drawWindow bus c g pin items w).holdsPin c.pin := by
  unfold Part.drawWindow
  dsimp only
  split
  · simp
  · cases w.kind with
    | strip index y0 fy marker => exact p.drawStrip_holdsPin bus c g pin items _ index y0 fy marker
    | text ink paper zoomH zoomV centre marquee speed field fixed => simp [Part.drawOpenWindow, Part.drawText]
    | bar ink paper border => simp [Part.drawOpenWindow, Part.drawBar]
    | fill v => simp [Part.drawOpenWindow]
    | other => simp [Part.drawOpenWindow]

theorem Part.beginWindow_holdsPin (g : PageDraw) : (p.beginWindow bus c g).holdsPin c.pin := by
  unfold Part.beginWindow
  split
  · split
    · simp
    · exact Part.drawWindow_holdsPin _ _ _ _ _ _ _
  · simp

theorem Part.glyphDecoded_holdsPin (j : GlyphJob) (r : Decoder × Option StreamStop) :
    (p.glyphDecoded c j r).holdsPin c.pin := by
  unfold Part.glyphDecoded
  dsimp only
  split <;> simp

/-- R119: an element's beginning keeps the pin. -/
theorem Part.beginElement_holdsPin : (p.beginElement bus).holdsPin (p.cmp.comp.bind (·.pin)) := by
  unfold Part.beginElement
  split
  · rfl
  · next c hc =>
    rw [hc]
    split
    · simp [Part.holdsPin, hc]
    · split
      · exact Part.beginWindow_holdsPin _ _ _ _
      · exact Part.beginArea_holdsPin _ _ _ _
      · simp [Part.holdsPin, hc]

/-- R134: a glyph's end keeps the pin. -/
theorem Part.endGlyph_holdsPin : (p.endGlyph bus).holdsPin (p.cmp.comp.bind (·.pin)) := by
  unfold Part.endGlyph
  split
  · rfl
  · next c hc =>
    rw [hc]
    split
    · exact Part.glyphDecoded_holdsPin _ _ _ _
    · simp
    · simp [Part.holdsPin, hc]

end

/-! ### The edition unit's writes -/

@[simp] theorem Part.requestBack_flight (p : Part) (bus : Bus) (k : Kind) (request : Nat) :
    (p.requestBack bus k request).1.res = p.res ∧ (p.requestBack bus k request).1.rep.writing = p.rep.writing ∧
    (p.requestBack bus k request).1.rep.boundaries = p.rep.boundaries := by
  unfold Part.requestBack
  split <;> simp

@[simp] theorem Part.completionWrite_flight (p : Part) (bus : Bus) (k : Kind) (request : Nat) :
    (p.completionWrite bus k request).res = p.res ∧
    (p.completionWrite bus k request).ed.profile = p.ed.profile ∧
    (p.completionWrite bus k request).ed.stops = p.ed.stops ∧
    (p.completionWrite bus k request).ed.reservations = p.ed.reservations ∧
    (p.completionWrite bus k request).ed.notices = p.ed.notices ∧
    (p.completionWrite bus k request).ed.content = p.ed.content ∧
    (p.completionWrite bus k request).ed.boundary = p.ed.boundary ∧
    (p.completionWrite bus k request).ed.run = p.ed.run ∧
    (p.completionWrite bus k request).rep.writing = p.rep.writing ∧
    (p.completionWrite bus k request).rep.boundaries = p.rep.boundaries := by
  simp [Part.completionWrite]

@[simp] theorem Part.finishSwitch_flight (p : Part) (bus : Bus) (k : Kind) (w : Switch) :
    (p.finishSwitch bus k w).res = p.res ∧ (p.finishSwitch bus k w).ed.profile = p.ed.profile ∧
    (p.finishSwitch bus k w).ed.stops = p.ed.stops ∧ (p.finishSwitch bus k w).ed.reservations = p.ed.reservations ∧
    (p.finishSwitch bus k w).ed.notices = p.ed.notices ∧ (p.finishSwitch bus k w).ed.content = p.ed.content ∧
    (p.finishSwitch bus k w).ed.boundary = p.ed.boundary ∧ (p.finishSwitch bus k w).ed.run = p.ed.run ∧
    (p.finishSwitch bus k w).rep.writing = p.rep.writing ∧
    (p.finishSwitch bus k w).rep.boundaries = p.rep.boundaries := by
  unfold Part.finishSwitch
  split <;> simp

@[simp] theorem Part.tellLoader_flight (p : Part) (k : Kind) (f : Option Profile) :
    (p.tellLoader k f).ed = p.ed ∧ (p.tellLoader k f).trk.load = p.trk.load ∧ (p.tellLoader k f).res.load = p.res.load ∧
    (p.tellLoader k f).ntc.load = p.ntc.load ∧ (p.tellLoader k f).cmp.comp = p.cmp.comp ∧
    (p.tellLoader k f).regs = p.regs ∧ (p.tellLoader k f).rep = p.rep := by
  unfold Part.tellLoader Part.handProfile
  split <;> simp

end Sys2Proof.Machine
end

section
/-! PROOF. The pins (R178, O9): what a kind's pins count, one lemma for each change of a kind's state, and the law command by
command. -/

namespace Sys2Proof.Machine

/-! ### The pins of one kind -/

/-- A kind's pins are those of its switch in flight and of these other readers. -/
def KindState.Balanced (s : KindState) (readers : Copy → Nat) : Prop := ∀ c, s.pins c = s.validates c + readers c

@[simp] theorem LoadState.reads_loading (c : Copy) (a e : Nat) :
    (LoadState.loading c a e).reads = fun d => if c = d then 1 else 0 := rfl

@[simp] theorem LoadState.reads_idle : LoadState.idle.reads = fun _ => 0 := rfl

@[simp] theorem LoadState.reads_owed : LoadState.owed.reads = fun _ => 0 := rfl

section
variable {s : KindState} {r : Copy → Nat}

/-- The count speaks of the pins and the switch alone. -/
theorem KindState.Balanced.congr {t : KindState} (h : s.Balanced r) (ha : t.pinsA = s.pinsA) (hb : t.pinsB = s.pinsB)
    (hw : t.switch = s.switch) : t.Balanced r := by
  intro c
  have hpins : t.pins c = s.pins c := by cases c <;> simp [KindState.pins, ha, hb]
  rw [hpins, h c, KindState.validates, KindState.validates, hw]

theorem KindState.switch_pin (s : KindState) (c : Copy) : (s.pin c).switch = s.switch := by cases c <;> rfl

theorem KindState.switch_unpin (s : KindState) (c : Copy) : (s.unpin c).switch = s.switch := by cases c <;> rfl

/-- A pin taken is a reader more. -/
theorem KindState.Balanced.pin (h : s.Balanced r) (d : Copy) :
    (s.pin d).Balanced (fun c => r c + if d = c then 1 else 0) := by
  intro c
  rw [KindState.pins_pin, h c, KindState.validates, KindState.validates, s.switch_pin, Nat.add_assoc]

/-- A pin dropped is a reader less. -/
theorem KindState.Balanced.unpin {d : Copy} (h : s.Balanced (fun c => r c + if d = c then 1 else 0)) :
    (s.unpin d).Balanced r := by
  intro c
  rw [KindState.pins_unpin, h c, KindState.validates, KindState.validates, s.switch_unpin, ← Nat.add_assoc,
    Nat.add_sub_cancel]

/-- R173: a switch starts with its own pin. -/
theorem KindState.Balanced.startSwitch (h : s.Balanced r) (hidle : s.switch = none) (copy : Copy) (address request : Nat) :
    (startSwitch copy address request s).Balanced r := by
  intro c
  have hpins := h.pin copy c
  rw [KindState.validates, s.switch_pin, hidle] at hpins
  refine (hpins : (s.pin copy).pins c = _).trans ?_
  simp only [Machine.startSwitch, KindState.validates]
  omega

/-- A switch ends with its own pin dropped. -/
theorem KindState.Balanced.endSwitch (h : s.Balanced r) {w : Switch} (hw : s.switch = some w) {t : KindState}
    (ha : t.pinsA = (s.unpin w.copy).pinsA) (hb : t.pinsB = (s.unpin w.copy).pinsB) (ht : t.switch = none) :
    t.Balanced r := by
  intro c
  have hpins : t.pins c = (s.unpin w.copy).pins c := by cases c <;> simp [KindState.pins, ha, hb]
  have hbefore := h c
  simp only [KindState.validates, hw] at hbefore
  rw [hpins, KindState.pins_unpin, hbefore, KindState.validates, ht]
  simp only
  omega

/-- R187: a switch abandoned. -/
theorem KindState.Balanced.abandon (h : s.Balanced r) : s.abandon.Balanced r := by
  unfold KindState.abandon
  split
  · exact h
  · next w hw => exact h.endSwitch hw rfl rfl rfl

/-- A load's reader goes with its pin. -/
theorem KindState.Balanced.dropLoad {l : LoadState} (h : s.Balanced l.reads) : (s.dropLoad l).Balanced (fun _ => 0) := by
  cases l with
  | loading c a e =>
    refine KindState.Balanced.unpin ?_
    simpa only [Nat.zero_add, LoadState.reads_loading] using h
  | idle | owed => exact h

end

/-! ### The law by kinds -/

/-- The readers of a kind's copies beside its switch. -/
def Part.readers (p : Part) (k : Kind) (c : Copy) : Nat := (p.loader k).reads c + p.composes k c

theorem Part.pinLaw_iff (p : Part) : p.pinLaw ↔ ∀ k, (p.ed.kind k).Balanced (p.readers k) := by
  simp only [Part.pinLaw, KindState.Balanced, Part.readers, Nat.add_assoc]

section
variable {p q : Part}

/-- The readers are told by the loaders and the composition's pin. -/
theorem Part.readers_congr (htrk : q.trk.load = p.trk.load) (hres : q.res.load = p.res.load)
    (hntc : q.ntc.load = p.ntc.load) (hpin : q.cmp.comp.bind (·.pin) = p.cmp.comp.bind (·.pin)) (k : Kind) :
    q.readers k = p.readers k := by
  funext c
  cases k <;> simp only [Part.readers, Part.loader, Part.composes, htrk, hres, hntc, hpin]

/-- What the law speaks of. -/
theorem Part.pinLaw_congr (h : p.pinLaw) (hprofile : q.ed.profile = p.ed.profile) (hstops : q.ed.stops = p.ed.stops)
    (hseats : q.ed.reservations = p.ed.reservations) (hnotices : q.ed.notices = p.ed.notices)
    (hcontent : q.ed.content = p.ed.content) (htrk : q.trk.load = p.trk.load) (hres : q.res.load = p.res.load)
    (hntc : q.ntc.load = p.ntc.load) (hpin : q.cmp.comp.bind (·.pin) = p.cmp.comp.bind (·.pin)) : q.pinLaw := by
  rw [Part.pinLaw_iff] at h ⊢
  intro k
  have hkind : q.ed.kind k = p.ed.kind k := by
    cases k <;> simp only [Edition.kind, hprofile, hstops, hseats, hnotices, hcontent]
  rw [hkind, Part.readers_congr htrk hres hntc hpin]
  exact h k

/-- A change of one kind and of its readers. -/
theorem Part.pinLaw_of_kind (h : p.pinLaw) (k : Kind) (hk : (q.ed.kind k).Balanced (q.readers k))
    (hothers : ∀ j, j ≠ k → q.ed.kind j = p.ed.kind j ∧ q.readers j = p.readers j) : q.pinLaw := by
  rw [Part.pinLaw_iff] at h ⊢
  intro j
  by_cases hj : j = k
  · rw [hj]
    exact hk
  · obtain ⟨hkind, hreaders⟩ := hothers j hj
    rw [hkind, hreaders]
    exact h j

/-- A change of a kind's state that keeps its count. -/
theorem Part.pinLaw_changeKind (h : p.pinLaw) (k : Kind) {f : KindState → KindState}
    (hf : ∀ r, (p.ed.kind k).Balanced r → (f (p.ed.kind k)).Balanced r) : (p.changeKind k f).pinLaw := by
  refine Part.pinLaw_of_kind h k ?_ fun j hj => ⟨?_, rfl⟩
  · rw [Part.changeKind_ed, Edition.kind_setKind]
    exact hf _ ((Part.pinLaw_iff p).mp h k)
  · rw [Part.changeKind_ed, Edition.kind_setKind_of_ne _ _ hj]

end

/-! ### Loads -/

section
variable {p : Part} {k : Kind} {l : LoadState}

/-- R178: a load begins under its own pin, that of the load it abandons dropped. -/
theorem Part.beginLoad_balanced (h : (p.ed.kind k).Balanced l.reads) :
    ((p.beginLoad k l).1.ed.kind k).Balanced (p.beginLoad k l).2.reads := by
  have hdropped := h.dropLoad
  unfold Part.beginLoad
  rw [p.dropLoadPin_eq k l]
  dsimp only
  split
  · split
    · next c a _ _ =>
      have hpin := hdropped.pin c
      simp only [Nat.zero_add] at hpin
      simpa [Part.pin] using hpin
    · simpa using hdropped
    · simpa using hdropped
  · simpa using hdropped

theorem Part.beginLoad_kind_of_ne {j : Kind} (hj : j ≠ k) : (p.beginLoad k l).1.ed.kind j = p.ed.kind j := by
  unfold Part.beginLoad
  rw [p.dropLoadPin_eq k l]
  dsimp only
  split
  · split <;> simp [Part.pin, Edition.kind_setKind_of_ne _ _ hj]
  · simp [Edition.kind_setKind_of_ne _ _ hj]

end

section
variable {p : Part} (h : p.pinLaw)
include h

theorem Part.startStopLoad_pinLaw : p.startStopLoad.pinLaw := by
  have hbalanced := Part.beginLoad_balanced ((Part.pinLaw_iff p).mp h .stopList)
  refine Part.pinLaw_of_kind h .stopList hbalanced fun j hj => ⟨Part.beginLoad_kind_of_ne hj, ?_⟩
  funext c
  cases j <;> simp_all [Part.startStopLoad, Part.readers, Part.loader, Part.composes]

theorem Part.startSeatLoad_pinLaw : p.startSeatLoad.pinLaw := by
  have hbalanced := Part.beginLoad_balanced ((Part.pinLaw_iff p).mp h .reservationTable)
  refine Part.pinLaw_of_kind h .reservationTable hbalanced fun j hj => ⟨Part.beginLoad_kind_of_ne hj, ?_⟩
  funext c
  cases j <;> simp_all [Part.startSeatLoad, Part.readers, Part.loader, Part.composes]

theorem Part.startNoticeLoad_pinLaw : p.startNoticeLoad.pinLaw := by
  have hbalanced := Part.beginLoad_balanced ((Part.pinLaw_iff p).mp h .noticeTable)
  refine Part.pinLaw_of_kind h .noticeTable hbalanced fun j hj => ⟨Part.beginLoad_kind_of_ne hj, ?_⟩
  funext c
  cases j <;> simp_all [Part.startNoticeLoad, Part.readers, Part.loader, Part.composes]

theorem Part.stopLoadTold_pinLaw : p.stopLoadTold.pinLaw := by
  unfold Part.stopLoadTold
  split
  · exact h
  · refine Part.startStopLoad_pinLaw ?_
    exact h

theorem Part.trackerBoundary_pinLaw : p.trackerBoundary.pinLaw := by
  unfold Part.trackerBoundary
  split
  · exact h
  · dsimp only
    split
    · refine Part.startStopLoad_pinLaw ?_
      exact h
    · exact h

theorem Part.seatLoadTold_pinLaw : p.seatLoadTold.pinLaw := by
  unfold Part.seatLoadTold
  split
  · exact h
  · refine Part.startSeatLoad_pinLaw ?_
    exact h

theorem Part.reservationBoundary_pinLaw : p.reservationBoundary.pinLaw := by
  unfold Part.reservationBoundary
  split
  · exact h
  · dsimp only
    split
    · refine Part.startSeatLoad_pinLaw ?_
      exact h
    · exact h

theorem Part.noticeLoadTold_pinLaw : p.noticeLoadTold.pinLaw := by
  unfold Part.noticeLoadTold
  split
  · exact h
  · refine Part.startNoticeLoad_pinLaw ?_
    exact h

theorem Part.noticeBoundary_pinLaw : p.noticeBoundary.pinLaw := by
  by_cases hb : p.ntc.boundaries = 0
  · rw [Part.noticeBoundary, if_pos hb]
    exact h
  · have hcounted : p.boundaryCounted.pinLaw := by
      rw [Part.boundaryCounted, Part.countDown_eq]
      exact h
    rw [Part.noticeBoundary_eq hb]
    split
    · exact Part.startNoticeLoad_pinLaw hcounted
    · exact hcounted

end

/-! ### Ends of loads -/

section
variable {p : Part} (h : p.pinLaw) (bus : Bus)
include h

/-- R22, R178: the tracker's load ends with its pin dropped. -/
theorem Part.stopLoadEnded_pinLaw {copy : Copy} {address edition : Nat} (hl : p.trk.load = .loading copy address edition) :
    (p.stopLoadEnded bus copy).pinLaw := by
  refine Part.pinLaw_of_kind h .stopList (KindState.Balanced.unpin ?_) fun j hj => ?_
  · intro c
    simpa [Part.readers, Part.loader, Part.composes, hl, Part.stopLoadEnded, Edition.kind]
      using (Part.pinLaw_iff p).mp h .stopList c
  · cases j with
    | stopList => exact absurd rfl hj
    | _ => exact ⟨rfl, rfl⟩

/-- R66, R178: likewise the engine's. -/
theorem Part.seatLoadEnded_pinLaw {copy : Copy} {address edition : Nat} (hl : p.res.load = .loading copy address edition) :
    (p.seatLoadEnded bus copy).pinLaw := by
  refine Part.pinLaw_of_kind h .reservationTable (KindState.Balanced.unpin ?_) fun j hj => ?_
  · intro c
    simpa [Part.readers, Part.loader, Part.composes, hl, Part.seatLoadEnded, Edition.kind]
      using (Part.pinLaw_iff p).mp h .reservationTable c
  · cases j with
    | reservationTable => exact absurd rfl hj
    | _ => exact ⟨rfl, rfl⟩

/-- R87, R178: likewise the scheduler's. -/
theorem Part.noticeLoadEnded_pinLaw {copy : Copy} {address edition : Nat}
    (hl : p.ntc.load = .loading copy address edition) : (p.noticeLoadEnded bus copy).pinLaw := by
  refine Part.pinLaw_of_kind h .noticeTable (KindState.Balanced.unpin ?_) fun j hj => ?_
  · intro c
    simpa [Part.readers, Part.loader, Part.composes, hl, Part.noticeLoadEnded, Edition.kind]
      using (Part.pinLaw_iff p).mp h .noticeTable c
  · cases j with
    | noticeTable => exact absurd rfl hj
    | _ => exact ⟨rfl, rfl⟩

theorem Part.completeStopLoad_pinLaw : (p.completeStopLoad bus).pinLaw := by
  cases hl : p.trk.load with
  | loading copy address edition =>
    have hended := Part.stopLoadEnded_pinLaw h bus hl
    rw [Part.completeStopLoad_eq hl]
    split <;> apply Part.pinLaw_congr hended <;> simp
  | idle | owed =>
    simp only [Part.completeStopLoad, hl]
    exact h

theorem Part.completeSeatLoad_pinLaw : (p.completeSeatLoad bus).pinLaw := by
  cases hl : p.res.load with
  | loading copy address edition =>
    have hended := Part.seatLoadEnded_pinLaw h bus hl
    rw [Part.completeSeatLoad_eq hl]
    split <;> apply Part.pinLaw_congr hended <;> simp [Reservations.loaded]
  | idle | owed =>
    simp only [Part.completeSeatLoad, hl]
    exact h

theorem Part.completeNoticeLoad_pinLaw : (p.completeNoticeLoad bus).pinLaw := by
  cases hl : p.ntc.load with
  | loading copy address edition =>
    have hended := Part.noticeLoadEnded_pinLaw h bus hl
    rw [Part.completeNoticeLoad_eq hl]
    split <;> apply Part.pinLaw_congr hended <;> simp
  | idle | owed =>
    simp only [Part.completeNoticeLoad, hl]
    exact h

end

/-! ### Compositions (R118, R120, R122) -/

section
variable {p q : Part} (h : p.pinLaw)
include h

/-- R178: a composition ends with its pin dropped. -/
theorem Part.pinLaw_unpinned {c : Composition} (hc : p.cmp.comp = some c) (hed : q.ed = p.ed.unpinned c)
    (htrk : q.trk.load = p.trk.load) (hres : q.res.load = p.res.load) (hntc : q.ntc.load = p.ntc.load)
    (hcomp : q.cmp.comp = none) : q.pinLaw := by
  have hothers (j : Kind) (hj : j ≠ .contentSet) : q.ed.kind j = p.ed.kind j ∧ q.readers j = p.readers j := by
    have hkind : (p.ed.unpinned c).kind j = p.ed.kind j := by
      unfold Edition.unpinned
      cases j with
      | contentSet => exact absurd rfl hj
      | _ => split <;> rfl
    refine ⟨by rw [hed, hkind], ?_⟩
    funext d
    cases j with
    | contentSet => exact absurd rfl hj
    | _ => simp [Part.readers, Part.loader, Part.composes, htrk, hres, hntc]
  have hcontent := (Part.pinLaw_iff p).mp h .contentSet
  refine Part.pinLaw_of_kind h .contentSet ?_ hothers
  rw [hed]
  cases hpin : c.pin with
  | none =>
    rw [p.ed.unpinned_none hpin]
    intro d
    simpa [Part.readers, Part.loader, Part.composes, hc, hcomp, hpin] using hcontent d
  | some pin =>
    rw [p.ed.unpinned_some hpin]
    refine KindState.Balanced.unpin fun d => ?_
    simpa [Part.readers, Part.loader, Part.composes, hc, hcomp, hpin, Edition.kind] using hcontent d

theorem Part.completeComposition_pinLaw : p.completeComposition.pinLaw := by
  cases hc : p.cmp.comp with
  | none =>
    simp only [Part.completeComposition, hc]
    exact h
  | some c =>
    by_cases hf : c.finished = true
    · rw [Part.completeComposition_eq hc hf]
      exact Part.pinLaw_unpinned h hc rfl rfl rfl rfl rfl
    · simp only [Part.completeComposition, hc, if_neg hf]
      exact h

theorem Part.dropComposition_pinLaw : p.dropComposition.pinLaw := by
  cases hc : p.cmp.comp with
  | none =>
    simp only [Part.dropComposition, hc]
    exact h
  | some c =>
    rw [Part.dropComposition_eq hc]
    exact Part.pinLaw_unpinned h hc rfl rfl rfl rfl rfl

theorem Part.dropCompositionIf_pinLaw (test : Line → Nat → Bool) : (p.dropCompositionIf test).pinLaw := by
  unfold Part.dropCompositionIf
  split
  · exact h
  · split
    · exact Part.dropComposition_pinLaw h
    · exact h

theorem Part.releasePanels_pinLaw (test : Line → Nat → Bool) : (p.releasePanels test).pinLaw :=
  Part.dropCompositionIf_pinLaw h test

theorem Part.composerOffline_pinLaw : p.composerOffline.pinLaw := by
  unfold Part.composerOffline
  split
  · refine Part.releasePanels_pinLaw ?_ _
    exact h
  · exact h
  · exact h

theorem Part.markWhere_pinLaw (test : PanelDraw → Bool) : (p.markWhere test).pinLaw := by
  apply Part.pinLaw_congr h <;> simp

theorem Part.composerProfile_pinLaw : p.composerProfile.pinLaw := by
  unfold Part.composerProfile
  split
  · exact h
  · next f rest _ =>
    have htaken : ({ p with cmp := { p.cmp with profiles := rest } } : Part).pinLaw := h
    dsimp only
    refine Part.markWhere_pinLaw ?_ _
    exact Part.releasePanels_pinLaw htaken fun l a => !(f.line l).panels.any (fun q => q.address == a)

theorem Part.stopComposition_pinLaw : p.stopComposition.pinLaw := by
  unfold Part.stopComposition
  split
  · exact h
  · apply Part.pinLaw_congr (Part.dropComposition_pinLaw h) <;> simp

/-- R118: the copy whose items are read is pinned by the composition. -/
theorem Part.readItems_pinLaw (hnone : p.cmp.comp = none) (bus : Bus) (c : Composition) (copy : Copy) (address : Nat) :
    (p.readItems bus c copy address).pinLaw := by
  have hpin : (p.readItems bus c copy address).cmp.comp.bind (·.pin) = some { copy := copy, address := address } := by
    unfold Part.readItems
    dsimp only
    split <;> simp
  obtain ⟨hed, -, -⟩ := p.readItems_frame bus c copy address
  have hcontent := ((Part.pinLaw_iff p).mp h .contentSet).pin copy
  refine Part.pinLaw_of_kind h .contentSet ?_ fun j hj => ⟨?_, ?_⟩
  · intro d
    rw [hed]
    simpa [Part.readers, Part.loader, Part.composes, hnone, hpin, Part.pin] using hcontent d
  · rw [hed]
    exact Edition.kind_setKind_of_ne _ _ hj
  · funext d
    cases j with
    | contentSet => exact absurd rfl hj
    | _ => simp [Part.readers, Part.loader, Part.composes]

theorem Part.beginComposition_pinLaw (bus : Bus) : (p.beginComposition bus).pinLaw := by
  unfold Part.beginComposition
  split
  · exact h
  · next l a i hnext =>
    have hnone : p.cmp.comp = none := by
      by_contra hsome
      simp [Part.nextComposition, hsome] at hnext
    dsimp only
    split
    · refine Part.readItems_pinLaw ?_ (by simpa using hnone) _ _ _ _
      apply Part.pinLaw_congr h <;> simp
    all_goals apply Part.pinLaw_congr h <;> simp [hnone, newComposition]

end

/-! ### Switches (R173 to R176) -/

section
variable {p : Part} (h : p.pinLaw) (bus : Bus)

theorem Part.makeOwed_pinLaw (w : OwedWrite) (h : p.pinLaw) : (Part.makeOwed bus p w).pinLaw := by
  apply Part.pinLaw_congr h <;> cases w <;> simp [Part.makeOwed]

/-- R173: a kind's request taken, and its switch started under its own pin. -/
theorem Part.takeRequest_pinLaw (head : List Byte) {x : Part × List Kind} (h : x.1.pinLaw) (k : Kind) :
    (Part.takeRequest head x k).1.pinLaw := by
  unfold Part.takeRequest
  dsimp only
  split
  · exact h
  · next hidle =>
    split
    · apply Part.pinLaw_congr (Part.pinLaw_changeKind h k (f := fun s => { s with result := .range })
        fun _ hk => hk.congr rfl rfl rfl) <;> simp
    · split
      · apply Part.pinLaw_congr (Part.pinLaw_changeKind h k (f := fun s => { s with result := .done })
          fun _ hk => hk.congr rfl rfl rfl) <;> simp
      · refine Part.pinLaw_changeKind h k fun _ hk => hk.startSwitch ?_ _ _ _
        simpa using (not_or.mp hidle).2

include h

theorem Part.makeAllOwed_pinLaw : (p.makeAllOwed bus).pinLaw :=
  foldl_law Part.pinLaw _ (fun _ w hq => Part.makeOwed_pinLaw bus w hq) _ _ h

theorem Part.takeRequests_pinLaw (head : List Byte) : (p.takeRequests bus head).pinLaw := by
  have hall : (Kind.all.foldl (Part.takeRequest head) (p, [])).1.pinLaw :=
    List.foldlRecOn (motive := fun x : Part × List Kind => x.1.pinLaw) Kind.all _ h
      fun _ hx k _ => Part.takeRequest_pinLaw head hx k
  apply Part.pinLaw_congr hall <;> simp [Part.takeRequests]

theorem Part.handPosition_pinLaw (head : List Byte) : (p.handPosition bus head).pinLaw := by
  unfold Part.handPosition
  split
  · exact h
  · split
    · apply Part.pinLaw_congr h <;> simp
    · exact h

theorem Part.readHead_pinLaw : (p.readHead bus).pinLaw := by
  unfold Part.readHead
  split
  · apply Part.pinLaw_congr h <;> simp
  · next head _ =>
    split
    · apply Part.pinLaw_congr h <;> simp
    · apply Part.pinLaw_congr (Part.handPosition_pinLaw (Part.takeRequests_pinLaw h bus head) bus head) <;> simp

theorem Part.boundaryOperation_pinLaw : (p.boundaryOperation bus).pinLaw := by
  unfold Part.boundaryOperation
  split
  · refine Part.readHead_pinLaw (Part.makeAllOwed_pinLaw ?_ _) bus
    exact h
  · exact h

/-- R175: a switch that passes ends with its pin dropped. -/
theorem Part.completeSwitch_pinLaw (k : Kind) : (p.completeSwitch k bus).pinLaw := by
  unfold Part.completeSwitch
  split
  · exact h
  · next w hw =>
    split
    · next v _ =>
      have hlive : ((p.hostWrites bus).changeKind k (fun s => s.goLive w v.header.edition)).pinLaw :=
        Part.pinLaw_changeKind (p := p.hostWrites bus) (f := fun s => s.goLive w v.header.edition) h k
          fun _ hk => hk.endSwitch hw rfl rfl rfl
      apply Part.pinLaw_congr hlive <;> simp [Part.passSwitch]
    · exact h

/-- R174: a switch that is refused ends with its pin dropped. -/
theorem Part.failSwitch_pinLaw (k : Kind) : (p.failSwitch k bus).pinLaw := by
  unfold Part.failSwitch
  split
  · exact h
  · next w hw =>
    split
    · exact h
    · next e _ =>
      have hreported : ((p.hostWrites bus).reportReject e).1.pinLaw := by
        cases e <;> apply Part.pinLaw_congr h <;> simp [Part.reportReject]
      have hswitch : (((p.hostWrites bus).reportReject e).1.ed.kind k).switch = some w := by
        cases e <;> simpa [Part.reportReject] using hw
      have hrefused : (((p.hostWrites bus).reportReject e).1.changeKind k
          (fun s => s.refuse w ((p.hostWrites bus).reportReject e).2)).pinLaw :=
        Part.pinLaw_changeKind hreported k fun _ hk => hk.endSwitch hswitch rfl rfl rfl
      apply Part.pinLaw_congr hrefused <;> simp [Part.refuseSwitch]

end

/-! ### RUN, RESET and the registers (R185, R187, R190) -/

/-- R46, R67, R104: no load is in flight once all are owed. -/
theorem oweLoad_reads (l : LoadState) (told : Nat) : (oweLoad l told).reads = fun _ => 0 := by
  unfold oweLoad
  (repeat' split) <;> rfl

/-- R46, R67, R104, R178: the loads in flight, or told and not begun, are owed, and their pins dropped. -/
theorem Part.stopLoads_eq (p : Part) : p.stopLoads = { p with
    ed := { p.ed with stops := p.ed.stops.dropLoad p.trk.load, reservations := p.ed.reservations.dropLoad p.res.load
                      notices := p.ed.notices.dropLoad p.ntc.load }
    trk := { p.trk with load := oweLoad p.trk.load p.trk.told, told := 0, boundaries := 0 }
    res := { p.res with load := oweLoad p.res.load p.res.told, told := 0, boundaries := 0 }
    ntc := { p.ntc with load := oweLoad p.ntc.load p.ntc.told, told := 0, boundaries := 0 } } := by
  simp only [Part.stopLoads, Part.dropLoadPin_eq]
  rfl

theorem Part.powerOn_pinLaw (p : Part) : p.powerOn.pinLaw := by
  obtain ⟨-, -, -, -, -, -, -, hreset⟩ := lawsHoldAtReset
  exact hreset

section
variable {p : Part} (h : p.pinLaw)
include h

/-- R187: every switch is abandoned with its pin. -/
theorem Part.abandonSwitches_pinLaw : ({ p with ed := p.ed.abandonSwitches } : Part).pinLaw := by
  rw [Part.pinLaw_iff] at h ⊢
  intro k
  cases k with
  | coachProfile => exact (h .coachProfile).abandon
  | stopList => exact (h .stopList).abandon
  | reservationTable => exact (h .reservationTable).abandon
  | noticeTable => exact (h .noticeTable).abandon
  | contentSet => exact (h .contentSet).abandon

/-- R46, R67, R104: every load in flight is abandoned with its pin. -/
theorem Part.stopLoads_pinLaw : p.stopLoads.pinLaw := by
  rw [Part.pinLaw_iff] at h ⊢
  have owed (l : LoadState) (told : Nat) (c : Copy) : (oweLoad l told).reads c = 0 := by rw [oweLoad_reads]
  rw [Part.stopLoads_eq]
  intro k
  cases k with
  | coachProfile => exact h .coachProfile
  | contentSet => exact h .contentSet
  | stopList =>
    intro c
    simpa [Part.readers, Part.loader, Part.composes, owed, Edition.kind]
      using KindState.Balanced.dropLoad (h .stopList) c
  | reservationTable =>
    intro c
    simpa [Part.readers, Part.loader, Part.composes, owed, Edition.kind]
      using KindState.Balanced.dropLoad (h .reservationTable) c
  | noticeTable =>
    intro c
    simpa [Part.readers, Part.loader, Part.composes, owed, Edition.kind]
      using KindState.Balanced.dropLoad (h .noticeTable) c

/-- R187: RUN becomes 0. -/
theorem Part.stopRun_pinLaw : p.stopRun.pinLaw := by
  have hcut : (Part.cutRun { p with
      regs := { p.regs with run := false }
      swp := p.swp.stop
      ed := p.ed.abandonSwitches
      rep := { p.rep.cutPage with boundaries := 0 } }).pinLaw := by
    apply Part.pinLaw_congr (Part.abandonSwitches_pinLaw h) <;> simp
  apply Part.pinLaw_congr (Part.stopComposition_pinLaw (Part.stopLoads_pinLaw hcut)) <;> simp [Part.stopRun]

theorem Part.writeRun_pinLaw (v : Bool) : (p.writeRun v).pinLaw := by
  unfold Part.writeRun
  split
  · exact h
  · split
    · apply Part.pinLaw_congr h <;> simp
    · exact Part.stopRun_pinLaw h

theorem Part.writeControl_pinLaw (v : Word) : (p.writeControl v).pinLaw := by
  unfold Part.writeControl
  split
  · exact p.powerOn_pinLaw
  · apply Part.pinLaw_congr (Part.writeRun_pinLaw h (v.getLsbD 0)) <;> simp

theorem Part.writeRegister_pinLaw (n : Nat) (v : Word) : (p.writeRegister n v).pinLaw := by
  unfold Part.writeRegister
  split
  · exact Part.writeControl_pinLaw h v
  all_goals apply Part.pinLaw_congr h <;> simp

/-- R193: a register write on the port keeps the law where the register's write does. -/
theorem Part.portWrite_pinLaw {n : Nat} (hn : n < 8) (v : Word) : (p.portWrite n v).pinLaw := by
  rw [Part.portWrite_eq p hn]
  exact Part.writeRegister_pinLaw h n v

theorem Part.ignoredWrite_pinLaw (n : Nat) (v : Word) : (effectOf (.ignoredRegisterWrite n v) p).pinLaw := by
  unfold effectOf
  dsimp only
  split
  · next hn => exact Part.portWrite_pinLaw h (ignoredRegisterWf_lt hn) v
  · exact h

end

/-- R178, command by command: those named take or drop a pin; the frames of the others leave what the law speaks of. -/
theorem effectOf_pinLaw (c : Instr) (p : Part) (h : p.pinLaw) : (effectOf c p).pinLaw := by
  cases c with
  | powerOnReset => exact p.powerOn_pinLaw
  | stopListLoadStart => exact Part.stopLoadTold_pinLaw h
  | stopListLoadComplete bus => exact Part.completeStopLoad_pinLaw h bus
  | trackerOwedLoad => exact Part.trackerBoundary_pinLaw h
  | reservationLoadStart => exact Part.seatLoadTold_pinLaw h
  | reservationLoadComplete bus => exact Part.completeSeatLoad_pinLaw h bus
  | reservationOwedLoad => exact Part.reservationBoundary_pinLaw h
  | noticeLoadStart => exact Part.noticeLoadTold_pinLaw h
  | noticeLoadComplete bus => exact Part.completeNoticeLoad_pinLaw h bus
  | noticeCountdown => exact Part.noticeBoundary_pinLaw h
  | composerProfileLoad => exact Part.composerProfile_pinLaw h
  | panelOffline => exact Part.composerOffline_pinLaw h
  | compositionBegin bus => exact Part.beginComposition_pinLaw h bus
  | elementBegin bus =>
    refine Part.pinLaw_congr h ?_ ?_ ?_ ?_ ?_ ?_ ?_ ?_ (p.beginElement_holdsPin bus) <;> simp [effectOf]
  | glyphDecodeEnd bus =>
    refine Part.pinLaw_congr h ?_ ?_ ?_ ?_ ?_ ?_ ?_ ?_ (p.endGlyph_holdsPin bus) <;> simp [effectOf]
  | compositionComplete => exact Part.completeComposition_pinLaw h
  | boundaryOperation bus => exact Part.boundaryOperation_pinLaw h bus
  | switchCompletion k bus => exact Part.completeSwitch_pinLaw h bus k
  | switchRefusal k bus => exact Part.failSwitch_pinLaw h bus k
  | runSet value | runClear value | engineReset value | freezeSet value | freezeClear value | windowBaseWrite value
  | attentionWrite value | attentionEnableWrite value => exact Part.portWrite_pinLaw h (by decide) _
  | ignoredRegisterWrite n value => exact Part.ignoredWrite_pinLaw h n value
  | _ => apply Part.pinLaw_congr h <;> simp [effectOf]

/-- Settles O9: every command's effect keeps the law, and so does the tick. -/
theorem stepKeepsPinLaw : Obligations.StepKeepsPinLaw :=
  step_keeps effectOf_pinLaw fun _ h => h

end Sys2Proof.Machine
end

section
/-! PROOF. The law of a stopped part (R187, O10): what is idle while RUN is 0, and the law command by command. -/

namespace Sys2Proof.Machine

/-- What the law says of a stopped part: nothing is in flight, and of a delivery run no more than a record handed on. -/
structure Part.AtRest (p : Part) : Prop where
  comp : p.cmp.comp = none
  loads : ∀ k c, (p.loader k).reads c = 0
  switches : ∀ k, (p.ed.kind k).switch = none
  boundary : p.ed.boundary = false
  writing : p.rep.writing = none
  boundaries : p.rep.boundaries = 0
  delivery : ∀ run, p.ed.run = some run → ∃ a, run.stage = .handed a

theorem Part.stoppedLaw_iff (p : Part) : p.stoppedLaw ↔ (p.regs.run = false → p.AtRest) := by
  constructor
  · intro h hrun
    obtain ⟨hcomp, hloads, hswitches, hboundary, hwriting, hboundaries, hdelivery⟩ := h hrun
    exact ⟨hcomp, hloads, hswitches, hboundary, hwriting, hboundaries, hdelivery⟩
  · intro h hrun
    obtain ⟨hcomp, hloads, hswitches, hboundary, hwriting, hboundaries, hdelivery⟩ := h hrun
    exact ⟨hcomp, hloads, hswitches, hboundary, hwriting, hboundaries, hdelivery⟩

section
variable {p q : Part}

/-- What a part at rest depends on. -/
theorem Part.AtRest.congr (h : p.AtRest) (hprofile : q.ed.profile = p.ed.profile) (hstops : q.ed.stops = p.ed.stops)
    (hseats : q.ed.reservations = p.ed.reservations) (hnotices : q.ed.notices = p.ed.notices)
    (hcontent : q.ed.content = p.ed.content) (htrk : q.trk.load = p.trk.load) (hres : q.res.load = p.res.load)
    (hntc : q.ntc.load = p.ntc.load) (hcomp : q.cmp.comp = p.cmp.comp) (hboundary : q.ed.boundary = p.ed.boundary)
    (hrun : q.ed.run = p.ed.run ∨ q.ed.run = none) (hwriting : q.rep.writing = p.rep.writing)
    (hboundaries : q.rep.boundaries = p.rep.boundaries) : q.AtRest where
  comp := hcomp.trans h.comp
  loads k c := by
    rw [← h.loads k c]
    cases k <;> simp only [Part.loader, htrk, hres, hntc]
  switches k := by
    rw [← h.switches k]
    cases k <;> simp only [Edition.kind, hprofile, hstops, hseats, hnotices, hcontent]
  boundary := hboundary.trans h.boundary
  writing := hwriting.trans h.writing
  boundaries := hboundaries.trans h.boundaries
  delivery := by
    rcases hrun with hkept | hended
    · rw [hkept]
      exact h.delivery
    · rw [hended]
      exact nofun

/-- A change that leaves RUN keeps the law where it keeps a stopped part at rest. -/
theorem Part.stoppedLaw_of_rest (h : p.stoppedLaw) (hrun : q.regs.run = p.regs.run)
    (hrest : p.AtRest → p.regs.run = false → q.AtRest) : q.stoppedLaw := by
  rw [Part.stoppedLaw_iff] at h ⊢
  intro hq
  rw [hrun] at hq
  exact hrest (h hq) hq

/-- A change that does not act on a stopped part at rest. -/
theorem Part.stoppedLaw_of_idle (h : p.stoppedLaw) (hrun : q.regs.run = p.regs.run)
    (hidle : p.AtRest → p.regs.run = false → q = p) : q.stoppedLaw :=
  Part.stoppedLaw_of_rest h hrun fun hrest hstopped => by rw [hidle hrest hstopped]; exact hrest

end

/-! ### What is idle -/

section
variable {p : Part} (h : p.AtRest) (hrun : p.regs.run = false)

theorem LoadState.not_loading {l : LoadState} (h : ∀ c, l.reads c = 0) (c : Copy) (a e : Nat) : l ≠ .loading c a e := by
  rintro rfl
  simpa using h c

include h

theorem Part.AtRest.completeStopLoad (bus : Bus) : p.completeStopLoad bus = p := by
  unfold Part.completeStopLoad
  split
  · next hl => exact absurd hl (LoadState.not_loading (h.loads .stopList) _ _ _)
  · rfl
  · rfl

theorem Part.AtRest.completeSeatLoad (bus : Bus) : p.completeSeatLoad bus = p := by
  unfold Part.completeSeatLoad
  split
  · next hl => exact absurd hl (LoadState.not_loading (h.loads .reservationTable) _ _ _)
  · rfl
  · rfl

theorem Part.AtRest.completeNoticeLoad (bus : Bus) : p.completeNoticeLoad bus = p := by
  unfold Part.completeNoticeLoad
  split
  · next hl => exact absurd hl (LoadState.not_loading (h.loads .noticeTable) _ _ _)
  · rfl
  · rfl

theorem Part.AtRest.beginElement (bus : Bus) : p.beginElement bus = p := by
  simp only [Part.beginElement, h.comp]

theorem Part.AtRest.endGlyph (bus : Bus) : p.endGlyph bus = p := by
  simp only [Part.endGlyph, h.comp]

theorem Part.AtRest.completeComposition : p.completeComposition = p := by
  simp only [Part.completeComposition, h.comp]

theorem Part.AtRest.completeSwitch (k : Kind) (bus : Bus) : p.completeSwitch k bus = p := by
  simp only [Part.completeSwitch, h.switches]

theorem Part.AtRest.failSwitch (k : Kind) (bus : Bus) : p.failSwitch k bus = p := by
  simp only [Part.failSwitch, h.switches]

theorem Part.AtRest.pageBoundary (bus : Bus) (reach : Nat) : p.pageBoundary bus reach = p := by
  rw [Part.pageBoundary, if_pos h.boundaries]

theorem Part.AtRest.endPage (bus : Bus) : p.endPage bus = p := by
  simp only [Part.endPage, h.writing]

omit h
include hrun

theorem Part.beginComposition_stopped (bus : Bus) : p.beginComposition bus = p := by
  simp [Part.beginComposition, Part.nextComposition, hrun]

omit hrun in
theorem Part.boundaryOperation_regs (p : Part) (bus : Bus) : (p.boundaryOperation bus).regs = p.regs := by
  unfold Part.boundaryOperation
  split
  · let landed := Part.hostWrites { p with ed := { p.ed with boundary := false } } bus
    obtain ⟨-, howed⟩ := landed.makeAllOwed_stores { bus with late := [] } rfl
    obtain ⟨-, -, -, hread, -⟩ := (landed.makeAllOwed { bus with late := [] }).readHead_keeps bus
    exact hread.trans howed
  · rfl

theorem Part.boundaryOperation_stopped (bus : Bus) : p.boundaryOperation bus = p := by
  simp [Part.boundaryOperation, Part.operationDue, hrun]

theorem Part.runDelivery_stopped (bus : Bus) : p.runDelivery bus = p := by
  simp [Part.runDelivery, hrun]

theorem Part.ownBoundary_stopped : p.ownBoundary = p := by
  simp [Part.ownBoundary, Part.boundaryDue, hrun]

theorem Part.loseLeader_stopped : p.loseLeader = p := by
  simp [Part.loseLeader, hrun]

theorem Part.tsyncFall_stopped : p.tsyncFall = p.seeTsync false :=
  Part.tsyncFall_ignored (by simp [Part.watching, hrun])

end

/-! ### What a stopped part still does -/

/-- No pin is dropped where no load is in flight. -/
theorem Part.dropLoadPin_idle {l : LoadState} (hl : ∀ c, l.reads c = 0) (p : Part) (k : Kind) : p.dropLoadPin k l = p := by
  cases l with
  | loading c a e => exact absurd rfl (LoadState.not_loading hl c a e)
  | idle | owed => rfl

section
variable {p : Part} (h : p.AtRest)
include h

/-- Other loaders' states, none in flight, leave the part at rest. -/
theorem Part.AtRest.withLoads {q : Part} (hed : q.ed = p.ed) (hrep : q.rep = p.rep) (hcomp : q.cmp.comp = p.cmp.comp)
    (hloads : ∀ k c, (q.loader k).reads c = 0) : q.AtRest :=
  ⟨hcomp.trans h.comp, hloads, hed ▸ h.switches, hed ▸ h.boundary, hrep ▸ h.writing, hrep ▸ h.boundaries,
    hed ▸ h.delivery⟩

/-- R187, R22: a load told while RUN is 0 is owed. -/
theorem Part.AtRest.startStopLoad (hrun : p.regs.run = false) : p.startStopLoad.AtRest := by
  have hdrop : p.dropLoadPin .stopList p.trk.load = p := Part.dropLoadPin_idle (h.loads .stopList) p _
  rw [Part.startStopLoad, Part.beginLoad_stopped p _ _ hrun, hdrop]
  refine h.withLoads rfl rfl rfl fun k c => ?_
  cases k with
  | stopList => rfl
  | reservationTable => exact h.loads .reservationTable c
  | noticeTable => exact h.loads .noticeTable c
  | coachProfile | contentSet => rfl

/-- R187, R65: likewise at the engine. -/
theorem Part.AtRest.startSeatLoad (hrun : p.regs.run = false) : p.startSeatLoad.AtRest := by
  have hdrop : p.dropLoadPin .reservationTable p.res.load = p := Part.dropLoadPin_idle (h.loads .reservationTable) p _
  rw [Part.startSeatLoad, Part.beginLoad_stopped p _ _ hrun, hdrop]
  refine h.withLoads rfl rfl rfl fun k c => ?_
  cases k with
  | reservationTable => rfl
  | stopList => exact h.loads .stopList c
  | noticeTable => exact h.loads .noticeTable c
  | coachProfile | contentSet => rfl

/-- R187, R87: likewise at the scheduler. -/
theorem Part.AtRest.startNoticeLoad (hrun : p.regs.run = false) : p.startNoticeLoad.AtRest := by
  have hdrop : p.dropLoadPin .noticeTable p.ntc.load = p := Part.dropLoadPin_idle (h.loads .noticeTable) p _
  rw [Part.startNoticeLoad, Part.beginLoad_stopped p _ _ hrun, hdrop]
  refine h.withLoads rfl rfl rfl fun k c => ?_
  cases k with
  | noticeTable => rfl
  | stopList => exact h.loads .stopList c
  | reservationTable => exact h.loads .reservationTable c
  | coachProfile | contentSet => rfl

theorem Part.AtRest.stopLoadTold (hrun : p.regs.run = false) : p.stopLoadTold.AtRest := by
  unfold Part.stopLoadTold
  split
  · exact h
  · refine Part.AtRest.startStopLoad ?_ hrun
    exact h.withLoads rfl rfl rfl h.loads

theorem Part.AtRest.seatLoadTold (hrun : p.regs.run = false) : p.seatLoadTold.AtRest := by
  unfold Part.seatLoadTold
  split
  · exact h
  · refine Part.AtRest.startSeatLoad ?_ hrun
    exact h.withLoads rfl rfl rfl h.loads

theorem Part.AtRest.noticeLoadTold (hrun : p.regs.run = false) : p.noticeLoadTold.AtRest := by
  unfold Part.noticeLoadTold
  split
  · exact h
  · refine Part.AtRest.startNoticeLoad ?_ hrun
    exact h.withLoads rfl rfl rfl h.loads

/-- R46: a boundary taken while RUN is 0 starts no load. -/
theorem Part.AtRest.trackerBoundary (hrun : p.regs.run = false) : p.trackerBoundary.AtRest := by
  unfold Part.trackerBoundary
  split
  · exact h
  · simp only [hrun, Bool.false_eq_true, and_false, if_false]
    exact h.withLoads rfl rfl rfl h.loads

/-- R67: likewise at the engine. -/
theorem Part.AtRest.reservationBoundary (hrun : p.regs.run = false) : p.reservationBoundary.AtRest := by
  unfold Part.reservationBoundary
  split
  · exact h
  · simp only [hrun, Bool.false_eq_true, and_false, if_false]
    exact h.withLoads rfl rfl rfl h.loads

/-- R97, R104: likewise at the scheduler, which counts the boundary. -/
theorem Part.AtRest.noticeBoundary (hrun : p.regs.run = false) : p.noticeBoundary.AtRest := by
  by_cases hb : p.ntc.boundaries = 0
  · rw [Part.noticeBoundary, if_pos hb]
    exact h
  · rw [Part.noticeBoundary_eq hb, if_neg (by simp [hrun]), Part.boundaryCounted, Part.countDown_eq]
    exact h.withLoads rfl rfl rfl h.loads

theorem Part.AtRest.releasePanels (test : Line → Nat → Bool) : (p.releasePanels test).AtRest := by
  have hstays : p.dropCompositionIf test = p := Part.dropCompositionIf_stays fun c hc => by rw [h.comp] at hc; cases hc
  unfold Part.releasePanels
  rw [hstays]
  exact h.withLoads rfl rfl rfl h.loads

theorem Part.AtRest.composerOffline : p.composerOffline.AtRest := by
  unfold Part.composerOffline
  split
  · refine Part.AtRest.releasePanels ?_ _
    exact h.withLoads rfl rfl rfl h.loads
  · exact h
  · exact h

theorem Part.AtRest.composerProfile : p.composerProfile.AtRest := by
  unfold Part.composerProfile
  split
  · exact h
  · next f rest _ =>
    have htaken : ({ p with cmp := { p.cmp with profiles := rest } } : Part).AtRest :=
      h.withLoads rfl rfl rfl h.loads
    apply (htaken.releasePanels fun l a => !(f.line l).panels.any (fun q => q.address == a)).congr <;> simp

theorem Part.AtRest.tsyncFall (hrun : p.regs.run = false) : p.tsyncFall.AtRest := by
  rw [Part.tsyncFall_stopped hrun]
  exact h.withLoads rfl rfl rfl h.loads

theorem Part.AtRest.sweepProfile (hrun : p.regs.run = false) : p.sweepProfile.AtRest := by
  unfold Part.sweepProfile
  split
  · exact h
  · next f rest _ =>
    let taken : Part := { p with swp := { (p.swp.configure f p.regs.run) with profiles := rest } }
    have hown : taken.ownBoundary = taken := Part.ownBoundary_stopped hrun
    have hlose : taken.loseLeader = taken := Part.loseLeader_stopped hrun
    show taken.ownBoundary.loseLeader.AtRest
    rw [hown, hlose]
    exact h.withLoads rfl rfl rfl h.loads

omit h in
/-- R181, R187: a record answered while RUN is 0 ends its run. -/
theorem Part.amendmentAnswered_stopped (hrun : p.regs.run = false) (run : DeliveryRun) (answer : Option AmendResult) :
    (p.amendmentAnswered run answer).ed.run = none := by
  unfold Part.amendmentAnswered
  cases answer <;> simp [hrun]

omit h in
/-- R181, R187: the engine's answer leaves the run, or ends it. -/
theorem Part.takeAmendment_delivery {judge : Part → Amendment → Part × AmendResult} (hj : JudgeSpares judge)
    (hrun : p.regs.run = false) (isMine : Nat → Bool) :
    (p.takeAmendment isMine judge).ed.run = p.ed.run ∨ (p.takeAmendment isMine judge).ed.run = none := by
  unfold Part.takeAmendment
  split
  · exact .inl rfl
  · split
    · next a _ =>
      split
      · have hregs : (p.answerAmendment judge a).1.regs = p.regs := by
          obtain ⟨-, -, -, -, -, hregs, -, -⟩ := hj p a
          unfold Part.answerAmendment
          (repeat' split) <;> simp [hregs]
        exact .inr (Part.amendmentAnswered_stopped (by simp [hregs, hrun]) _ _)
      · exact .inl rfl
    · exact .inl rfl
    · exact .inl rfl

theorem Part.AtRest.takeAmendment {judge : Part → Amendment → Part × AmendResult} (hkeeps : JudgeKeeps judge)
    (hspares : JudgeSpares judge) (hrun : p.regs.run = false) (isMine : Nat → Bool) :
    (p.takeAmendment isMine judge).AtRest := by
  have hdelivery := p.takeAmendment_delivery hspares hrun isMine
  apply h.congr <;> simp [hkeeps, hspares, hdelivery]

end

/-! ### RUN becomes 0 (R187) -/

/-- R122, R178: a kind's state once the composition in flight has dropped its pin. -/
def Part.unpinnedContent (p : Part) (x : KindState) : KindState :=
  match p.cmp.comp.bind (·.pin) with
  | none => x
  | some pin => x.unpin pin.copy

/-- R187: the part as RUN becomes 0, before the delivery run, the loads, the composition and the lines stop. -/
def Part.halted (p : Part) : Part := { p with
  regs := { p.regs with run := false }
  swp := p.swp.stop
  ed := p.ed.abandonSwitches
  rep := { p.rep.cutPage with boundaries := 0 } }

theorem Part.stopRun_eq (p : Part) : p.stopRun = p.halted.cutRun.stopLoads.stopComposition.dropBoundaries := rfl

/-- R187, R188: the delivery run cut off changes the run and the owed writes alone. -/
theorem Part.cutRun_eq (p : Part) :
    p.cutRun = { p with ed := { p.ed with run := p.cutRun.ed.run, owed := p.cutRun.ed.owed } } := by
  unfold Part.cutRun
  (repeat' split) <;> rfl

/-- R122: of the edition unit the composition that stops changes the content set's pins. -/
theorem Part.stopComposition_ed (p : Part) :
    p.stopComposition.ed = { p.ed with content := p.unpinnedContent p.ed.content } := by
  cases hc : p.cmp.comp with
  | none => simp [Part.stopComposition, Part.unpinnedContent, hc]
  | some c =>
    simp only [Part.stopComposition, hc, Part.markPanel_keeps, Part.dropComposition_eq hc]
    cases hpin : c.pin <;> simp [Edition.unpinned, Part.unpinnedContent, hc, hpin]

@[simp] theorem Part.stopComposition_comp (p : Part) : p.stopComposition.cmp.comp = none := by
  cases hc : p.cmp.comp with
  | none => simp [Part.stopComposition, hc]
  | some c => simp [Part.stopComposition, hc, Part.dropComposition_eq hc]

/-- R187: the edition unit of a part that stops. -/
theorem Part.stopRun_ed (p : Part) : p.stopRun.ed = { p.ed with
    profile := p.ed.profile.abandon
    stops := p.ed.stops.abandon.dropLoad p.trk.load
    reservations := p.ed.reservations.abandon.dropLoad p.res.load
    notices := p.ed.notices.abandon.dropLoad p.ntc.load
    content := p.unpinnedContent p.ed.content.abandon
    boundary := false, run := p.halted.cutRun.ed.run, owed := p.halted.cutRun.ed.owed } := by
  have hed : p.stopRun.ed = p.halted.cutRun.stopLoads.stopComposition.ed := rfl
  rw [hed, Part.stopComposition_ed, Part.stopLoads_eq, p.halted.cutRun_eq]
  rfl

/-- R187, R188: a run cut off keeps no more than a record handed on. -/
theorem Part.cutRun_delivery (p : Part) (run : DeliveryRun) (h : p.cutRun.ed.run = some run) :
    ∃ a, run.stage = .handed a := by
  unfold Part.cutRun at h
  split at h
  · next hnone => exact absurd (hnone.symm.trans h) nofun
  · split at h
    · cases h
    · next a hstage =>
      obtain rfl : _ = run := by simpa using h
      exact ⟨a, hstage⟩
    · simp at h

theorem KindState.switch_abandon (s : KindState) : s.abandon.switch = none := by
  unfold KindState.abandon
  split
  · next hnone => exact hnone
  · rfl

theorem KindState.switch_dropLoad (s : KindState) (l : LoadState) : (s.dropLoad l).switch = s.switch := by
  cases l with
  | loading c a e => exact s.switch_unpin c
  | idle | owed => rfl

theorem Part.switch_unpinnedContent (p : Part) (s : KindState) : (p.unpinnedContent s).switch = s.switch := by
  unfold Part.unpinnedContent
  split
  · rfl
  · exact s.switch_unpin _

/-- R187: the loaders of a part that stops. -/
theorem Part.stopRun_loads (p : Part) :
    p.stopRun.trk = { p.trk with load := oweLoad p.trk.load p.trk.told, told := 0, boundaries := 0 } ∧
    p.stopRun.res = { p.res with load := oweLoad p.res.load p.res.told, told := 0, boundaries := 0 } ∧
    p.stopRun.ntc = { p.ntc with load := oweLoad p.ntc.load p.ntc.told, told := 0, boundaries := 0 } := by
  simp only [Part.stopRun_eq, Part.dropBoundaries_keeps, Part.stopComposition_keeps]
  rw [Part.stopLoads_eq, p.halted.cutRun_eq]
  exact ⟨rfl, rfl, rfl⟩

/-- R187: the report of a part that stops. -/
theorem Part.stopRun_rep (p : Part) :
    p.stopRun.rep = { p.rep with writing := none, deferred := 0, boundaries := 0 } := by
  simp only [Part.stopRun_eq, Part.dropBoundaries_keeps, Part.stopComposition_keeps, Part.stopLoads_keeps]
  rw [p.halted.cutRun_eq]
  rfl

/-- R187: a part that stops is at rest. -/
theorem Part.stopRun_atRest (p : Part) : p.stopRun.AtRest := by
  obtain ⟨htrk, hres, hntc⟩ := p.stopRun_loads
  have hed := p.stopRun_ed
  have hrep := p.stopRun_rep
  exact
    { comp := by simp [Part.stopRun_eq]
      loads := fun k c => by cases k <;> simp [Part.loader, htrk, hres, hntc, oweLoad_reads]
      switches := fun k => by
        rw [hed]
        cases k <;> simp [Edition.kind, KindState.switch_abandon, KindState.switch_dropLoad,
          Part.switch_unpinnedContent]
      boundary := by rw [hed]
      writing := by rw [hrep]
      boundaries := by rw [hrep]
      delivery := fun run h => by
        rw [hed] at h
        exact p.halted.cutRun_delivery run h }

/-! ### The registers, and O10 -/

theorem Part.powerOn_atRest (p : Part) : p.powerOn.AtRest := by
  obtain ⟨-, -, -, -, -, -, hreset, -⟩ := lawsHoldAtReset
  obtain ⟨hcomp, hloads, hswitches, hboundary, hwriting, hboundaries, hdelivery⟩ := hreset rfl
  exact ⟨hcomp, hloads, hswitches, hboundary, hwriting, hboundaries, hdelivery⟩

section
variable {p : Part} (h : p.stoppedLaw)
include h

theorem Part.writeRun_stoppedLaw (v : Bool) : (p.writeRun v).stoppedLaw := by
  unfold Part.writeRun
  split
  · exact h
  · split
    · intro hstopped
      simp [Part.startRunning] at hstopped
    · exact (Part.stoppedLaw_iff _).mpr fun _ => p.stopRun_atRest

/-- R184: FREEZE leaves a stopped part at rest. -/
theorem Part.writeFreeze_stoppedLaw (v : Bool) : (p.writeFreeze v).stoppedLaw := by
  unfold Part.writeFreeze
  split
  · exact h
  · split
    · refine Part.stoppedLaw_of_rest h rfl fun hrest _ => ?_
      exact ⟨hrest.comp, hrest.loads, hrest.switches, hrest.boundary, rfl, hrest.boundaries, hrest.delivery⟩
    · exact h

theorem Part.writeRegister_stoppedLaw (n : Nat) (v : Word) : (p.writeRegister n v).stoppedLaw := by
  unfold Part.writeRegister
  split
  · unfold Part.writeControl
    split
    · exact (Part.stoppedLaw_iff _).mpr fun _ => p.powerOn_atRest.withLoads rfl rfl rfl p.powerOn_atRest.loads
    · exact Part.writeFreeze_stoppedLaw (Part.writeRun_stoppedLaw h _) _
  · unfold Part.writeWindowBase
    split <;> exact h
  all_goals exact h

/-- R193: a register write on the port keeps the law where the register's write does. -/
theorem Part.portWrite_stoppedLaw {n : Nat} (hn : n < 8) (v : Word) : (p.portWrite n v).stoppedLaw := by
  rw [Part.portWrite_eq p hn]
  exact Part.writeRegister_stoppedLaw h n v

theorem Part.ignoredWrite_stoppedLaw (n : Nat) (v : Word) : (effectOf (.ignoredRegisterWrite n v) p).stoppedLaw := by
  unfold effectOf
  dsimp only
  split
  · next hn => exact Part.portWrite_stoppedLaw h (ignoredRegisterWf_lt hn) v
  · exact h

end

/-- R187, command by command: the registers' writes change RUN; the others leave a stopped part at rest. -/
theorem effectOf_stoppedLaw (c : Instr) (p : Part) (h : p.stoppedLaw) : (effectOf c p).stoppedLaw := by
  cases c with
  | powerOnReset => exact (Part.stoppedLaw_iff _).mpr fun _ => p.powerOn_atRest
  | runSet value | runClear value | engineReset value | freezeSet value | freezeClear value | windowBaseWrite value
  | attentionWrite value | attentionEnableWrite value => exact Part.portWrite_stoppedLaw h (by decide) _
  | ignoredRegisterWrite n value => exact Part.ignoredWrite_stoppedLaw h n value
  | stopListLoadComplete bus =>
    exact Part.stoppedLaw_of_idle h (by simp [effectOf]) fun hrest _ => hrest.completeStopLoad bus
  | reservationLoadComplete bus =>
    exact Part.stoppedLaw_of_idle h (by simp [effectOf]) fun hrest _ => hrest.completeSeatLoad bus
  | noticeLoadComplete bus =>
    exact Part.stoppedLaw_of_idle h (by simp [effectOf]) fun hrest _ => hrest.completeNoticeLoad bus
  | compositionBegin bus =>
    exact Part.stoppedLaw_of_idle h (by simp [effectOf]) fun _ hrun => Part.beginComposition_stopped hrun bus
  | elementBegin bus => exact Part.stoppedLaw_of_idle h (by simp [effectOf]) fun hrest _ => hrest.beginElement bus
  | glyphDecodeEnd bus => exact Part.stoppedLaw_of_idle h (by simp [effectOf]) fun hrest _ => hrest.endGlyph bus
  | compositionComplete =>
    exact Part.stoppedLaw_of_idle h (by simp [effectOf]) fun hrest _ => hrest.completeComposition
  | switchCompletion k bus =>
    exact Part.stoppedLaw_of_idle h (by simp [effectOf]) fun hrest _ => hrest.completeSwitch k bus
  | switchRefusal k bus => exact Part.stoppedLaw_of_idle h (by simp [effectOf]) fun hrest _ => hrest.failSwitch k bus
  | statusPageWrite bus reach =>
    exact Part.stoppedLaw_of_idle h (by simp [effectOf]) fun hrest _ => hrest.pageBoundary bus reach
  | statusPageWriteDone bus => exact Part.stoppedLaw_of_idle h (by simp [effectOf]) fun hrest _ => hrest.endPage bus
  | boundaryOperation bus =>
    exact Part.stoppedLaw_of_idle h (by rw [effectOf, p.boundaryOperation_regs bus]) fun _ hrun =>
      Part.boundaryOperation_stopped hrun bus
  | amendmentSlotRead bus =>
    exact Part.stoppedLaw_of_idle h (by simp [effectOf]) fun _ hrun => Part.runDelivery_stopped hrun bus
  | sweepBoundary => exact Part.stoppedLaw_of_idle h (by simp [effectOf]) fun _ hrun => Part.ownBoundary_stopped hrun
  | syncSilenceExpiry =>
    exact Part.stoppedLaw_of_idle h (by simp [effectOf]) fun _ hrun => Part.loseLeader_stopped hrun
  | tsyncTrailingEdge => exact Part.stoppedLaw_of_rest h (by simp [effectOf]) Part.AtRest.tsyncFall
  | sweepProfileLoad => exact Part.stoppedLaw_of_rest h (by simp [effectOf]) Part.AtRest.sweepProfile
  | stopListLoadStart => exact Part.stoppedLaw_of_rest h (by simp [effectOf]) Part.AtRest.stopLoadTold
  | trackerOwedLoad => exact Part.stoppedLaw_of_rest h (by simp [effectOf]) Part.AtRest.trackerBoundary
  | reservationLoadStart => exact Part.stoppedLaw_of_rest h (by simp [effectOf]) Part.AtRest.seatLoadTold
  | reservationOwedLoad => exact Part.stoppedLaw_of_rest h (by simp [effectOf]) Part.AtRest.reservationBoundary
  | noticeLoadStart => exact Part.stoppedLaw_of_rest h (by simp [effectOf]) Part.AtRest.noticeLoadTold
  | noticeCountdown => exact Part.stoppedLaw_of_rest h (by simp [effectOf]) Part.AtRest.noticeBoundary
  | composerProfileLoad =>
    exact Part.stoppedLaw_of_rest h (by simp [effectOf]) fun hrest _ => hrest.composerProfile
  | panelOffline => exact Part.stoppedLaw_of_rest h (by simp [effectOf]) fun hrest _ => hrest.composerOffline
  | add =>
    exact Part.stoppedLaw_of_rest h (by simp [effectOf]) fun hrest hrun =>
      hrest.takeAmendment addSegment_keeps addSegment_spares hrun (· == 1)
  | cancel =>
    exact Part.stoppedLaw_of_rest h (by simp [effectOf]) fun hrest hrun =>
      hrest.takeAmendment cancelSegment_keeps cancelSegment_spares hrun (· == 2)
  | clear =>
    exact Part.stoppedLaw_of_rest h (by simp [effectOf]) fun hrest hrun =>
      hrest.takeAmendment judgeClear_keeps judgeClear_spares hrun (· == 3)
  | amendInvalidAction =>
    exact Part.stoppedLaw_of_rest h (by simp [effectOf]) fun hrest hrun =>
      hrest.takeAmendment judgeInvalid_keeps judgeInvalid_spares hrun (fun n => n != 1 && n != 2 && n != 3)
  | _ =>
    refine Part.stoppedLaw_of_rest h (by simp [effectOf]) fun hrest _ => ?_
    apply hrest.congr <;> simp [effectOf]

/-- Settles O10: every command's effect keeps the law, and so does the tick. -/
theorem stepKeepsStoppedLaw : Obligations.StepKeepsStoppedLaw :=
  step_keeps effectOf_stoppedLaw fun _ h => h

end Sys2Proof.Machine
end

section
/-! PROOF. Head-block writes (R171, R181, R183): byte by byte up to the first that the bus refuses, and what a full write
shows; O54. -/

namespace Sys2Proof.Machine

/-! ### A head-block write that the bus refuses a byte of -/

section
variable (p : Part) (bus : Bus)

/-- The memory once bytes of the window are put, each at its bus address. -/
def Part.putInto (m : Memory) (xs : List (Nat × Byte)) : Memory := Memory.writeAll m (busCells p.regs.windowBase xs)

/-- The bus refuses this byte. -/
def Part.refuses (x : Nat × Byte) : Prop := busAddress p.regs.windowBase x.1 ∈ bus.writeErrors

section
variable {p bus}

theorem Part.writeFields_cut {fields : List FieldWrite} {before after : List (Nat × Byte)} {x : Nat × Byte}
    (hbytes : fieldBytes fields = before ++ x :: after) (hbefore : ∀ y ∈ before, ¬ p.refuses bus y)
    (hx : p.refuses bus x) (m : Memory) :
    writeFields p.regs.windowBase bus m fields = (p.putInto m before, some x.1) := by
  rw [writeFields_eq_putBytes, hbytes]
  exact putBytes_cut _ _ _ _ _ hbefore hx m

theorem Part.writeFields_done {fields : List FieldWrite} (h : ∀ y ∈ fieldBytes fields, ¬ p.refuses bus y) (m : Memory) :
    writeFields p.regs.windowBase bus m fields = (p.putInto m (fieldBytes fields), none) := by
  rw [writeFields_eq_putBytes]
  exact putBytes_done _ _ _ h m

/-- R171: the first byte refused of the fields ends the write; the counter counts it or not (log 16). -/
theorem Part.headWrite_cut {fields : List FieldWrite} {before after : List (Nat × Byte)} {x : Nat × Byte}
    (hbytes : fieldBytes fields = before ++ x :: after) (hbefore : ∀ y ∈ before, ¬ p.refuses bus y)
    (hx : p.refuses bus x) : ∃ n, (n = p.ed.seq ∨ n = p.ed.seq + 1#32) ∧ p.headWrite bus fields
      = Part.memoryError { p with mem := p.putInto p.mem before, ed := { p.ed with seq := n } } .edition x.1 .bus := by
  refine ⟨if Config.failedWriteCounts then p.ed.seq + 1#32 else p.ed.seq, ?_, ?_⟩
  · split
    · exact .inr rfl
    · exact .inl rfl
  · simp only [Part.headWrite, Part.writeFields_cut hbytes hbefore hx]

section
variable {fields : List FieldWrite} (h : ∀ y ∈ fieldBytes fields, ¬ p.refuses bus y)
include h

/-- R171: the fields are written, and the first byte refused of the sequence word ends the write. -/
theorem Part.headWrite_wordCut {before after : List (Nat × Byte)} {x : Nat × Byte}
    (hbytes : fieldBytes [sequenceField (p.ed.seq + 1#32)] = before ++ x :: after)
    (hbefore : ∀ y ∈ before, ¬ p.refuses bus y) (hx : p.refuses bus x) : p.headWrite bus fields
      = Part.memoryError { p with
          mem := p.putInto (p.putInto p.mem (fieldBytes fields)) before
          ed := { p.ed with seq := p.ed.seq + 1#32 } } .edition x.1 .bus := by
  simp only [Part.headWrite, Part.writeFields_done h, Part.writeFields_cut hbytes hbefore hx]

/-- R171: the fields and the sequence word are written. -/
theorem Part.headWrite_whole (hword : ∀ y ∈ fieldBytes [sequenceField (p.ed.seq + 1#32)], ¬ p.refuses bus y) :
    p.headWrite bus fields = { p with
      mem := p.putInto (p.putInto p.mem (fieldBytes fields)) (fieldBytes [sequenceField (p.ed.seq + 1#32)])
      ed := { p.ed with seq := p.ed.seq + 1#32 } } := by
  simp only [Part.headWrite, Part.writeFields_done h, Part.writeFields_done hword]

end
end
end

/-! ### The fields of a full write -/

/-- R178: BUSY is shown of a copy that is live or pinned. -/
theorem bitOf_busy (s : KindState) (c : Copy) :
    bitOf (s.busy c) = if s.live = some c ∨ 0 < s.pins c then 1 else 0 := by
  simp [bitOf, KindState.busy]

/-- A field of a kind's state stands in the full write. -/
theorem mem_fullFields (e : Edition) (back : List Kind) (k : Kind) {f : FieldWrite} (hf : f ∈ kindFields k (e.kind k)) :
    f ∈ fullFields e back := by
  refine List.mem_append_left _ (List.mem_flatMap.mpr ⟨k, ?_, List.mem_append_right _ hf⟩)
  cases k <;> decide

/-- So does a request that is written back. -/
theorem requestField_mem (e : Edition) {back : List Kind} {k : Kind} (hk : k ∈ back) :
    requestField k ∈ fullFields e back := by
  refine List.mem_append_left _ (List.mem_flatMap.mpr ⟨k, ?_, List.mem_append_left _ ?_⟩)
  · cases k <;> decide
  · rw [if_pos (List.contains_iff_mem.mpr hk)]
    exact List.mem_singleton.mpr rfl

/-- The offsets of the bytes of fields, whatever their values. -/
theorem fieldBytes_offsets (fields : List FieldWrite) :
    (fieldBytes fields).map (·.1) = fields.flatMap (fun f => (List.range f.size).map (f.offset + ·)) := by
  unfold fieldBytes
  rw [List.map_flatMap]
  simp only [List.map_map, Function.comp_def]

/-- The offsets of a head-block write of every field, each request written back. -/
def headOffsets : List Nat :=
  Kind.all.flatMap (fun k => [8, 9, 10, 11, 12, 16, 17, 18, 19].map (slotEntry k + ·)) ++ [0x8C, 0x8E, 4, 5, 6, 7]

/-- R171: a full write writes no byte twice. -/
theorem fullFields_offsets (e : Edition) (back : List Kind) (seq : Word) :
    List.Sublist ((fieldBytes (fullFields e back ++ [sequenceField seq])).map (·.1)) headOffsets := by
  rw [fieldBytes_offsets, fullFields, List.append_assoc, List.flatMap_append, List.flatMap_assoc]
  refine List.Sublist.append (List.Sublist.flatMap_right _ fun k _ => ?_) (List.Sublist.refl _)
  by_cases hk : back.contains k = true
  · rw [if_pos hk]
    exact List.Sublist.refl _
  · rw [if_neg hk]
    exact List.sublist_cons_self _ _

section
variable {p : Part} {bus : Bus} (hbus : bus.writeErrors = []) (hp : p.memoryCanonical) (back : List Kind)
include hbus hp

/-- R171: every byte of a full write with no bus error is read back. -/
theorem Part.fullWrite_read {f : FieldWrite} (hf : f ∈ fullFields p.ed back ++ [sequenceField (p.ed.seq + 1#32)])
    {i : Nat} (hi : i < f.size) :
    Memory.read (p.fullWrite bus back).mem (busAddress p.regs.windowBase (f.offset + i))
      = BitVec.ofNat 8 (f.value / 256 ^ i) := by
  have hoffsets := fullFields_offsets p.ed back (p.ed.seq + 1#32)
  have hnodup : headOffsets.Nodup := by decide
  have hsmall : ∀ n ∈ headOffsets, n < 4294967296 := by decide
  rw [Part.fullWrite, Part.headWrite_done p hbus]
  refine Memory.read_writeAll_mem hp (busCells_nodup _ (hnodup.sublist hoffsets) fun x hx => ?_)
    (List.mem_map_of_mem (f := fun x : Nat × Byte => (busAddress p.regs.windowBase x.1, x.2)) (mem_fieldBytes hf hi))
  exact hsmall _ (hoffsets.subset (List.mem_map_of_mem hx))

/-- R171: likewise a field of one byte. -/
theorem Part.fullWrite_readByte {offset value : Nat}
    (hf : { offset := offset, size := 1, value := value } ∈ fullFields p.ed back) :
    Memory.read (p.fullWrite bus back).mem (busAddress p.regs.windowBase offset) = BitVec.ofNat 8 value := by
  have hread := Part.fullWrite_read hbus hp back (List.mem_append_left _ hf) (i := 0) Nat.one_pos
  simpa using hread

end

/-! ### Fields by name -/

/-- 11.2: where the kinds' slot entries stand. -/
theorem slotEntry_eq (k : Kind) : slotEntry k = match k with
    | .coachProfile => 0x10
    | .stopList => 0x28
    | .reservationTable => 0x40
    | .noticeTable => 0x58
    | .contentSet => 0x70 := by
  cases k <;> rfl

/-- R171: the fields of a full write, kind by kind. -/
theorem fullFields_eq (e : Edition) (back : List Kind) :
    let shown (k : Kind) : List FieldWrite :=
      (if k ∈ back then [requestField k] else []) ++ kindFields k (e.kind k)
    fullFields e back = shown .coachProfile ++ shown .stopList ++ shown .reservationTable ++ shown .noticeTable
      ++ shown .contentSet ++ [{ offset := 0x8C, size := 1, value := 64 }, takeField e] := by
  simp [fullFields, Kind.all]

/-- R171: an address that no field of a full write has. -/
theorem fullFields_elsewhere {e : Edition} {back : List Kind} {base : Word} {a : Nat}
    (hkinds : ∀ k : Kind, (k ∈ back → a ≠ busAddress base (slotEntry k + 8)) ∧
      ∀ i, i ∈ [9, 10, 11, 12, 16, 17, 18, 19] → a ≠ busAddress base (slotEntry k + i))
    (hcapacity : a ≠ busAddress base 0x8C) (htake : a ≠ busAddress base 0x8E) :
    ∀ f ∈ fullFields e back, ∀ i, i < f.size → a ≠ busAddress base (f.offset + i) := by
  intro f hf i hi
  simp only [fullFields, List.mem_append, List.mem_flatMap] at hf
  rcases hf with ⟨k, -, hk | hk⟩ | hf
  · obtain ⟨hback, -⟩ := hkinds k
    split at hk
    · next hcontains =>
      rw [List.mem_singleton.mp hk] at hi ⊢
      obtain rfl : i = 0 := by simpa [requestField] using hi
      exact hback (List.contains_iff_mem.mp hcontains)
    · cases hk
  · obtain ⟨-, hkind⟩ := hkinds k
    simp only [kindFields, List.mem_cons, List.not_mem_nil, or_false] at hk
    rcases hk with rfl | rfl | rfl | rfl | rfl
    case inr.inr.inr.inr =>
      rw [Nat.add_assoc]
      refine hkind (16 + i) ?_
      simp only at hi
      interval_cases i <;> decide
    all_goals
      obtain rfl : i = 0 := by simpa using hi
      exact hkind _ (by decide)
  · simp only [takeField, List.mem_cons, List.not_mem_nil, or_false] at hf
    rcases hf with rfl | rfl <;> obtain rfl : i = 0 := by simpa using hi
    · exact hcapacity
    · exact htake

section
variable (p : Part) (bus : Bus)

theorem Part.positionWrite_running (hrun : p.regs.run = true) (hwait : bus.wait = false) (r : PositionResult) :
    p.positionWrite bus r = p.headWrite bus (positionFields r) := by
  simp [Part.positionWrite, hrun, hwait]

/-- R181: a result byte that the bus refuses. -/
theorem Part.resultWrite_cut (slot code : Nat) (h : busAddress p.regs.windowBase (slot + 16) ∈ bus.writeErrors) :
    p.resultWrite bus slot code = p.memoryError .edition (slot + 16) .bus := by
  have hcut := Part.writeFields_cut (p := p) (bus := bus)
    (fields := [{ offset := slot + 16, size := 1, value := code }]) (before := []) (after := []) rfl nofun h p.mem
  simp only [Part.resultWrite, hcut]
  rfl

/-- R181: a result byte that is written. -/
theorem Part.resultWrite_whole (slot code : Nat) (h : busAddress p.regs.windowBase (slot + 16) ∉ bus.writeErrors) :
    p.resultWrite bus slot code
      = { p with mem := Memory.write p.mem (busAddress p.regs.windowBase (slot + 16)) (BitVec.ofNat 8 code) } := by
  have hdone := Part.writeFields_done (p := p) (bus := bus)
    (fields := [{ offset := slot + 16, size := 1, value := code }]) (fun y hy => by
      obtain rfl : y = (slot + 16, BitVec.ofNat 8 code) := by simpa [fieldBytes] using hy
      exact h) p.mem
  simp only [Part.resultWrite, hdone]
  simp [Part.putInto, fieldBytes, busCells, Memory.writeAll]

end

/-- Settles O54, by the bytes of a head-block write up to the first refused, and the fields of a full write by name. -/
theorem fullWriteShowsEditionUnit : Obligations.FullWriteShowsEditionUnit := by
  refine ⟨?_, ?_, ⟨rfl, rfl, rfl⟩, ?_⟩
  · intro p bus fields base bytes refused put seq word shown
    refine ⟨fun before x after hbytes hbefore hx => Part.headWrite_cut hbytes hbefore hx, fun h => ⟨?_, ?_⟩⟩
    · exact fun before x after hbytes hbefore hx => Part.headWrite_wordCut h hbytes hbefore hx
    · exact fun hword => Part.headWrite_whole h hword
  · intro p bus back slot r result field entry code busy shown place
    refine ⟨?_, rfl, fun hrun hwait => p.positionWrite_running bus hrun hwait result, rfl,
      p.resultWrite_cut bus slot r.code, p.resultWrite_whole bus slot r.code⟩
    have hshown (k : Kind) : (if k ∈ back then [requestField k] else []) ++ kindFields k (p.ed.kind k) = shown k := by
      have hlive : copyCode (p.ed.kind k).live = code (p.ed.kind k).live := by cases (p.ed.kind k).live <;> rfl
      have hentry : slotEntry k = entry k := slotEntry_eq k
      simp only [shown, requestField, kindFields, bitOf_busy, hlive, hentry]
      rfl
    rw [Part.fullWrite, fullFields_eq]
    simp only [hshown]
    rfl
  · intro p bus back hbus hp p' at_ entry code busy
    have hentry (k : Kind) : slotEntry k = entry k := slotEntry_eq k
    refine ⟨fun k => ?_, ?_, ?_, fun i hi => ?_, fun a hkinds hrest => ?_, ?_⟩
    · have shown {offset value : Nat} (h : { offset := slotEntry k + offset, size := 1, value := value } ∈
          kindFields k (p.ed.kind k)) : at_ (entry k + offset) = BitVec.ofNat 8 value :=
        hentry k ▸ Part.fullWrite_readByte hbus hp back (mem_fullFields p.ed back k h)
      have busyByte (c : Copy) : BitVec.ofNat 8 (bitOf ((p.ed.kind k).busy c))
          = busy ((p.ed.kind k).live = some c ∨ 0 < (p.ed.kind k).pins c) := by
        rw [bitOf_busy]
        simp only [busy]
        split <;> rfl
      refine ⟨fun hk => ?_, (shown (by simp [kindFields])).trans (?_ : BitVec.ofNat 8 (copyCode (p.ed.kind k).live) = _),
        (shown (by simp [kindFields])).trans (busyByte .a), (shown (by simp [kindFields])).trans (busyByte .b),
        shown (by simp [kindFields]), fun i hi => ?_⟩
      · exact hentry k ▸ Part.fullWrite_readByte hbus hp back (requestField_mem p.ed hk)
      · simp only [code]
        cases (p.ed.kind k).live with
        | none => rfl
        | some c => cases c <;> rfl
      · exact hentry k ▸ Part.fullWrite_read hbus hp back
          (f := { offset := slotEntry k + 16, size := 4, value := (p.ed.kind k).liveEdition })
          (List.mem_append_left _ (mem_fullFields p.ed back k (by simp [kindFields]))) hi
    · exact Part.fullWrite_readByte hbus hp back (by simp [fullFields])
    · exact Part.fullWrite_readByte hbus hp back (by simp [fullFields, takeField])
    · exact Part.fullWrite_read hbus hp back (f := sequenceField (p.ed.seq + 1#32))
        (List.mem_append_right _ (List.mem_singleton.mpr rfl)) hi
    · refine p.headWrite_read_other bus _ (fullFields_elsewhere (fun k => ?_) (hrest 0x8C (by simp)) (hrest 0x8E (by simp)))
        fun i hi => hrest (4 + i) (by interval_cases i <;> simp)
      obtain ⟨hback, hkind⟩ := hkinds k
      rw [hentry]
      exact ⟨hback, hkind⟩
    · show { p.fullWrite bus back with mem := p.mem } = _
      rw [Part.fullWrite, Part.headWrite_done p hbus]

end Sys2Proof.Machine
end

section
/-! PROOF. The boundary operation (R170): the requests kind by kind, the position request and the amendment list; O55. -/

namespace Sys2Proof.Machine

/-! ### One request (R173) -/

/-- R186: the bit of a flag. -/
theorem Flag.getLsbD_mask (f : Flag) (i : Nat) : f.mask.getLsbD i = true ↔ f.bit = i := by
  have hbit : f.bit < 10 := by cases f <;> decide
  rw [Flag.mask, BitVec.getLsbD_shiftLeft, BitVec.getLsbD_one]
  simp only [Bool.and_eq_true, decide_eq_true_eq, Bool.not_eq_true', decide_eq_false_iff_not]
  omega

/-- R173: the flag that a kind's request raises where it is answered at once. -/
def requestFlag (head : List Byte) (k : Kind) (s : KindState) : Option Flag :=
  let request := headField head (slotEntry k + 8) 1
  if request = 0 ∨ s.switch.isSome = true then none
  else match copyOfRequest request with
    | none => some .switchRefused
    | some copy => if s.live = some copy then some .switchDone else none

/-- R173: a kind's state once its request is taken. -/
def requestTaken (head : List Byte) (k : Kind) (s : KindState) : KindState :=
  let request := headField head (slotEntry k + 8) 1
  if request = 0 ∨ s.switch.isSome = true then s
  else match copyOfRequest request with
    | none => { s with result := .range }
    | some copy =>
      if s.live = some copy then { s with result := .done }
      else startSwitch copy (headField head (copyAddressOffset k copy) 4) request s

/-- The flag raised, where there is one. -/
def Part.raiseAny (p : Part) (f : Option Flag) : Part :=
  match f with
  | none => p
  | some f => p.raise f

/-- R173: a kind's request changes that kind's state, raises the flag of an answer, and names the kind for the write back
where it has one. -/
theorem Part.takeRequest_eq (head : List Byte) (x : Part × List Kind) (k : Kind) :
    Part.takeRequest head x k
      = ((x.1.changeKind k (requestTaken head k)).raiseAny (requestFlag head k (x.1.ed.kind k)),
          x.2 ++ if (requestFlag head k (x.1.ed.kind k)).isSome then [k] else []) := by
  unfold Part.takeRequest requestFlag requestTaken
  dsimp only
  by_cases hidle : headField head (slotEntry k + 8) 1 = 0 ∨ (x.1.ed.kind k).switch.isSome = true
  · simp [hidle, Part.raiseAny, Part.changeKind]
  · rcases Option.eq_none_or_eq_some (copyOfRequest (headField head (slotEntry k + 8) 1)) with hcopy | ⟨copy, hcopy⟩
    · simp [if_neg hidle, hcopy, Part.raiseAny, Part.changeKind]
    · by_cases hlive : (x.1.ed.kind k).live = some copy
      · simp [if_neg hidle, hcopy, hlive, Part.raiseAny, Part.changeKind]
      · simp [if_neg hidle, hcopy, hlive, Part.raiseAny, Part.changeKind]

@[simp] theorem Part.raiseAny_keeps (p : Part) (f : Option Flag) :
    (p.raiseAny f).ed = p.ed ∧ { (p.raiseAny f).rep with attention := p.rep.attention } = p.rep ∧
      { p.raiseAny f with rep := p.rep } = p := by
  cases f <;> exact ⟨rfl, rfl, rfl⟩

theorem Part.raiseAny_bit (p : Part) (f : Option Flag) (i : Nat) : (p.raiseAny f).rep.attention.getLsbD i = true ↔
    p.rep.attention.getLsbD i = true ∨ ∃ g, f = some g ∧ g.bit = i := by
  cases f with
  | none => simp [Part.raiseAny]
  | some g => simp [Part.raiseAny, Flag.getLsbD_mask]

/-! ### The requests of several kinds (R170) -/

/-- The requests of these kinds, each once, have been taken of a part. -/
structure TakesRequests (head : List Byte) (p : Part) (ks : List Kind) (y : Part × List Kind) : Prop where
  kind : ∀ k, y.1.ed.kind k = if k ∈ ks then requestTaken head k (p.ed.kind k) else p.ed.kind k
  back : ∀ k, k ∈ y.2 ↔ k ∈ ks ∧ (requestFlag head k (p.ed.kind k)).isSome = true
  flags : ∀ i, y.1.rep.attention.getLsbD i = true ↔ p.rep.attention.getLsbD i = true ∨
    ∃ k ∈ ks, ∃ f, requestFlag head k (p.ed.kind k) = some f ∧ f.bit = i
  rep : { y.1.rep with attention := p.rep.attention } = p.rep
  ed : y.1.ed = { p.ed with profile := y.1.ed.profile, stops := y.1.ed.stops, reservations := y.1.ed.reservations
                            notices := y.1.ed.notices, content := y.1.ed.content }
  rest : { y.1 with ed := p.ed, rep := p.rep } = p

theorem TakesRequests.none (head : List Byte) (p : Part) : TakesRequests head p [] (p, []) where
  kind k := by simp
  back k := by simp
  flags i := by simp
  rep := rfl
  ed := rfl
  rest := rfl

theorem TakesRequests.next {head : List Byte} {p : Part} {ks : List Kind} {y : Part × List Kind}
    (h : TakesRequests head p ks y) {k : Kind} (hk : k ∉ ks) :
    TakesRequests head p (ks ++ [k]) (Part.takeRequest head y k) := by
  have hown : y.1.ed.kind k = p.ed.kind k := by rw [h.kind, if_neg hk]
  rw [Part.takeRequest_eq, hown]
  obtain ⟨hed, hrep, hrest⟩ := (y.1.changeKind k (requestTaken head k)).raiseAny_keeps (requestFlag head k (p.ed.kind k))
  constructor
  case kind =>
    intro j
    by_cases hj : j = k
    · subst hj
      simp [hown]
    · simp [Edition.kind_setKind_of_ne _ _ hj, h.kind, hj]
  case back =>
    intro j
    by_cases hj : j = k
    · subst hj
      simp [h.back, hk]
    · have hnot : j ∉ (if (requestFlag head k (p.ed.kind k)).isSome then [k] else []) := by
        split <;> simp [hj]
      simp [h.back, hj, hnot]
  case flags =>
    intro i
    have hbits : (y.1.changeKind k (requestTaken head k)).rep.attention.getLsbD i = true ↔ _ := h.flags i
    rw [Part.raiseAny_bit, hbits]
    simp [or_and_right, exists_or, or_assoc]
  case rep => exact (congrArg (fun r : Report => { r with attention := p.rep.attention }) hrep).trans h.rep
  case ed =>
    rw [hed]
    have hset := congrArg (·.setKind k (requestTaken head k (y.1.ed.kind k))) h.ed
    cases k <;> exact hset
  case rest => exact (congrArg (fun q : Part => { q with ed := p.ed, rep := p.rep }) hrest).trans h.rest

/-- R170: the requests of every kind. -/
theorem takesRequests_all (head : List Byte) (p : Part) :
    TakesRequests head p Kind.all (Kind.all.foldl (Part.takeRequest head) (p, [])) :=
  (((((TakesRequests.none head p).next (k := .coachProfile) (by decide)).next (k := .stopList) (by decide)).next
    (k := .reservationTable) (by decide)).next (k := .noticeTable) (by decide)).next (k := .contentSet) (by decide)

theorem mem_kinds (k : Kind) : k ∈ Kind.all := by cases k <;> decide

/-! ### What a request does, by its value (R173) -/

/-- R173: the request's copy. -/
theorem copyOfRequest_iff (r : Nat) (c : Copy) : copyOfRequest r = some c ↔ (r = 1 ∧ c = .a) ∨ (r = 2 ∧ c = .b) := by
  unfold copyOfRequest
  split
  · simp [eq_comm]
  · simp [eq_comm]
  · next h1 h2 => exact ⟨nofun, fun h => (h.elim (fun ha => h1 ha.1) fun hb => h2 hb.1).elim⟩

section
variable {head : List Byte} {k : Kind} {s : KindState}

/-- R173: no request, or a switch in flight. -/
theorem request_idle (h : headField head (slotEntry k + 8) 1 = 0 ∨ s.switch ≠ none) :
    requestTaken head k s = s ∧ requestFlag head k s = none := by
  have hidle : headField head (slotEntry k + 8) 1 = 0 ∨ s.switch.isSome = true :=
    h.imp_right Option.isSome_iff_ne_none.mpr
  exact ⟨if_pos hidle, if_pos hidle⟩

section
variable (hrequest : headField head (slotEntry k + 8) 1 ≠ 0) (hswitch : s.switch = none)
include hrequest hswitch

/-- R173: a request for no copy is refused. -/
theorem request_range (h : 2 < headField head (slotEntry k + 8) 1) :
    requestTaken head k s = { s with result := .range } ∧ requestFlag head k s = some .switchRefused := by
  have hcopy : copyOfRequest (headField head (slotEntry k + 8) 1) = none := by
    rw [Option.eq_none_iff_forall_ne_some]
    intro c hc
    have := (copyOfRequest_iff _ _).mp hc
    omega
  simp [requestTaken, requestFlag, hrequest, hswitch, hcopy]

/-- R173: a request for the live copy is done. -/
theorem request_live {c : Copy} (h : copyOfRequest (headField head (slotEntry k + 8) 1) = some c) (hl : s.live = some c) :
    requestTaken head k s = { s with result := .done } ∧ requestFlag head k s = some .switchDone := by
  simp [requestTaken, requestFlag, hrequest, hswitch, h, hl]

/-- R173: a request for the other copy starts a switch. -/
theorem request_switch {c : Copy} (h : copyOfRequest (headField head (slotEntry k + 8) 1) = some c)
    (hl : s.live ≠ some c) :
    requestTaken head k s = startSwitch c (headField head (copyAddressOffset k c) 4)
        (headField head (slotEntry k + 8) 1) s ∧ requestFlag head k s = none := by
  simp [requestTaken, requestFlag, hrequest, hswitch, h, hl]

end

/-- R173: the flag of an answer. -/
theorem requestFlag_bit (i : Nat) : (∃ f, requestFlag head k s = some f ∧ f.bit = i) ↔ s.switch = none ∧
    ((i = 1 ∧ 2 < headField head (slotEntry k + 8) 1) ∨
      (i = 0 ∧ ((headField head (slotEntry k + 8) 1 = 1 ∧ s.live = some .a) ∨
        (headField head (slotEntry k + 8) 1 = 2 ∧ s.live = some .b)))) := by
  by_cases hidle : headField head (slotEntry k + 8) 1 = 0 ∨ s.switch ≠ none
  · rw [(request_idle hidle).2]
    rcases hidle with h0 | hs
    · simp [h0]
    · simp [hs]
  · obtain ⟨hrequest, hswitch⟩ := not_or.mp hidle
    have hswitch := not_not.mp hswitch
    by_cases hrange : 2 < headField head (slotEntry k + 8) 1
    · obtain ⟨-, hflag⟩ := request_range hrequest hswitch hrange
      have hnot : headField head (slotEntry k + 8) 1 ≠ 1 ∧ headField head (slotEntry k + 8) 1 ≠ 2 := by omega
      simp [hflag, hswitch, hrange, hnot, Flag.bit, eq_comm]
    · have hnamed (c : Copy) (hc : copyOfRequest (headField head (slotEntry k + 8) 1) = some c) :
          (∃ f, requestFlag head k s = some f ∧ f.bit = i) ↔ i = 0 ∧ s.live = some c := by
        by_cases hlive : s.live = some c
        · obtain ⟨-, hflag⟩ := request_live hrequest hswitch hc hlive
          simp [hflag, hlive, Flag.bit, eq_comm]
        · obtain ⟨-, hflag⟩ := request_switch hrequest hswitch hc hlive
          simp [hflag, hlive]
      have hvalue : headField head (slotEntry k + 8) 1 = 1 ∨ headField head (slotEntry k + 8) 1 = 2 := by omega
      rcases hvalue with h1 | h2
      · rw [hnamed .a ((copyOfRequest_iff _ _).mpr (.inl ⟨h1, rfl⟩))]
        simp [hswitch, h1]
      · rw [hnamed .b ((copyOfRequest_iff _ _).mpr (.inr ⟨h2, rfl⟩))]
        simp [hswitch, h2]

end

/-! ### The position request and the amendment list (R170, R180) -/

section
variable (p : Part) (bus : Bus) (head : List Byte)

theorem Part.handPosition_none (h : headField head 0x90 1 = 0) : p.handPosition bus head = p := if_pos h

theorem Part.handPosition_kind {kind : PositionKind} (h : positionKindOf (headField head 0x90 1) = some kind) :
    p.handPosition bus head = { p with trk := { p.trk with
      request := some { kind := kind, code := headField head 0x92 2, metres := headField head 0x94 4 } } } := by
  have hcode : headField head 0x90 1 ≠ 0 := fun h0 => by rw [h0] at h; cases h
  simp only [Part.handPosition, if_neg hcode, h]

theorem Part.handPosition_invalid (h : 3 < headField head 0x90 1) :
    p.handPosition bus head = p.headWrite bus (positionFields .invalid) := by
  have hcode : headField head 0x90 1 ≠ 0 := by omega
  have hkind : positionKindOf (headField head 0x90 1) = none := by
    unfold positionKindOf
    split
    · omega
    · omega
    · omega
    · rfl
  simp only [Part.handPosition, if_neg hcode, hkind]

end

/-- 11.2: a field of the head block, by its bytes. -/
theorem headField_at (head : List Byte) (offset : Nat) :
    let at_ (i : Nat) : Nat := (head.getD (offset + i) 0).toNat
    headField head offset 1 = at_ 0 ∧ headField head offset 2 = at_ 0 + 256 * at_ 1 ∧
      headField head offset 4 = at_ 0 + 256 * at_ 1 + 65536 * at_ 2 + 16777216 * at_ 3 := by
  obtain ⟨h1, h2, h4⟩ := headField_bytes head offset
  exact ⟨h1, h2, h4.trans (by simp only [Nat.add_zero]; omega)⟩

/-- R170 step 1: the owed writes, made on the board as the operation begins. -/
theorem Part.makeAllOwed_eq (p : Part) (bus : Bus) : p.makeAllOwed bus = p.ed.owed.foldl (fun q w => match w with
    | .full k request => q.completionWrite bus k request
    | .amend slot r => (q.resultWrite bus slot r.code).advanceTake bus
    | .position r => q.headWrite bus (positionFields r)) { p with ed := { p.ed with owed := [] } } := by
  refine congrArg (fun write => p.ed.owed.foldl write { p with ed := { p.ed with owed := [] } }) ?_
  funext q w
  cases w <;> rfl

/-- R170 steps 2 to 6, by what the head block's reading gives. -/
theorem Part.readHead_cases (p : Part) (bus : Bus) :
    (∀ f, (p.view bus).bytes 0 256 = .error f → p.readHead bus = p.memoryError .edition f.address f.cause) ∧
    ∀ head, (p.view bus).bytes 0 256 = .ok head →
      (headField head 0 4 ≠ signature → p.readHead bus = p.memoryError .edition 0 .signature) ∧
      (headField head 0 4 = signature →
        p.readHead bus = ((p.takeRequests bus head).handPosition bus head).examineList head) := by
  refine ⟨fun f hf => by simp only [Part.readHead, hf], fun head hh => ⟨fun hs => ?_, fun hs => ?_⟩⟩
  · simp only [Part.readHead, hh, if_pos hs]
  · simp only [Part.readHead, hh, if_neg (not_not.mpr hs)]

/-- Settles O55, by the operation's steps in turn and the requests kind by kind. -/
theorem boundaryOperationTakesTheHeadBlock : Obligations.BoundaryOperationTakesTheHeadBlock := by
  refine ⟨⟨rfl, fun head offset => ?_⟩, fun s bus => ⟨fun h => ?_, fun hboundary hrun hrequest => ?_⟩,
    fun p bus head => ?_,
    fun p bus head => ?_, fun p head => ?_⟩
  · obtain ⟨h1, h2, h4⟩ := headField_at head offset
    exact ⟨h1, h2, h4, rfl⟩
  · refine exec_next (·.boundaryOperation bus) rfl (if_neg ?_)
    rcases h with h | h | h <;> simp [Part.operationDue, h]
  · intro landed board owedWrite paid
    have hpaid : s.part.boundaryOperation bus = paid.readHead bus := by
      have hdue : s.part.operationDue = true := by simp [Part.operationDue, hboundary, hrun, hrequest]
      rw [Part.boundaryOperation, if_pos hdue]
      exact congrArg (·.readHead bus) (Part.makeAllOwed_eq _ _)
    obtain ⟨hfail, hread⟩ := paid.readHead_cases bus
    refine ⟨fun f hf => exec_next (·.boundaryOperation bus) rfl (hpaid.trans (hfail f hf)), fun head hh => ?_⟩
    obtain ⟨hunsigned, hsigned⟩ := hread head hh
    exact ⟨fun hs => exec_next (·.boundaryOperation bus) rfl (hpaid.trans (hunsigned hs)),
      fun hs => exec_next (·.boundaryOperation bus) rfl (hpaid.trans (hsigned hs))⟩
  · have hall := takesRequests_all head p
    refine ⟨(Kind.all.foldl (Part.takeRequest head) (p, [])).1, (Kind.all.foldl (Part.takeRequest head) (p, [])).2, rfl,
      fun k => ?_, fun i => ?_, hall.rep, hall.ed, hall.rest⟩
    · have hkind := (hall.kind k).trans (if_pos (mem_kinds k))
      have hback : k ∈ (Kind.all.foldl (Part.takeRequest head) (p, [])).2 ↔
          ∃ f, requestFlag head k (p.ed.kind k) = some f := by
        rw [hall.back, Option.isSome_iff_exists, and_iff_right (mem_kinds k)]
      intro state request named address
      rw [hkind, hback]
      refine ⟨fun hidle => ?_, fun hrequest hswitch => ⟨fun hrange => ?_,
        fun c hc => ⟨fun hlive => ?_, fun hlive => ?_⟩⟩⟩
      · obtain ⟨htaken, hflag⟩ := request_idle hidle
        exact ⟨htaken, fun ⟨_, hf⟩ => absurd (hflag.symm.trans hf) nofun⟩
      · obtain ⟨htaken, hflag⟩ := request_range hrequest hswitch hrange
        exact ⟨htaken, _, hflag⟩
      · obtain ⟨htaken, hflag⟩ := request_live hrequest hswitch ((copyOfRequest_iff _ _).mpr hc) hlive
        exact ⟨htaken, _, hflag⟩
      · obtain ⟨htaken, hflag⟩ := request_switch hrequest hswitch ((copyOfRequest_iff _ _).mpr hc) hlive
        refine ⟨fun ⟨_, hf⟩ => absurd (hflag.symm.trans hf) nofun, htaken.trans ?_⟩
        cases c <;> rfl
    · rw [hall.flags]
      simp only [requestFlag_bit, mem_kinds, true_and]
  · intro code request
    exact ⟨p.handPosition_none bus head, fun h => p.handPosition_kind bus head (congrArg positionKindOf h),
      fun h => p.handPosition_kind bus head (congrArg positionKindOf h),
      fun h => p.handPosition_kind bus head (congrArg positionKindOf h),
      p.handPosition_invalid bus head⟩
  · intro list post outside
    refine ⟨fun hout => if_pos hout, fun hin hpost => ?_, fun hin hpost hstays => ?_, fun hin hpost hnew hrun => ?_⟩
    · exact (if_neg hin).trans (if_pos hpost)
    · refine ((if_neg hin).trans (if_neg (Nat.not_le.mpr hpost))).trans ?_
      cases hrun : p.ed.run with
      | some run => simp only [Part.startRun, hrun]
      | none =>
        have hsame : headField head 0x8D 1 = p.ed.take := hstays.resolve_right (not_not.mpr hrun)
        simp only [Part.startRun, hrun, if_pos hsame]
    · refine ((if_neg hin).trans (if_neg (Nat.not_le.mpr hpost))).trans ?_
      simp only [Part.startRun, hrun]
      exact if_neg hnew

end Sys2Proof.Machine
end

section
/-! PROOF. The status page (R184, 11.5): what its fields hold, and the writes of a page; O57. -/

namespace Sys2Proof.Machine

/-! ### What the fields hold (11.5) -/

/-- The page shows a value at an offset. -/
def Part.shows (p : Part) (offset value : Nat) : Prop := ∃ f ∈ pageFields, f.offset = offset ∧ f.value p = value

/-- The groups of fields that the page is made of. -/
theorem pageFields_groups : journeyFields ⊆ pageFields ∧ recordFields 0x020 (·.trk.arrival) ⊆ pageFields ∧
    recordFields 0x030 (·.trk.departure) ⊆ pageFields ∧ recordFields 0x040 (·.trk.passed) ⊆ pageFields ∧
    faultFields ⊆ pageFields ∧ syncFailFields 0x068 .seat ⊆ pageFields ∧ syncFailFields 0x06C .end_ ⊆ pageFields ∧
    syncFailFields 0x070 .door ⊆ pageFields ∧ seatFields ⊆ pageFields ∧ lineFields 0x140 48 .seat ⊆ pageFields ∧
    lineFields 0x440 4 .end_ ⊆ pageFields ∧ lineFields 0x480 8 .door ⊆ pageFields := by
  unfold pageFields
  refine ⟨?_, ?_, ?_, ?_, ?_, ?_, ?_, ?_, ?_, ?_, ?_, ?_⟩ <;> intro f hf <;>
    simp only [List.mem_append, hf, true_or, or_true]

section
variable (p : Part)

/-- A field of a group shows its value. -/
theorem Part.shows_of {fs : List PageField} (hfs : fs ⊆ pageFields) {f : PageField} (hf : f ∈ fs) :
    p.shows f.offset (f.value p) := ⟨f, hfs hf, rfl, rfl⟩

theorem Part.shows_journey (i : Nat) (hi : i < 12) :
    p.shows (journeyFields[i]'hi).offset ((journeyFields[i]'hi).value p) := by
  obtain ⟨hjourney, -⟩ := pageFields_groups
  exact p.shows_of hjourney (List.getElem_mem hi)

theorem Part.shows_fault (i : Nat) (hi : i < 12) : p.shows (faultFields[i]'hi).offset ((faultFields[i]'hi).value p) := by
  obtain ⟨-, -, -, -, hfault, -⟩ := pageFields_groups
  exact p.shows_of hfault (List.getElem_mem hi)

/-- R26: in a state of a leg, or at a stop. -/
theorem currentStop_leg {phase : Phase} {k : Nat} (h : phase.leg = some k) (view : List ServedStop) :
    currentStop phase view = view[k]? ∧ nextStop phase view = view[k + 1]? := by
  refine ⟨?_, by simp only [nextStop, h]⟩
  cases phase <;> simp_all [Phase.leg, currentStop]

/-- R42: what the fields of a record show. -/
theorem Part.shows_record {o : Nat} {r : Part → Option JourneyRecord} (h : recordFields o r ⊆ pageFields) :
    (r p = none → p.shows o 0) ∧
    ∀ x : JourneyRecord, r p = some x → p.shows o 1 ∧ p.shows (o + 2) x.code ∧ p.shows (o + 4) x.ms.toNat ∧
      p.shows (o + 8) x.measured ∧ p.shows (o + 12) x.expected := by
  have shown (i : Nat) (hi : i < 5) {value : Nat} (hv : ((recordFields o r)[i]'hi).value p = value) :
      p.shows ((recordFields o r)[i]'hi).offset value := hv ▸ p.shows_of h (List.getElem_mem hi)
  refine ⟨fun hr => shown 0 (by decide) ?_, fun x hr => ⟨shown 0 (by decide) ?_, shown 1 (by decide) ?_,
    shown 2 (by decide) ?_, shown 3 (by decide) ?_, shown 4 (by decide) ?_⟩⟩
  all_goals simp [recordFields, hr, bitOf, presentOr]

/-- R155: what the sync-fail flags of a line show. -/
theorem Part.shows_syncFail {o : Nat} {l : Line} (h : syncFailFields o l ⊆ pageFields) {g : Nat} (hg : g < 4) :
    p.shows (o + g) (bitOf ((p.line l).group g).syncFail) :=
  p.shows_of h (List.mem_map_of_mem (f := fun g => ({ offset := o + g, size := 1, value := _ } : PageField))
    (List.mem_range.mpr hg))

/-- R84: what the places of the seat map show. -/
theorem Part.shows_seat {i : Nat} (hi : i < 96) :
    p.shows (0x080 + i) (((p.res.seats[i]?).map (·.display.code)).getD 0) ∧
    p.shows (0x0E0 + i) (((p.res.seats[i]?).map (fun q => bitOf (q.reviewResolution || q.reviewLatched))).getD 0) := by
  obtain ⟨-, -, -, -, -, -, -, -, hseats, -⟩ := pageFields_groups
  exact ⟨p.shows_of hseats (List.mem_append_left _ (List.mem_map_of_mem
      (f := fun i => ({ offset := 0x080 + i, size := 1, value := _ } : PageField)) (List.mem_range.mpr hi))),
    p.shows_of hseats (List.mem_append_right _ (List.mem_map_of_mem
      (f := fun i => ({ offset := 0x0E0 + i, size := 1, value := _ } : PageField)) (List.mem_range.mpr hi)))⟩

/-- R155: what the health record of a place shows. -/
theorem Part.shows_health {o n : Nat} {l : Line} (h : lineFields o n l ⊆ pageFields) {i : Nat} (hi : i < n) :
    ((p.line l).panels[i]? = none → p.shows (o + 16 * i + 2) 0 ∧ p.shows (o + 16 * i + 4) 0) ∧
    ∀ q, (p.line l).panels[i]? = some q →
      p.shows (o + 16 * i) q.address ∧ p.shows (o + 16 * i + 1) q.group ∧ p.shows (o + 16 * i + 2) q.health.code ∧
      (q.light = none → p.shows (o + 16 * i + 4) 0) ∧
      (∀ n, q.light = some n → p.shows (o + 16 * i + 3) n ∧ p.shows (o + 16 * i + 4) 1) ∧
      p.shows (o + 16 * i + 6) q.counters.noReply ∧ p.shows (o + 16 * i + 8) q.counters.char ∧
      p.shows (o + 16 * i + 10) q.counters.length ∧ p.shows (o + 16 * i + 12) q.counters.check ∧
      p.shows (o + 16 * i + 14) q.counters.address := by
  have hrecord : healthFields (o + 16 * i) l i ⊆ pageFields := fun f hf =>
    h (List.mem_flatMap.mpr ⟨i, List.mem_range.mpr hi, hf⟩)
  have shown (j : Nat) (hj : j < 10) {value : Nat} (hv : ((healthFields (o + 16 * i) l i)[j]'hj).value p = value) :
      p.shows ((healthFields (o + 16 * i) l i)[j]'hj).offset value := hv ▸ p.shows_of hrecord (List.getElem_mem hj)
  refine ⟨fun hq => ?_, fun q hq => ?_⟩
  · have hplace : p.place l i = none := hq
    exact ⟨shown 2 (by decide) (by simp [healthFields, hplace]),
      shown 4 (by decide) (by simp [healthFields, hplace, bitOf])⟩
  · have hplace : p.place l i = some q := hq
    refine ⟨shown 0 (by decide) ?_, shown 1 (by decide) ?_, shown 2 (by decide) ?_,
      fun hl => shown 4 (by decide) (by simp [healthFields, hplace, hl, bitOf]),
      fun n hl => ⟨shown 3 (by decide) (by simp [healthFields, hplace, hl, presentOr]),
        shown 4 (by decide) (by simp [healthFields, hplace, hl, bitOf])⟩, shown 5 (by decide) ?_, shown 6 (by decide) ?_,
      shown 7 (by decide) ?_, shown 8 (by decide) ?_, shown 9 (by decide) ?_⟩
    all_goals simp [healthFields, hplace, presentOr]

end

/-! ### The image of the page (R184) -/

/-- A value recorded stands in the image, and no other changes. -/
theorem imageOf_record (r : Report) (offset value o : Nat) :
    ({ r with pageImage := recordImage r.pageImage offset value } : Report).imageOf o
      = if o = offset then some value else r.imageOf o := by
  simp only [Report.imageOf, recordImage, List.find?_append]
  split
  · next h =>
    have hgone : (r.pageImage.filter (fun x => x.1 != offset)).find? (fun x => x.1 == o) = none := by
      simp [List.find?_eq_none, h]
    rw [hgone, h]
    simp
  · next h =>
    have hsame (x : Nat × Nat) : decide ((x.1 != offset) = true ∧ (x.1 == o) = true) = (x.1 == o) := by
      by_cases hx : x.1 = o
      · simp [hx, h]
      · simp [hx]
    have hnew : (offset == o) = false := beq_eq_false_iff_ne.mpr (Ne.symm h)
    simp only [List.find?_filter, hsame]
    simp [hnew]

/-! ### One field written -/

section
variable {p : Part} {bus : Bus} {offset size value : Nat}

/-- The bytes of a field. -/
theorem mem_fieldByte {y : Nat × Byte} (hy : y ∈ fieldBytes [{ offset := offset, size := size, value := value }]) :
    ∃ i, i < size ∧ y.1 = offset + i := by
  obtain ⟨f, hf, hy⟩ := List.mem_flatMap.mp hy
  rw [List.mem_singleton.mp hf] at hy
  obtain ⟨i, hi, rfl⟩ := List.mem_map.mp hy
  exact ⟨i, List.mem_range.mp hi, rfl⟩

/-- A field none of whose bytes the bus refuses. -/
theorem Part.writeField_done (h : ∀ i, i < size → busAddress p.regs.windowBase (offset + i) ∉ bus.writeErrors)
    (m : Memory) :
    writeFields p.regs.windowBase bus m [{ offset := offset, size := size, value := value }]
      = (p.putInto m (fieldBytes [{ offset := offset, size := size, value := value }]), none) := by
  refine Part.writeFields_done (fun y hy => ?_) m
  obtain ⟨i, hi, hyi⟩ := mem_fieldByte hy
  rw [Part.refuses, hyi]
  exact h i hi

/-- A field with a byte that the bus refuses. -/
theorem Part.writeField_cut (h : ∃ i, i < size ∧ busAddress p.regs.windowBase (offset + i) ∈ bus.writeErrors)
    (m : Memory) : ∃ i, i < size ∧ busAddress p.regs.windowBase (offset + i) ∈ bus.writeErrors ∧
      (writeFields p.regs.windowBase bus m [{ offset := offset, size := size, value := value }]).2
        = some (offset + i) := by
  let bytes := fieldBytes [{ offset := offset, size := size, value := value }]
  let refused (y : Nat × Byte) : Bool := decide (busAddress p.regs.windowBase y.1 ∈ bus.writeErrors)
  cases hfirst : bytes.find? refused with
  | none =>
    obtain ⟨i, hi, hrefused⟩ := h
    have hnone := List.find?_eq_none.mp hfirst _ (mem_fieldBytes (List.mem_singleton.mpr rfl) hi)
    exact absurd (decide_eq_true hrefused) hnone
  | some x =>
    obtain ⟨hx, before, after, hbytes, hbefore⟩ := List.find?_eq_some_iff_append.mp hfirst
    have hmem : x ∈ bytes := hbytes ▸ List.mem_append_right _ List.mem_cons_self
    obtain ⟨i, hi, hxi⟩ := mem_fieldByte hmem
    have hxrefused : busAddress p.regs.windowBase x.1 ∈ bus.writeErrors := by simpa [refused] using hx
    have hcut := Part.writeFields_cut hbytes (fun y hy => by simpa [refused, Part.refuses] using hbefore y hy) hxrefused m
    refine ⟨i, hi, hxi ▸ hxrefused, ?_⟩
    rw [hcut, hxi]

/-- The bytes of a field that is written read back. -/
theorem Part.putField_read {m : Memory} (hm : Memory.wf m = true) (hsmall : offset + size ≤ 0x2000) {i : Nat}
    (hi : i < size) :
    Memory.read (p.putInto m (fieldBytes [{ offset := offset, size := size, value := value }]))
      (busAddress p.regs.windowBase (offset + i)) = BitVec.ofNat 8 (value / 256 ^ i) := by
  refine Memory.read_writeAll_mem hm (busCells_nodup _ ?_ fun x hx => ?_) (List.mem_map_of_mem
    (f := fun x : Nat × Byte => (busAddress p.regs.windowBase x.1, x.2))
    (mem_fieldBytes (f := { offset := offset, size := size, value := value }) (List.mem_singleton.mpr rfl) hi))
  · rw [fieldBytes_offsets, List.flatMap_singleton]
    exact List.nodup_range.map fun a b hab => Nat.add_left_cancel hab
  · obtain ⟨j, hj, hxj⟩ := mem_fieldByte hx
    omega

/-- Other bytes read as before. -/
theorem writeField_other (base : Word) (m : Memory) {a : Nat} (ha : ∀ i, i < size → a ≠ busAddress base (offset + i)) :
    Memory.read (writeFields base bus m [{ offset := offset, size := size, value := value }]).1 a = Memory.read m a := by
  refine read_writeFields_other base bus m _ fun f hf i hi => ?_
  rw [List.mem_singleton.mp hf] at hi ⊢
  exact ha i hi

end

/-! ### A field reached (R184) -/

section
variable (p : Part) (bus : Bus) (f : PageField)

/-- The write of a field of the page. -/
def Part.fieldWritten : Memory × Option Nat :=
  writeFields p.regs.windowBase bus p.mem [{ offset := 0x1000 + f.offset, size := f.size, value := f.value p }]

theorem Part.reachField_same (h : p.rep.imageOf f.offset = some (f.value p)) : Part.reachField bus p f = p := if_pos h

variable {p bus f} in
theorem Part.reachField_written (h : p.rep.imageOf f.offset ≠ some (f.value p)) (hdone : (p.fieldWritten bus f).2 = none) :
    Part.reachField bus p f = { p with
      mem := (p.fieldWritten bus f).1
      rep := { p.rep with pageImage := recordImage p.rep.pageImage f.offset (f.value p) } } := by
  refine (if_neg h).trans ?_
  have hwrite : writeFields p.regs.windowBase bus p.mem [{ offset := pageBase + f.offset, size := f.size, value := f.value p }]
      = ((p.fieldWritten bus f).1, none) := Prod.ext rfl hdone
  simp only [hwrite]

variable {p bus f} in
theorem Part.reachField_cut (h : p.rep.imageOf f.offset ≠ some (f.value p)) {a : Nat}
    (hcut : (p.fieldWritten bus f).2 = some a) :
    Part.reachField bus p f = Part.memoryError { p with mem := (p.fieldWritten bus f).1 } .report a .bus := by
  refine (if_neg h).trans ?_
  have hwrite : writeFields p.regs.windowBase bus p.mem [{ offset := pageBase + f.offset, size := f.size, value := f.value p }]
      = ((p.fieldWritten bus f).1, some a) := Prod.ext rfl hcut
  simp only [hwrite]

end

/-- A field reached leaves the counts of the page. -/
theorem Part.reachField_counts (p : Part) (bus : Bus) (f : PageField) :
    (Part.reachField bus p f).rep.pageSeq = p.rep.pageSeq ∧
      (Part.reachField bus p f).rep.deferred = p.rep.deferred := by
  by_cases hsame : p.rep.imageOf f.offset = some (f.value p)
  · rw [p.reachField_same bus f hsame]
    exact ⟨rfl, rfl⟩
  · cases hwrite : (p.fieldWritten bus f).2 with
    | none =>
      rw [Part.reachField_written hsame hwrite]
      exact ⟨rfl, rfl⟩
    | some a =>
      rw [Part.reachField_cut hsame hwrite]
      exact ⟨rfl, rfl⟩

/-! ### The boundary at the report unit, and the end of a page (R184) -/

section
variable (p : Part) (bus : Bus)

theorem Part.pageBoundary_frozen (reach : Nat) (h : p.rep.boundaries ≠ 0) (hfreeze : p.regs.freeze = true) :
    p.pageBoundary bus reach = { p with rep := { p.rep with boundaries := p.rep.boundaries - 1 } } :=
  (if_neg h).trans (if_pos hfreeze)

theorem Part.pageBoundary_deferred (reach : Nat) (h : p.rep.boundaries ≠ 0) (hfreeze : p.regs.freeze = false) {n : Nat}
    (hwriting : p.rep.writing = some n) : p.pageBoundary bus reach = { p with
      rep := { p.rep with boundaries := p.rep.boundaries - 1, deferred := p.rep.deferred + 1 } } := by
  simp [Part.pageBoundary, h, hfreeze, hwriting]

theorem Part.pageBoundary_begun (reach : Nat) (h : p.rep.boundaries ≠ 0) (hfreeze : p.regs.freeze = false)
    (hwriting : p.rep.writing = none) : p.pageBoundary bus reach = (pageFields.take reach).foldl (Part.reachField bus)
      { p with mem := Memory.writeAll p.mem bus.host
               rep := { p.rep with boundaries := p.rep.boundaries - 1, writing := some reach } } := by
  simp [Part.pageBoundary, h, hfreeze, hwriting]
  rfl

/-- R184: the bytes of the page sequence word, with no bus error. -/
theorem Part.pageSequence_whole (hbus : bus.writeErrors = []) : p.pageSequence bus = { p with
    mem := p.putInto p.mem (fieldBytes [{ offset := 0x1000, size := 4, value := (p.rep.pageSeq + 1#32).toNat }])
    rep := { p.rep with pageSeq := p.rep.pageSeq + 1#32 } } := by
  have hdone := Part.writeField_done (p := p) (bus := bus) (offset := 0x1000) (size := 4)
    (value := (p.rep.pageSeq + 1#32).toNat) (by simp [hbus]) p.mem
  have hbase : pageBase = 0x1000 := rfl
  simp only [Part.pageSequence, hbase, hdone]

theorem Part.endPage_writing {n : Nat} (h : p.rep.writing = some n) : p.endPage bus
    = { (((p.hostWrites bus).reachFields bus (pageFields.drop n)).pageSequence bus) with
        rep := (((p.hostWrites bus).reachFields bus (pageFields.drop n)).pageSequence bus).rep.nextPage } := by
  simp only [Part.endPage, h]

end

/-! ### The statement -/

/-- R26: without a place of its own the current stop is absent; at the journey's end it is the last. -/
theorem currentStop_noLeg (phase : Phase) (view : List ServedStop) :
    (phase = .ended → currentStop phase view = view.getLast?) ∧
    (phase = .unplaced ∨ phase = .lost → currentStop phase view = none) := by
  refine ⟨fun h => h ▸ rfl, fun h => ?_⟩
  rcases h with rfl | rfl <;> rfl

section
variable {p : Part} {bus : Bus} {f : PageField}

/-- R184: a field that differs, written whole. -/
theorem Part.reachField_shows (hf : f ∈ pageFields) (hp : p.memoryCanonical)
    (h : p.rep.imageOf f.offset ≠ some (f.value p))
    (hbus : ∀ i, i < f.size → busAddress p.regs.windowBase (0x1000 + f.offset + i) ∉ bus.writeErrors) :
    let place (i : Nat) : Nat := busAddress p.regs.windowBase (0x1000 + f.offset + i)
    let p' := Part.reachField bus p f
    (∀ i, i < f.size → Memory.read p'.mem (place i) = BitVec.ofNat 8 (f.value p / 256 ^ i)) ∧
    (∀ a, (∀ i, i < f.size → a ≠ place i) → Memory.read p'.mem a = Memory.read p.mem a) ∧
    p'.rep.imageOf f.offset = some (f.value p) ∧
    (∀ o, o ≠ f.offset → p'.rep.imageOf o = p.rep.imageOf o) ∧
    { p' with mem := p.mem, rep := { p'.rep with pageImage := p.rep.pageImage } } = p := by
  have hdone : p.fieldWritten bus f
      = (p.putInto p.mem (fieldBytes [{ offset := 0x1000 + f.offset, size := f.size, value := f.value p }]), none) :=
    Part.writeField_done hbus p.mem
  have hwithin := pageFields_within hf
  intro place p'
  have hp' : p' = _ := Part.reachField_written h (congrArg (·.2) hdone)
  rw [hp']
  refine ⟨fun i hi => ?_, fun a ha => writeField_other _ _ ha, ?_, fun o ho => ?_, rfl⟩
  · rw [hdone]
    exact Part.putField_read hp (by omega) hi
  · rw [imageOf_record, if_pos rfl]
  · rw [imageOf_record, if_neg ho]

/-- R184: a field that differs, with a byte refused. -/
theorem Part.reachField_reports (h : p.rep.imageOf f.offset ≠ some (f.value p))
    (hbus : ∃ i, i < f.size ∧ busAddress p.regs.windowBase (0x1000 + f.offset + i) ∈ bus.writeErrors) :
    let place (i : Nat) : Nat := busAddress p.regs.windowBase (0x1000 + f.offset + i)
    let p' := Part.reachField bus p f
    p'.rep.pageImage = p.rep.pageImage ∧ p'.rep.attention = p.rep.attention ||| 0x100#10 ∧
    (∃ i, i < f.size ∧ place i ∈ bus.writeErrors ∧ p'.rep.memoryError
      = some { agent := .report, address := 0x1000 + f.offset + i, cause := .bus }) ∧
    ∀ a, (∀ i, i < f.size → a ≠ place i) → Memory.read p'.mem a = Memory.read p.mem a := by
  obtain ⟨i, hi, hrefused, hcut⟩ := Part.writeField_cut (value := f.value p) hbus p.mem
  intro place p'
  have hp' : p' = _ := Part.reachField_cut h hcut
  rw [hp']
  exact ⟨rfl, rfl, ⟨i, hi, hrefused, rfl⟩, fun a ha => writeField_other _ _ ha⟩

end

/-- R184: the end of a page write with no bus error. -/
theorem endPage_shows {p : Part} {bus : Bus} {n : Nat} (hn : p.rep.writing = some n) (hbus : bus.writeErrors = [])
    (hp : p.memoryCanonical) :
    let landed := { p with mem := Memory.writeAll p.mem bus.host }
    let written := (pageFields.drop n).foldl (Part.reachField bus) landed
    let base := p.regs.windowBase
    let q := p.endPage bus
    q.rep.pageSeq = p.rep.pageSeq + 1#32 ∧
    (p.rep.deferred = 0 → q.rep.writing = none ∧ q.rep.deferred = 0) ∧
    (∀ d, p.rep.deferred = d + 1 → q.rep.writing = some 0 ∧ q.rep.deferred = d) ∧
    { q.rep with pageSeq := written.rep.pageSeq, writing := written.rep.writing
                 deferred := written.rep.deferred } = written.rep ∧
    { q with mem := written.mem, rep := written.rep } = written ∧
    (∀ i, i < 4 → Memory.read q.mem (busAddress base (0x1000 + i)) = BitVec.ofNat 8 (q.rep.pageSeq.toNat / 256 ^ i)) ∧
    ∀ a, (∀ i, i < 4 → a ≠ busAddress base (0x1000 + i)) → Memory.read q.mem a = Memory.read written.mem a := by
  intro landed written base q
  have hstores : Memory.StoresAt (pagePlace base) landed.mem written.mem :=
    landed.reachFields_stores bus fun f => List.mem_of_mem_drop
  have hcanonical : Memory.wf written.mem = true := hstores.canonical (Memory.wf_writeAll hp bus.host)
  obtain ⟨hregs, hseq, hdeferred⟩ : written.regs = p.regs ∧ written.rep.pageSeq = p.rep.pageSeq ∧
      written.rep.deferred = p.rep.deferred := by
    refine List.foldlRecOn (motive := fun x : Part => x.regs = p.regs ∧ x.rep.pageSeq = p.rep.pageSeq ∧
      x.rep.deferred = p.rep.deferred) (pageFields.drop n) (Part.reachField bus) ⟨rfl, rfl, rfl⟩ fun x hx f _ => ?_
    obtain ⟨hxregs, hxseq, hxdeferred⟩ := hx
    obtain ⟨hfseq, hfdeferred⟩ := x.reachField_counts bus f
    exact ⟨by simp [hxregs], hfseq.trans hxseq, hfdeferred.trans hxdeferred⟩
  have hq : q = { written.pageSequence bus with rep := (written.pageSequence bus).rep.nextPage } :=
    p.endPage_writing bus hn
  rw [written.pageSequence_whole bus hbus] at hq
  rw [hq]
  refine ⟨congrArg (· + 1#32) hseq, fun h => ?_, fun d h => ?_, rfl, rfl, fun i hi => ?_, fun a ha => ?_⟩
  · exact Report.nextPage_last (hdeferred.trans h)
  · exact Report.nextPage_more (hdeferred.trans h)
  · have hbase : base = written.regs.windowBase := by rw [hregs]
    rw [hbase]
    exact Part.putField_read hcanonical (by decide) hi
  · have hdone := Part.writeField_done (p := written) (bus := bus) (offset := 0x1000) (size := 4)
      (value := (written.rep.pageSeq + 1#32).toNat) (by simp [hbus]) written.mem
    have hother := writeField_other (bus := bus) (offset := 0x1000) (size := 4)
      (value := (written.rep.pageSeq + 1#32).toNat) written.regs.windowBase written.mem (a := a) (by rwa [hregs])
    rwa [hdone] at hother

section
variable (p : Part)

/-- R43: the journey fields of the page, by the phase. -/
theorem Part.shows_stops :
    (∀ k, p.trk.phase.leg = some k → p.shows 0x00A ((p.trk.view[k]?.map (·.code)).getD 0) ∧
      p.shows 0x00C ((p.trk.view[k + 1]?.map (·.code)).getD 0)) ∧
    (p.trk.phase = .ended → p.shows 0x00A ((p.trk.view.getLast?.map (·.code)).getD 0)) ∧
    (p.trk.phase = .unplaced ∨ p.trk.phase = .lost → p.shows 0x00A 0) ∧
    (p.trk.phase.leg = none → p.shows 0x00C 0) := by
  have current : p.shows 0x00A (((currentStop p.trk.phase p.trk.view).map (·.code)).getD 0) :=
    p.shows_journey 5 (by decide)
  have next : p.shows 0x00C (((nextStop p.trk.phase p.trk.view).map (·.code)).getD 0) := p.shows_journey 6 (by decide)
  obtain ⟨hended, hnowhere⟩ := currentStop_noLeg p.trk.phase p.trk.view
  refine ⟨fun k hk => ?_, fun h => hended h ▸ current, fun h => ?_, fun h => ?_⟩
  · obtain ⟨hcurrent, hnext⟩ := currentStop_leg hk p.trk.view
    exact ⟨hcurrent ▸ current, hnext ▸ next⟩
  · rw [hnowhere h] at current
    exact current
  · rw [nextStop, h] at next
    exact next

/-- R84, R132, R169: the fields of a fault that is absent, or present. -/
theorem Part.shows_faults :
    (p.res.storeEdition = none → p.shows 0x051 0) ∧
    (∀ e, p.res.storeEdition = some e → p.shows 0x051 1 ∧ p.shows 0x058 e) ∧
    (p.rep.contentFault = none → p.shows 0x05C 0) ∧
    (∀ x, p.rep.contentFault = some x → p.shows 0x05C 1 ∧ p.shows 0x05D x.glyph ∧ p.shows 0x05E x.cause.code) ∧
    (p.rep.memoryError = none → p.shows 0x060 0) ∧
    (∀ x, p.rep.memoryError = some x → p.shows 0x060 1 ∧ p.shows 0x061 x.agent.code ∧ p.shows 0x062 x.cause.code ∧
      p.shows 0x064 x.address) := by
  have shown (i : Nat) (hi : i < 12) {value : Nat} (hv : (faultFields[i]'hi).value p = value) :
      p.shows (faultFields[i]'hi).offset value := hv ▸ p.shows_fault i hi
  refine ⟨fun h => shown 1 (by decide) ?_, fun e h => ⟨shown 1 (by decide) ?_, shown 4 (by decide) ?_⟩,
    fun h => shown 5 (by decide) ?_,
    fun x h => ⟨shown 5 (by decide) ?_, shown 6 (by decide) ?_, shown 7 (by decide) ?_⟩,
    fun h => shown 8 (by decide) ?_,
    fun x h => ⟨shown 8 (by decide) ?_, shown 9 (by decide) ?_, shown 10 (by decide) ?_, shown 11 (by decide) ?_⟩⟩
  all_goals simp [faultFields, h, bitOf, presentOr]

end

/-- Settles O57, by the page's fields group by group, and a page write field by field. -/
theorem pageWritesFieldsThatDiffer : Obligations.PageWritesFieldsThatDiffer := by
  refine ⟨pageFields_places, fun p => ?_, fun s bus reach hboundaries => ⟨fun hfreeze => ?_, fun hfreeze n hwriting => ?_,
    fun hfreeze hwriting => ?_⟩, fun s bus n hn hbus hp => ?_, fun p bus f hf hp => ⟨p.reachField_same bus f,
    Part.reachField_shows hf hp, Part.reachField_reports⟩⟩
  · intro shows phase view flag
    obtain ⟨-, harrival, hdeparture, hpassed, -, hseatSync, hendSync, hdoorSync, -, hseatLine, hendLine, hdoorLine⟩ :=
      pageFields_groups
    obtain ⟨hleg, hended, hnowhere, hlast⟩ := p.shows_stops
    obtain ⟨hnoStore, hstore, hnoContent, hcontent, hnoMemory, hmemory⟩ := p.shows_faults
    have journey (i : Nat) (hi : i < 12) {value : Nat} (hv : (journeyFields[i]'hi).value p = value) :
        shows (journeyFields[i]'hi).offset value := hv ▸ p.shows_journey i hi
    refine ⟨journey 0 (by decide) ?_, journey 1 (by decide) rfl, journey 2 (by decide) rfl, journey 3 (by decide) ?_,
      journey 4 (by decide) ?_, hleg, hended, hnowhere, hlast, journey 7 (by decide) rfl, journey 8 (by decide) rfl,
      journey 9 (by decide) rfl, journey 10 (by decide) ?_, journey 11 (by decide) ?_, fun o r hr => ?_,
      p.shows_fault 0 (by decide), p.shows_fault 2 (by decide), p.shows_fault 3 (by decide), hnoStore, hstore, hnoContent,
      fun x hx => ?_, hnoMemory, fun x hx => ?_, fun o l hl g hg => ?_, fun i hi => ?_, fun o n l hl i hi => ?_⟩
    · show phase.code = _
      cases phase <;> rfl
    · show p.odo.motion.code = _
      cases p.odo.motion <;> rfl
    · show p.odo.door.code = _
      cases p.odo.door <;> rfl
    · show p.swp.role.code = _
      cases p.swp.role <;> rfl
    · show p.swp.sync.code = _
      cases p.swp.sync <;> rfl
    · simp only [List.mem_cons, Prod.mk.injEq, List.not_mem_nil, or_false] at hr
      rcases hr with ⟨rfl, rfl⟩ | ⟨rfl, rfl⟩ | ⟨rfl, rfl⟩
      · exact p.shows_record harrival
      · exact p.shows_record hdeparture
      · exact p.shows_record hpassed
    · obtain ⟨hpresent, hglyph, hcause⟩ := hcontent x hx
      refine ⟨hpresent, hglyph, ?_⟩
      cases hc : x.cause <;> rw [hc] at hcause <;> exact hcause
    · obtain ⟨hpresent, hagent, hcause, haddress⟩ := hmemory x hx
      refine ⟨hpresent, ?_, ?_, haddress⟩
      · cases hc : x.agent <;> rw [hc] at hagent <;> exact hagent
      · cases hc : x.cause <;> rw [hc] at hcause <;> exact hcause
    · simp only [List.mem_cons, Prod.mk.injEq, List.not_mem_nil, or_false] at hl
      rcases hl with ⟨rfl, rfl⟩ | ⟨rfl, rfl⟩ | ⟨rfl, rfl⟩
      · exact p.shows_syncFail hseatSync hg
      · exact p.shows_syncFail hendSync hg
      · exact p.shows_syncFail hdoorSync hg
    · obtain ⟨hdisplay, hreview⟩ := p.shows_seat hi
      refine ⟨fun hq => ?_, fun q hq => ?_⟩
      · rw [hq] at hdisplay hreview
        exact ⟨hdisplay, hreview⟩
      · rw [hq] at hdisplay hreview
        refine ⟨hreview, ?_⟩
        cases hd : q.display <;> rw [Option.map_some, hd] at hdisplay <;> exact hdisplay
    · have hgroup : lineFields o n l ⊆ pageFields := by
        simp only [List.mem_cons, Prod.mk.injEq, List.not_mem_nil, or_false] at hl
        rcases hl with ⟨rfl, rfl, rfl⟩ | ⟨rfl, rfl, rfl⟩ | ⟨rfl, rfl, rfl⟩
        · exact hseatLine
        · exact hendLine
        · exact hdoorLine
      obtain ⟨hempty, hpanel⟩ := p.shows_health hgroup hi
      refine ⟨hempty, fun q hq => ?_⟩
      obtain ⟨haddress, hgroup, hhealth, hrest⟩ := hpanel q hq
      refine ⟨haddress, hgroup, ?_, hrest⟩
      cases hc : q.health <;> rw [hc] at hhealth <;> exact hhealth
  · exact exec_next (·.pageBoundary bus reach) rfl (s.part.pageBoundary_frozen bus reach hboundaries hfreeze)
  · exact exec_next (·.pageBoundary bus reach) rfl (s.part.pageBoundary_deferred bus reach hboundaries hfreeze hwriting)
  · exact exec_next (·.pageBoundary bus reach) rfl (s.part.pageBoundary_begun bus reach hboundaries hfreeze hwriting)
  · exact ⟨_, exec_next (·.endPage bus) rfl rfl, rfl, endPage_shows hn hbus hp⟩

end Sys2Proof.Machine
end

section
/-! PROOF. The registers, the output lines and the serial port (R166, R185, R186, R193): what a transaction of any bits does,
and what SDO gives over one; O58. -/

namespace Sys2Proof.Machine

/-! ### The registers as read and written (R185, R186) -/

section
variable (p : Part)

/-- R185: CONTROL as read. -/
theorem Registers.control_eq (r : Registers) :
    r.control = (if r.run then 1#32 else 0#32) + (if r.freeze then 4#32 else 0#32) := by
  unfold Registers.control
  cases r.run <;> cases r.freeze <;> rfl

/-- R186: ATTN, by the bits of the flags and the enables. -/
theorem Part.attn_iff :
    p.attn = true ↔ ∃ i, p.rep.attention.getLsbD i = true ∧ p.regs.attentionEnable.getLsbD i = true := by
  rw [Part.attn, decide_eq_true_eq, not_iff_comm]
  simp only [not_exists, not_and, Bool.not_eq_true]
  refine ⟨fun h => BitVec.eq_of_getLsbD_eq fun i hi => ?_, fun h i ha => ?_⟩
  · rw [BitVec.getLsbD_and]
    cases ha : p.rep.attention.getLsbD i with
    | false => simp
    | true => simp [h i ha]
  · have hbit := congrArg (·.getLsbD i) h
    simpa [ha] using hbit

/-- R186: the flags are numbered in order. -/
theorem Flag.bit_of_getElem? {i : Nat} {f : Flag}
    (h : [Flag.switchDone, .switchRefused, .journey, .amend, .noticeDrop, .panel, .groupSyncFail, .trainSync, .memory,
      .content][i]? = some f) : f.bit = i := by
  have hbits : (List.range 10)[i]? = some f.bit := by
    have hmap := congrArg (Option.map Flag.bit) h
    rwa [← List.getElem?_map] at hmap
  obtain ⟨hi, heq⟩ := List.getElem?_eq_some_iff.mp hbits
  rw [← heq, List.getElem_range]

/-- R168: WINDOW_BASE keeps the upper half of the word written. -/
theorem and_upperHalf (v : Word) : (v &&& 0xFFFF0000#32).toNat = v.toNat / 65536 * 65536 := by
  have hshift : v &&& 0xFFFF0000#32 = (v >>> 16) <<< 16 := by
    refine BitVec.eq_of_getLsbD_eq fun i hi => ?_
    have hmask : (0xFFFF0000#32).getLsbD i = decide (16 ≤ i) := by
      revert i
      decide
    rw [BitVec.getLsbD_and, hmask, BitVec.getLsbD_shiftLeft, BitVec.getLsbD_ushiftRight]
    by_cases hlow : 16 ≤ i
    · simp only [hlow, hi, decide_true, Nat.add_sub_cancel' hlow, Nat.not_lt.mpr hlow, decide_false, Bool.and_true,
        Bool.not_false, Bool.true_and]
    · simp only [hlow, Nat.lt_of_not_le hlow, decide_false, decide_true, Bool.and_false, Bool.not_true, Bool.false_and]
  have hlt : v.toNat < 4294967296 := v.isLt
  rw [hshift, BitVec.toNat_shiftLeft, BitVec.toNat_ushiftRight, Nat.shiftRight_eq_div_pow, Nat.shiftLeft_eq]
  exact Nat.mod_eq_of_lt (by omega)

/-! ### The output lines (R166) -/

theorem LineCtl.anyOffline_iff (c : LineCtl) : c.anyOffline = true ↔ ∃ q ∈ c.panels, q.health = .offline := by
  simp [LineCtl.anyOffline]

theorem Chime.sounding_iff (c : Chime) : c.sounding = true ↔ ∃ tone, c.playing = some tone ∧ tone.on = true := by
  unfold Chime.sounding
  cases c.playing <;> simp

/-- R166: a panel of some line is OFFLINE. -/
theorem Part.panelFault_iff :
    p.sourceActive .panelFault = true ↔ ∃ l : Line, ∃ q ∈ (p.line l).panels, q.health = .offline := by
  simp only [Part.sourceActive, Bool.or_eq_true, LineCtl.anyOffline_iff]
  refine ⟨fun h => ?_, fun ⟨l, hl⟩ => ?_⟩
  · rcases h with (h | h) | h
    · exact ⟨.seat, h⟩
    · exact ⟨.end_, h⟩
    · exact ⟨.door, h⟩
  · cases l with
    | seat => exact .inl (.inl hl)
    | end_ => exact .inl (.inr hl)
    | door => exact .inr hl

/-- R166: the level of an output line. -/
theorem Part.outLevel_eq {i : Nat} {o : OutSetting} (h : p.swp.outs[i]? = some o) :
    p.outLevel i = if p.sourceActive o.source then !o.invert else o.invert := by
  simp only [Part.outLevel, h]
  cases p.sourceActive o.source <;> cases o.invert <;> rfl

end

/-! ### The bits of a transaction (R193) -/

/-- The bits of a command byte. -/
def commandBits (write u1 u2 u3 u4 : Bool) (n : Nat) : List Bool :=
  [write, u1, u2, u3, u4, n.testBit 2, n.testBit 1, n.testBit 0]

section
variable (write u1 u2 u3 u4 : Bool) {n : Nat}

theorem commandBits_length : (commandBits write u1 u2 u3 u4 n).length = 8 := rfl

theorem commandBits_number (hn : n < 8) : bitsValue (((commandBits write u1 u2 u3 u4 n).drop 5).take 3) = n := by
  show bitsValue [n.testBit 2, n.testBit 1, n.testBit 0] = n
  revert n
  decide

/-- R193: a write's bits, of which those after the 40th are ignored. -/
theorem serialWrite_command (hn : n < 8) (v : Word) (more : List Bool) :
    serialWrite (commandBits true u1 u2 u3 u4 n ++ serialReply v ++ more) = some (n, v) := by
  have hlong : ¬((commandBits true u1 u2 u3 u4 n ++ serialReply v ++ more).length < 40 ∨
      (commandBits true u1 u2 u3 u4 n ++ serialReply v ++ more).head? ≠ some true) := by
    simp [commandBits, serialReply_length]
  have hnumber : ((commandBits true u1 u2 u3 u4 n ++ serialReply v ++ more).drop 5).take 3
      = ((commandBits true u1 u2 u3 u4 n).drop 5).take 3 := rfl
  have hdata : ((commandBits true u1 u2 u3 u4 n ++ serialReply v ++ more).drop 8).take 32 = serialReply v := by
    show (serialReply v ++ more).take 32 = serialReply v
    rw [← serialReply_length v, List.take_left]
  rw [serialWrite, if_neg hlong, hnumber, hdata, commandBits_number _ _ _ _ _ hn, serialData_serialReply]

/-- R193: a read's command byte. -/
theorem serialRead_command (hn : n < 8) (more : List Bool) :
    serialRead (commandBits false u1 u2 u3 u4 n ++ more) = some n := by
  have hlong : ¬((commandBits false u1 u2 u3 u4 n ++ more).length < 8 ∨
      (commandBits false u1 u2 u3 u4 n ++ more).head? ≠ some false) := by
    simp [commandBits]
  rw [serialRead, if_neg hlong]
  exact congrArg some (commandBits_number false u1 u2 u3 u4 hn)

/-- The bits that `portWrite` sends. -/
theorem writeBits_eq (hn : n < 8) (v : Word) :
    writeBits n v = commandBits true false false false false n ++ serialReply v := by
  refine congrArg (· ++ serialReply v) ?_
  revert n
  decide

/-- R193: the data bits of a value, byte by byte, each most significant bit first. -/
theorem serialReply_bytes (v : Word) :
    serialReply v = [0, 1, 2, 3].flatMap (fun i => byteBits (v.toNat / 256 ^ i % 256)) := by
  rw [serialReply_eq]
  simp

/-- Only the first 40 bits count. -/
theorem serialWrite_take (bits : List Bool) : serialWrite (bits.take 40) = serialWrite bits := by
  have hlength : (bits.take 40).length < 40 ↔ bits.length < 40 := by
    rw [List.length_take]
    omega
  have hhead : (bits.take 40).head? = bits.head? := by cases bits <;> rfl
  have hnumber : ((bits.take 40).drop 5).take 3 = (bits.drop 5).take 3 := by simp [List.drop_take, List.take_take]
  have hdata : ((bits.take 40).drop 8).take 32 = (bits.drop 8).take 32 := by simp [List.drop_take, List.take_take]
  simp only [serialWrite, hlength, hhead, hnumber, hdata]

end

/-! ### One edge of SCK -/

section
variable {p : Part}

/-- A rising edge takes a bit, and acts. -/
theorem Part.clockBit_taken (hselected : p.spi.selected = true) (hawait : p.spi.awaitHigh = false)
    (hroom : p.spi.bits.length < 40) (b : Bool) :
    p.clockBit b = Part.actOnBits (p.setSpi { p.spi with bits := p.spi.bits ++ [b] }) :=
  if_pos ⟨hselected, hawait, hroom⟩

/-- A read captures its register at the 8th bit. -/
theorem Part.actOnBits_read (hlength : p.spi.bits.length = 8) {n : Nat} (hread : serialRead p.spi.bits = some n) :
    p.actOnBits = p.setSpi { p.spi with captured := some (p.readRegister n) } := by
  simp only [Part.actOnBits, if_pos hlength, hread]
  rfl

/-- A write is taken at the 40th bit. -/
theorem Part.actOnBits_write (hlength : p.spi.bits.length = 40) {n : Nat} {v : Word}
    (hwrite : serialWrite p.spi.bits = some (n, v)) : p.actOnBits = p.writeRegister n v := by
  have hlate : p.spi.bits.length ≠ 8 := by omega
  simp only [Part.actOnBits, if_neg hlate, if_pos hlength, hwrite]

/-- After the 8th bit nothing but a write acts. -/
theorem Part.actOnBits_none (hlate : p.spi.bits.length ≠ 8) (hnot : serialWrite p.spi.bits = none) :
    p.actOnBits = p := by
  simp only [Part.actOnBits, if_neg hlate, hnot, ite_self]

/-- A rising edge that is not the 40th of a write changes the port alone, and not SDO. -/
theorem Part.clockBit_port (b : Bool) (h : p.spi.bits.length ≠ 39 ∨ p.spi.bits.head? = some false) :
    ∃ bits captured, p.clockBit b = p.setSpi { p.spi with bits := bits, captured := captured } ∧
      (bits = p.spi.bits ∨ bits = p.spi.bits ++ [b]) := by
  by_cases htaken : p.spi.selected = true ∧ p.spi.awaitHigh = false ∧ p.spi.bits.length < 40
  · rw [Part.clockBit, if_pos htaken]
    unfold Part.actOnBits
    split
    · split
      · exact ⟨_, _, rfl, .inr rfl⟩
      · exact ⟨_, p.spi.captured, rfl, .inr rfl⟩
    · split
      · next hlength =>
        have hfull : p.spi.bits.length = 39 := by simpa using hlength
        have hread : p.spi.bits.head? = some false := h.resolve_left (not_not.mpr hfull)
        have hnot : serialWrite (p.spi.bits ++ [b]) = none := by
          simp [serialWrite, hread]
        rw [hnot]
        exact ⟨_, p.spi.captured, rfl, .inr rfl⟩
      · exact ⟨_, p.spi.captured, rfl, .inr rfl⟩
  · exact ⟨p.spi.bits, p.spi.captured, by rw [Part.clockBit, if_neg htaken]; rfl, .inl rfl⟩

theorem Part.clockFall_off (h : p.spi.selected = false ∨ p.spi.awaitHigh = true) : p.clockFall = p := by
  refine if_neg fun ⟨hselected, hawait⟩ => ?_
  rcases h with h | h <;> simp_all

theorem Part.clockBit_off (h : p.spi.selected = false ∨ p.spi.awaitHigh = true) (b : Bool) : p.clockBit b = p := by
  refine if_neg fun ⟨hselected, hawait, _⟩ => ?_
  rcases h with h | h <;> simp_all

theorem Part.clockFall_on (h : p.spi.selected = true) (h' : p.spi.awaitHigh = false) :
    p.clockFall = p.setSpi p.spi.shift := if_pos ⟨h, h'⟩

/-! ### Whole transactions -/

/-- R193: bits that write nothing change the port alone. -/
theorem Part.clockCycles_port (bits : List Bool) : ∀ q : Part,
    q.spi.bits.length + bits.length < 40 ∨ q.spi.bits.head? = some false →
      ∃ x : Port, bits.foldl Part.clockCycle q = q.setSpi x := by
  induction bits with
  | nil => exact fun q _ => ⟨q.spi, rfl⟩
  | cons b rest ih =>
    intro q h
    obtain ⟨level, hfall⟩ := q.clockFall_eq
    have hbits : q.clockFall.spi.bits = q.spi.bits := by rw [hfall]; rfl
    rw [List.length_cons] at h
    obtain ⟨bits', captured, hbit, htaken⟩ := Part.clockBit_port (p := q.clockFall) b (by
      rw [hbits]
      exact h.imp_left fun hl => by omega)
    rw [hbits] at htaken
    obtain ⟨x, hx⟩ := ih (q.clockCycle b) (by
      rw [Part.clockCycle, hbit]
      show bits'.length + rest.length < 40 ∨ bits'.head? = some false
      rcases htaken with rfl | rfl
      · exact h.imp_left fun hl => by omega
      · refine h.imp (fun hl => ?_) fun hread => ?_
        · rw [List.length_append, List.length_singleton]
          omega
        · rw [List.head?_append, hread]
          rfl)
    refine ⟨x, ?_⟩
    rw [List.foldl_cons, hx, Part.clockCycle, hbit, hfall]
    rfl

/-- R193: a transaction that writes nothing. -/
theorem Part.transact_none {bits : List Bool} (h : bits.length < 40 ∨ bits.head? = some false) :
    p.transact bits = { p with spi := Port.idle } := by
  have hport : ∃ x : Port, bits.foldl Part.clockCycle (p.setSpi (Port.during [])) = p.setSpi x := by
    rcases h with hshort | hread
    · exact Part.clockCycles_port bits _ (.inl (by simpa [Port.during, Part.setSpi] using hshort))
    · cases bits with
      | nil => cases hread
      | cons b rest =>
        obtain rfl : b = false := by simpa using hread
        have hfirst : (p.setSpi (Port.during [])).clockCycle false = p.setSpi (Port.during [false]) := rfl
        obtain ⟨x, hx⟩ := Part.clockCycles_port rest (p.setSpi (Port.during [false])) (.inr rfl)
        exact ⟨x, by rw [List.foldl_cons, hfirst, hx]; rfl⟩
  obtain ⟨x, hx⟩ := hport
  have hstart : p.selectRise.selectFall = p.setSpi (Port.during []) := rfl
  rw [Part.transact, hstart, hx]
  rfl

/-- The port takes no more bits of the transaction. -/
def Port.deaf (s : Port) : Prop := s.awaitHigh = true ∨ s.bits.length = 40

/-- R193: later bits are ignored. -/
theorem Part.clockCycles_deaf (bits : List Bool) : ∀ q : Part, q.spi.deaf →
    (bits.foldl Part.clockCycle q).selectRise = q.selectRise := by
  induction bits with
  | nil => exact fun _ _ => rfl
  | cons b rest ih =>
    intro q h
    obtain ⟨level, hfall⟩ := q.clockFall_eq
    have hcycle : q.clockCycle b = q.setSpi { q.spi with sending := level } := by
      rw [Part.clockCycle, hfall]
      refine if_neg fun ⟨_, hawait, hlength⟩ => ?_
      exact h.elim (fun ha => absurd (ha.symm.trans hawait) nofun) fun hl => absurd hl (Nat.ne_of_lt hlength)
    rw [List.foldl_cons, hcycle]
    exact ih (q.setSpi { q.spi with sending := level }) h

/-- R185, R190: a register write keeps the port, but for the engine reset, after which it waits. -/
theorem Part.writeRegister_spi (n : Nat) (v : Word) :
    (p.writeRegister n v).spi = p.spi ∨ (p.writeRegister n v).spi = p.spi.afterReset := by
  unfold Part.writeRegister
  split
  · unfold Part.writeControl
    split
    · exact .inr rfl
    · exact .inl (by simp)
  · unfold Part.writeWindowBase
    split <;> exact .inl rfl
  · exact .inl rfl
  · exact .inl rfl
  · exact .inl rfl

/-- R193: a transaction that writes a register. -/
theorem Part.transact_write {bits : List Bool} {n : Nat} {v : Word} (h : serialWrite bits = some (n, v)) :
    p.transact bits = { p.writeRegister n v with spi := Port.idle } := by
  obtain ⟨hlength, hhead⟩ : 40 ≤ bits.length ∧ bits.head? = some true := by
    by_contra hcon
    rw [serialWrite, if_pos (by rw [← Nat.not_le]; tauto)] at h
    cases h
  obtain ⟨front, last, rest, rfl, hfront⟩ : ∃ front last rest, bits = front ++ last :: rest ∧ front.length = 39 :=
    ⟨bits.take 39, bits[39], bits.drop 40, by simp, by simp; omega⟩
  have htake : (front ++ last :: rest).take 40 = front ++ [last] := by
    simp [List.take_append, hfront, List.take_of_length_le]
  have hwrite : serialWrite (front ++ [last]) = some (n, v) := by rw [← htake, serialWrite_take, h]
  have htrue : front.head? = some true := by
    cases front with
    | nil => cases hfront
    | cons x xs => simpa using hhead
  have hact : (p.setSpi (Port.during front)).clockCycle last
      = (p.setSpi (Port.during (front ++ [last]))).writeRegister n v := by
    have hroom : front.length < 40 := by omega
    have hfull : (front ++ [last]).length = 40 := by simp [hfront]
    rw [Part.clockCycle, Part.clockFall_during, Part.clockBit_taken rfl rfl hroom]
    exact Part.actOnBits_write (p := p.setSpi (Port.during (front ++ [last]))) hfull hwrite
  have hdeaf : ((p.setSpi (Port.during (front ++ [last]))).writeRegister n v).spi.deaf := by
    rcases Part.writeRegister_spi (p := p.setSpi (Port.during (front ++ [last]))) n v with hspi | hspi
    · rw [hspi]
      exact .inr (by simp [Part.setSpi, Port.during, hfront])
    · rw [hspi]
      exact .inl rfl
  have hstart : p.selectRise.selectFall = p.setSpi (Port.during []) := rfl
  rw [Part.transact, hstart, List.foldl_append, List.foldl_cons,
    Part.clockBits_write p front [] (by simp [hfront]) (by simpa using htrue), List.nil_append, hact,
    Part.clockCycles_deaf rest _ hdeaf]
  exact Part.writeRegister_setSpi p _ Port.idle n v

end

/-! ### SDO over a read (R193) -/

theorem Part.sdoBits_append (xs ys : List Bool) : ∀ p : Part,
    Part.sdoBits p (xs ++ ys) = Part.sdoBits p xs ++ Part.sdoBits (xs.foldl Part.clockCycle p) ys := by
  induction xs with
  | nil => exact fun p => rfl
  | cons b xs ih => exact fun p => congrArg (_ :: ·) (ih (p.clockCycle b))

/-- The port once a read has captured its register. -/
def Port.answering (v : Word) (bits : List Bool) (sending : Option Bool) : Port :=
  { selected := true, awaitHigh := false, bits := bits, captured := some v, sending := sending }

section
variable {p : Part} {v : Word} {bits : List Bool} {sending : Option Bool}

/-- A falling edge puts the value's next bit on SDO. -/
theorem Part.clockFall_answering : (p.setSpi (Port.answering v bits sending)).clockFall
    = p.setSpi (Port.answering v bits (serialReply v)[bits.length - 8]?) := rfl

/-- A rising edge takes a bit that nothing acts on. -/
theorem Part.clockBit_answering (hread : bits.head? = some false) (hlow : 8 ≤ bits.length) (hroom : bits.length < 40)
    (b : Bool) : (p.setSpi (Port.answering v bits sending)).clockBit b
      = p.setSpi (Port.answering v (bits ++ [b]) sending) := by
  have hnot : serialWrite (bits ++ [b]) = none := by simp [serialWrite, hread]
  have hlate : (bits ++ [b]).length ≠ 8 := by simp; omega
  rw [Part.clockBit_taken rfl rfl hroom]
  exact Part.actOnBits_none (p := p.setSpi (Port.answering v (bits ++ [b]) sending)) hlate hnot

/-- SDO gives the value's bits in turn. -/
theorem Part.sdoBits_data (data : List Bool) : ∀ bits sending, bits.head? = some false → 8 ≤ bits.length →
    bits.length + data.length = 40 →
    Part.sdoBits (p.setSpi (Port.answering v bits sending)) data
      = ((serialReply v).drop (bits.length - 8)).map (fun b => .driven (some b)) ∧
    ∃ last, data.foldl Part.clockCycle (p.setSpi (Port.answering v bits sending))
      = p.setSpi (Port.answering v (bits ++ data) last) := by
  induction data with
  | nil =>
    intro bits sending _ _ hlength
    rw [List.length_nil, Nat.add_zero] at hlength
    refine ⟨?_, sending, by rw [List.append_nil]; rfl⟩
    rw [hlength, List.drop_of_length_le (by rw [serialReply_length])]
    rfl
  | cons b rest ih =>
    intro bits sending hread hlow hlength
    rw [List.length_cons] at hlength
    have hbound : bits.length - 8 < (serialReply v).length := by
      rw [serialReply_length]
      omega
    have hcycle : (p.setSpi (Port.answering v bits sending)).clockCycle b
        = p.setSpi (Port.answering v (bits ++ [b]) (serialReply v)[bits.length - 8]?) := by
      rw [Part.clockCycle, Part.clockFall_answering, Part.clockBit_answering hread hlow (by omega)]
    obtain ⟨hsdo, last, hlast⟩ := ih (bits ++ [b]) (serialReply v)[bits.length - 8]? (by simp [hread]) (by simp; omega)
      (by simp; omega)
    have hsucc : (bits ++ [b]).length - 8 = bits.length - 8 + 1 := by simp; omega
    refine ⟨?_, last, ?_⟩
    · rw [Part.sdoBits, hcycle, hsdo, hsucc, Part.clockFall_answering, List.drop_eq_getElem_cons hbound, List.map_cons]
      rw [List.getElem?_eq_getElem hbound]
      rfl
    · rw [List.foldl_cons, hcycle, hlast]
      simp

/-- After the 40th bit SDO has no level. -/
theorem Part.sdoBits_after (more : List Bool) : ∀ sending, bits.length = 40 →
    Part.sdoBits (p.setSpi (Port.answering v bits sending)) more = List.replicate more.length (.driven none) := by
  induction more with
  | nil => exact fun _ _ => rfl
  | cons b rest ih =>
    intro sending hlength
    have hnone : (serialReply v)[bits.length - 8]? = none := by
      rw [List.getElem?_eq_none_iff, serialReply_length]
      omega
    have hcycle : (p.setSpi (Port.answering v bits sending)).clockCycle b = p.setSpi (Port.answering v bits none) := by
      rw [Part.clockCycle, Part.clockFall_answering, hnone]
      refine if_neg fun ⟨_, _, hroom⟩ => ?_
      exact absurd hlength (Nat.ne_of_lt hroom)
    rw [Part.sdoBits, hcycle, ih none hlength, Part.clockFall_answering, hnone]
    rfl

end

/-- Before its 8th bit a transaction gives no level on SDO, and nothing acts. -/
theorem Part.clockCycles_early (p : Part) (more : List Bool) : ∀ bits : List Bool, bits.length + more.length < 8 →
    Part.sdoBits (p.setSpi (Port.during bits)) more = List.replicate more.length (.driven none) ∧
    more.foldl Part.clockCycle (p.setSpi (Port.during bits)) = p.setSpi (Port.during (bits ++ more)) := by
  induction more with
  | nil => exact fun bits _ => ⟨rfl, by rw [List.append_nil]; rfl⟩
  | cons b rest ih =>
    intro bits h
    rw [List.length_cons] at h
    have hcycle : (p.setSpi (Port.during bits)).clockCycle b = p.setSpi (Port.during (bits ++ [b])) := by
      rw [Part.clockCycle, Part.clockFall_during, p.clockBit_quiet bits b (by omega) (by omega)]
    obtain ⟨hsdo, hlast⟩ := ih (bits ++ [b]) (by simp; omega)
    refine ⟨?_, by rw [List.foldl_cons, hcycle, hlast, List.append_assoc]; rfl⟩
    rw [Part.sdoBits, hcycle, hsdo]
    rfl

/-- R193: the command byte of a read captures its register. -/
theorem Part.readCommand (p : Part) (u1 u2 u3 u4 : Bool) {n : Nat} (hn : n < 8) :
    Part.sdoBits (p.setSpi (Port.during [])) (commandBits false u1 u2 u3 u4 n) = List.replicate 8 (.driven none) ∧
    (commandBits false u1 u2 u3 u4 n).foldl Part.clockCycle (p.setSpi (Port.during []))
      = p.setSpi (Port.answering (p.readRegister n) (commandBits false u1 u2 u3 u4 n) none) := by
  have hsplit : commandBits false u1 u2 u3 u4 n
      = [false, u1, u2, u3, u4, n.testBit 2, n.testBit 1] ++ [n.testBit 0] := rfl
  obtain ⟨hsdo, hseven⟩ := p.clockCycles_early [false, u1, u2, u3, u4, n.testBit 2, n.testBit 1] [] (by simp)
  have hread : serialRead (commandBits false u1 u2 u3 u4 n) = some n := by
    have hcommand := serialRead_command u1 u2 u3 u4 hn []
    rwa [List.append_nil] at hcommand
  refine ⟨?_, ?_⟩
  · rw [hsplit, Part.sdoBits_append, hsdo, hseven]
    rfl
  · rw [hsplit, List.foldl_append, hseven, List.foldl_cons, List.foldl_nil, Part.clockCycle, Part.clockFall_during,
      Part.clockBit_taken rfl rfl (by simp [Part.setSpi, Port.during])]
    exact Part.actOnBits_read (p := p.setSpi (Port.during (commandBits false u1 u2 u3 u4 n))) rfl hread

/-- R193: SDO over a read. -/
theorem Part.replyBits_read (p : Part) (u1 u2 u3 u4 : Bool) {n : Nat} (hn : n < 8) (v : Word) (more : List Bool)
    (hv : p.readRegister n = v) :
    p.replyBits (commandBits false u1 u2 u3 u4 n ++ serialReply v ++ more) = List.replicate 8 (.driven none) ++
      (serialReply v).map (fun b => .driven (some b)) ++ List.replicate more.length (.driven none) := by
  let command := commandBits false u1 u2 u3 u4 n
  have hstart : p.selectRise.selectFall = p.setSpi (Port.during []) := rfl
  obtain ⟨hcommand, hcaptured⟩ := p.readCommand u1 u2 u3 u4 hn
  rw [hv] at hcaptured
  obtain ⟨hdata, last, hlast⟩ := Part.sdoBits_data (p := p) (v := v) (serialReply v) command none rfl (Nat.le_refl 8)
    (by rw [serialReply_length]; rfl)
  have hafter := Part.sdoBits_after (p := p) (v := v) (bits := command ++ serialReply v) more last
    (by rw [List.length_append, serialReply_length]; rfl)
  rw [Part.replyBits, hstart, Part.sdoBits_append, Part.sdoBits_append, List.foldl_append, hcommand, hcaptured, hdata,
    hlast, hafter]
  rfl

/-! ### The statement -/

section
variable (p : Part)

/-- 11.7: what each register reads. -/
theorem Part.readRegister_eq : p.readRegister 0 = 0x72400001#32 ∧
    p.readRegister 1 = (if p.regs.run then 1#32 else 0#32) + (if p.regs.freeze then 4#32 else 0#32) ∧
    p.readRegister 2 = p.regs.windowBase ∧ (p.readRegister 3).toNat = p.rep.attention.toNat ∧
    (p.readRegister 4).toNat = p.regs.attentionEnable.toNat ∧ ∀ n, 5 ≤ n → p.readRegister n = 0#32 := by
  refine ⟨rfl, p.regs.control_eq, rfl, ?_, ?_, fun n hn => ?_⟩
  · exact BitVec.toNat_setWidth_of_le (by decide)
  · exact BitVec.toNat_setWidth_of_le (by decide)
  · unfold Part.readRegister
    split
    case h_6 => rfl
    all_goals omega

/-- R166: each output source, by what makes it active. -/
theorem Part.sourceActive_iff (source : OutSource) :
    let active := p.sourceActive source
    (source = .off → active = false) ∧ (source = .on → active = true) ∧
    (source = .chime → (active = true ↔ ∃ tone, p.swp.chime.playing = some tone ∧ tone.on = true)) ∧
    (source = .doorsReleased → (active = true ↔ p.odo.door = .released)) ∧
    (source = .moving → (active = true ↔ p.odo.motion = .moving)) ∧
    (source = .sweepPulse → (active = true ↔ p.swp.sweepPulse ≠ none)) ∧
    (source = .panelFault → (active = true ↔ ∃ l : Line, ∃ q ∈ (p.line l).panels, q.health = .offline)) ∧
    (source = .attention → (active = true ↔ p.attn = true)) := by
  refine ⟨?_, ?_, ?_, ?_, ?_, ?_, ?_, ?_⟩ <;> rintro rfl
  · rfl
  · rfl
  · exact p.swp.chime.sounding_iff
  · exact decide_eq_true_iff
  · exact decide_eq_true_iff
  · exact Option.isSome_iff_ne_none
  · exact p.panelFault_iff
  · exact Iff.rfl

/-- R186: a write to ATTENTION clears the flags of its bits. -/
theorem attention_cleared (flags : BitVec 10) (v : Word) {i : Nat} (hi : i < 10) :
    (flags &&& ~~~(v.setWidth 10)).getLsbD i = (flags.getLsbD i && !v.getLsbD i) := by
  rw [BitVec.getLsbD_and, BitVec.getLsbD_not, BitVec.getLsbD_setWidth, decide_eq_true hi, Bool.true_and, Bool.true_and]

/-- R186: a write to ATTENTION_ENABLE takes its ten bits. -/
theorem enables_written (v : Word) {i : Nat} (hi : i < 10) : (v.setWidth 10).getLsbD i = v.getLsbD i := by
  rw [BitVec.getLsbD_setWidth, decide_eq_true hi, Bool.true_and]

/-- R193: SDO while SSEL is high and while it is low. -/
theorem Port.sdo_eq (x : Port) :
    (x.selected = false → x.sdo = .released) ∧ (x.selected = true → x.sdo = .driven x.sending) := by
  refine ⟨fun h => ?_, fun h => ?_⟩ <;> simp [Port.sdo, h]

/-- R193: a falling edge puts the captured value's next bit on SDO. -/
theorem Part.clockFall_level (hselected : p.spi.selected = true) (hawait : p.spi.awaitHigh = false) :
    (p.spi.captured = none → p.clockFall = { p with spi := { p.spi with sending := none } }) ∧
    ∀ v, p.spi.captured = some v →
      p.clockFall = { p with spi := { p.spi with sending := (serialReply v)[p.spi.bits.length - 8]? } } := by
  rw [Part.clockFall_on hselected hawait]
  exact ⟨fun h => by simp only [Port.shift, h]; rfl, fun v h => by simp only [Port.shift, h]; rfl⟩

/-- A rising edge leaves SDO, but for the 40th of a write. -/
theorem Part.clockBit_sdo (b : Bool) (h : p.spi.bits.length ≠ 39 ∨ p.spi.bits.head? = some false) :
    (p.clockBit b).spi.sdo = p.spi.sdo := by
  obtain ⟨bits, captured, hbit, -⟩ := Part.clockBit_port b h
  rw [hbit]
  rfl

end

/-- Settles O58, by the registers one by one, and the port edge by edge over a transaction. -/
theorem registersReadAndWritten : Obligations.RegistersReadAndWritten := by
  refine ⟨fun p => ?_, fun p i f hf => ?_, fun p i o ho => ⟨p.sourceActive o.source, p.outLevel_eq ho,
    p.sourceActive_iff o.source⟩, fun s v => ?_, fun n v u1 u2 u3 u4 more hn => ?_, fun p bits sdi => ?_⟩
  · obtain ⟨h0, h1, h2, h3, h4, h5⟩ := p.readRegister_eq
    exact ⟨h0, h1, h2, h3, h4, h5, p.attn_iff⟩
  · rw [← Flag.bit_of_getElem? hf]
    rfl
  · intro seen
    have written (c : Instr) (n : Nat) (hn : n < 8) (hc : exec c s = s.onPart (·.portWrite n v)) {q : Part}
        (hq : { s.part.writeRegister n v with spi := Port.idle } = q) : exec c s = .next { s with part := q } :=
      exec_next (·.portWrite n v) hc ((s.part.portWrite_eq hn v).trans hq)
    refine ⟨fun hrun => written _ 2 (by decide) rfl ?_, fun hrun => ⟨_, written _ 2 (by decide) rfl ?_, and_upperHalf v⟩,
      ⟨_, written _ 3 (by decide) rfl rfl, fun i hi => attention_cleared _ v hi⟩,
      ⟨_, written _ 4 (by decide) rfl rfl, fun i hi => enables_written v hi⟩, fun n hn => ?_⟩
    · exact congrArg (Part.setSpi · Port.idle) (if_pos hrun : s.part.writeWindowBase v = s.part)
    · have hbase : s.part.writeWindowBase v
          = { s.part with regs := { s.part.regs with windowBase := v &&& 0xFFFF0000#32 } } :=
        if_neg (by rw [hrun]; decide)
      exact congrArg (Part.setSpi · Port.idle) hbase
    · rcases hn with rfl | rfl | rfl | rfl <;> exact written _ _ (by decide) rfl rfl
  · intro msbFirst data command
    have hdata : data = serialReply v := (serialReply_bytes v).symm
    have hwrite := serialWrite_command u1 u2 u3 u4 hn v more
    have hlength : data.length = 32 := by rw [hdata, serialReply_length]
    have hshort : (command true ++ data.take 31).length < 40 := by
      rw [List.length_append, List.length_take, hlength]
      exact (by decide : 8 + min 31 32 < 40)
    rw [← hdata] at hwrite
    refine ⟨hwrite, if_pos (.inl hshort), if_pos (.inr nofun), serialRead_command u1 u2 u3 u4 hn more, hdata.symm, fun p =>
      ⟨Part.transact_write hwrite, ?_, Part.transact_none (.inr rfl), fun hv => ?_⟩⟩
    · rw [Part.portWrite, writeBits_eq hn, ← hdata]
      rfl
    · have hreply := p.replyBits_read u1 u2 u3 u4 hn v more hv
      rwa [← hdata] at hreply
  · obtain ⟨hreleased, hdriven⟩ := p.spi.sdo_eq
    exact ⟨fun h => Part.transact_none (.inl h), rfl, rfl, fun h => if_pos h, fun h => if_neg (by rw [h]; decide),
      hreleased, hdriven, fun h => ⟨Part.clockBit_off h sdi, Part.clockFall_off h⟩, p.clockFall_level, p.clockBit_sdo sdi,
      rfl, rfl⟩

end Sys2Proof.Machine
end

section
/-! PROOF. The writes to CONTROL (R185): RUN and FREEZE as they become 0 and 1; O59. -/

namespace Sys2Proof.Machine

/-! ### The bits of CONTROL that a write sets -/

theorem getLsbD_setBit (v : Word) {i j : Nat} (hj : j < 32) :
    (setBit v i).getLsbD j = (v.getLsbD j || decide (j = i)) := by
  rw [setBit, BitVec.getLsbD_or, BitVec.getLsbD_shiftLeft, BitVec.getLsbD_one]
  by_cases h : j = i
  · simp [h, h ▸ hj]
  · by_cases hlow : j < i
    · simp [h, hlow]
    · have hhigh : j - i ≠ 0 := by omega
      simp [h, hhigh]

theorem getLsbD_clearBit (v : Word) {i j : Nat} (hj : j < 32) :
    (clearBit v i).getLsbD j = (v.getLsbD j && !decide (j = i)) := by
  have hset := getLsbD_setBit 0#32 (i := i) hj
  rw [setBit, BitVec.zero_or, BitVec.getLsbD_zero, Bool.false_or] at hset
  rw [clearBit, BitVec.getLsbD_and, BitVec.getLsbD_not, hset]
  simp [hj]

section
variable (p : Part) {v : Word}

/-- R185: a write to CONTROL with RESET clear, as RUN and FREEZE take it, and the port idle after it. -/
theorem Part.portWrite_control (h : v.getLsbD 1 = false) :
    p.portWrite 1 v = ((p.setSpi Port.idle).writeRun (v.getLsbD 0)).writeFreeze (v.getLsbD 2) := by
  rw [Part.portWrite_eq p (by decide), Part.writeRun_setSpi, Part.writeFreeze_setSpi]
  simp only [Part.writeRegister, Part.writeControl, h, Bool.false_eq_true, if_false]
  rfl

end

section
variable (s : State) (v : Word)

/-- The part once RUN and FREEZE have been written on the port. -/
def State.controlled (s : State) (run freeze : Bool) : State :=
  { s with part := ((s.part.setSpi Port.idle).writeRun run).writeFreeze freeze }

theorem exec_control {c : Instr} {u : Word} {run freeze : Bool} (hc : exec c s = s.onPart (·.portWrite 1 u))
    (hreset : u.getLsbD 1 = false) (hrun : u.getLsbD 0 = run) (hfreeze : u.getLsbD 2 = freeze) :
    exec c s = .next (s.controlled run freeze) := by
  subst hrun hfreeze
  exact exec_next (·.portWrite 1 u) hc (s.part.portWrite_control hreset)

/-- The bits of a word with RESET clear and another bit set. -/
theorem setBit_bits (i : Nat) {j : Nat} (hj : j < 32) :
    (setBit (clearBit v 1) i).getLsbD j = (v.getLsbD j && !decide (j = 1) || decide (j = i)) := by
  rw [getLsbD_setBit _ hj, getLsbD_clearBit _ hj]

/-- The bits of a word with RESET and another bit clear. -/
theorem clearBit_bits (i : Nat) {j : Nat} (hj : j < 32) :
    (clearBit (clearBit v 1) i).getLsbD j = (v.getLsbD j && !decide (j = 1) && !decide (j = i)) := by
  rw [getLsbD_clearBit _ hj, getLsbD_clearBit _ hj]

theorem exec_runSet : exec (.runSet v) s = .next (s.controlled true (v.getLsbD 2)) :=
  exec_control s (u := setBit (clearBit v 1) 0) rfl (by rw [setBit_bits v 0 (by decide)]; simp)
    (by rw [setBit_bits v 0 (by decide)]; simp) (by rw [setBit_bits v 0 (by decide)]; simp)

theorem exec_runClear : exec (.runClear v) s = .next (s.controlled false (v.getLsbD 2)) :=
  exec_control s (u := clearBit (clearBit v 1) 0) rfl (by rw [clearBit_bits v 0 (by decide)]; simp)
    (by rw [clearBit_bits v 0 (by decide)]; simp) (by rw [clearBit_bits v 0 (by decide)]; simp)

theorem exec_freezeSet : exec (.freezeSet v) s = .next (s.controlled (v.getLsbD 0) true) :=
  exec_control s (u := setBit (clearBit v 1) 2) rfl (by rw [setBit_bits v 2 (by decide)]; simp)
    (by rw [setBit_bits v 2 (by decide)]; simp) (by rw [setBit_bits v 2 (by decide)]; simp)

theorem exec_freezeClear : exec (.freezeClear v) s = .next (s.controlled (v.getLsbD 0) false) :=
  exec_control s (u := clearBit (clearBit v 1) 2) rfl (by rw [clearBit_bits v 2 (by decide)]; simp)
    (by rw [clearBit_bits v 2 (by decide)]; simp) (by rw [clearBit_bits v 2 (by decide)]; simp)

/-- The FREEZE bit set and cleared in a word. -/
theorem freezeBit_or : (v ||| 4#32).getLsbD 2 = true := by simp

theorem freezeBit_and : (v &&& 0xFFFFFFFB#32).getLsbD 2 = false := by simp

end

/-! ### RUN becomes 1 (R164, R189) -/

section
variable (p : Part)

theorem Part.writeRun_same {run : Bool} (h : p.regs.run = run) : p.writeRun run = p := if_pos h.symm

theorem Part.writeRun_start (h : p.regs.run = false) : p.writeRun true = p.startRunning := by
  simp [Part.writeRun, h]

theorem Part.writeRun_stop (h : p.regs.run = true) : p.writeRun false = p.stopRun := by
  simp [Part.writeRun, h]

/-- R164: in FOLLOWING the silence deadline is set. -/
theorem Part.startRunning_following (h : p.swp.sync = .following) : p.startRunning = { p with
    regs := { p.regs with run := true }
    swp := { p.swp with silence := some (p.swp.ms + BitVec.ofNat 32 (3 * p.swp.period)) } } :=
  if_neg fun hown => p.swp.sync.ownTimed_iff.mp hown h

/-- R189: the part as its own boundary is made at once. -/
def Part.begun (p : Part) : Part := { p with
  regs := { p.regs with run := true }
  swp := { p.swp with nextDue := some p.swp.ms } }

theorem Part.startRunning_own (h : p.swp.sync ≠ .following) : p.startRunning = p.begun.ownBoundary :=
  if_pos (p.swp.sync.ownTimed_iff.mpr h)

/-- R189: that boundary is due. -/
theorem Part.begun_boundary (h : p.swp.sync ≠ .following) :
    p.begun.ownBoundary.ed.boundary = true ∧
      p.begun.ownBoundary.swp.last = some { us := p.swp.us, ms := p.swp.ms } := by
  have hdue : p.begun.boundaryDue = true :=
    p.begun.boundaryDue_iff.mpr ⟨rfl, h, (reachedOpt_iff p.swp.ms (some p.swp.ms)).mp (reachedOpt_now p.swp.ms)⟩
  rw [Part.ownBoundary_due hdue]
  exact ⟨rfl, rfl⟩

end

/-! ### RUN becomes 0 (R187) -/

/-- What the status page and the head block show of a kind's live copy. -/
def KindState.sameLive (x y : KindState) : Prop :=
  y.live = x.live ∧ y.liveAddress = x.liveAddress ∧ y.liveEdition = x.liveEdition ∧ y.result = x.result

section
variable {x y z : KindState}

theorem KindState.sameLive.refl (x : KindState) : x.sameLive x := ⟨rfl, rfl, rfl, rfl⟩

theorem KindState.sameLive.trans (h : x.sameLive y) (h' : y.sameLive z) : x.sameLive z := by
  obtain ⟨hlive, haddress, hedition, hresult⟩ := h
  obtain ⟨hlive', haddress', hedition', hresult'⟩ := h'
  exact ⟨hlive'.trans hlive, haddress'.trans haddress, hedition'.trans hedition, hresult'.trans hresult⟩

theorem KindState.sameLive_unpin (x : KindState) (c : Copy) : x.sameLive (x.unpin c) := by
  cases c <;> exact ⟨rfl, rfl, rfl, rfl⟩

theorem KindState.sameLive_abandon (x : KindState) : x.sameLive x.abandon := by
  unfold KindState.abandon
  split
  · exact .refl x
  · exact x.sameLive_unpin _

theorem KindState.sameLive_dropLoad (x : KindState) (l : LoadState) : x.sameLive (x.dropLoad l) := by
  cases l with
  | loading c a e => exact x.sameLive_unpin c
  | idle | owed => exact .refl x

theorem Part.sameLive_unpinnedContent (p : Part) (x : KindState) : x.sameLive (p.unpinnedContent x) := by
  unfold Part.unpinnedContent
  split
  · exact .refl x
  · exact x.sameLive_unpin _

end

section
variable (p : Part)

/-- R187: what stays of each kind's state. -/
theorem Part.stopRun_kind (k : Kind) :
    (p.stopRun.ed.kind k).switch = none ∧ (p.ed.kind k).sameLive (p.stopRun.ed.kind k) := by
  refine ⟨p.stopRun_atRest.switches k, ?_⟩
  rw [p.stopRun_ed]
  cases k with
  | coachProfile => exact KindState.sameLive_abandon _
  | stopList => exact (KindState.sameLive_abandon _).trans (KindState.sameLive_dropLoad _ _)
  | reservationTable => exact (KindState.sameLive_abandon _).trans (KindState.sameLive_dropLoad _ _)
  | noticeTable => exact (KindState.sameLive_abandon _).trans (KindState.sameLive_dropLoad _ _)
  | contentSet => exact (KindState.sameLive_abandon _).trans (p.sameLive_unpinnedContent _)

/-- R46: a load told or in flight is owed. -/
theorem oweLoad_iff (l : LoadState) (told : Nat) :
    oweLoad l told = if l = .idle ∧ told = 0 then .idle else .owed := by
  cases l <;> simp [oweLoad]

/-- R187, R188: the delivery run cut off, by its stage. -/
theorem Part.cutRun_stage :
    (p.ed.run = none → p.cutRun.ed.run = none ∧ p.cutRun.ed.owed = p.ed.owed) ∧
    ∀ run, p.ed.run = some run →
      (run.stage = .reading → p.cutRun.ed.run = none ∧ p.cutRun.ed.owed = p.ed.owed) ∧
      (∀ a, run.stage = .handed a → p.cutRun.ed.run = some { run with cut := true } ∧ p.cutRun.ed.owed = p.ed.owed) ∧
      (∀ r, run.stage = .answered r → p.cutRun.ed.run = none ∧
        p.cutRun.ed.owed = p.ed.owed ++ [.amend (run.list + 32 * p.ed.take) r]) := by
  refine ⟨fun h => ?_, fun run h => ⟨fun hstage => ?_, fun a hstage => ?_, fun r hstage => ?_⟩⟩
  · simp only [Part.cutRun, h, and_self]
  · simp only [Part.cutRun, h, hstage]
    exact ⟨rfl, rfl⟩
  · simp only [Part.cutRun, h, hstage]
    exact ⟨rfl, rfl⟩
  · simp only [Part.cutRun, h, hstage]
    exact ⟨rfl, rfl⟩

/-! ### The composition in flight (R122) -/

/-- The composer as RUN becomes 0, but for the mark of the panel whose composition ends. -/
def Composer.cutOff (d : Composer) (c : Composition) : Composer := { d with
  comp := none
  slots := changeAt (fun _ => Slot.freed) c.slot d.slots
  decoder := d.decoder.start }

/-- R122: the panel whose composition ends is marked. -/
def Part.remarks (p : Part) (c : Composition) : Prop :=
  c.address ∉ p.cmp.refresh c.line ∧ ((p.line c.line).health c.address).drawn = true ∧
    p.cmp.configured c.line c.address = true

/-- The part as its composition stops: its composer and its lines are those of the running part. -/
theorem Part.stopRun_composer :
    p.stopRun.cmp = p.halted.cutRun.stopLoads.stopComposition.cmp ∧ p.halted.cutRun.stopLoads.cmp = p.cmp ∧
      ∀ l, p.halted.cutRun.stopLoads.line l = p.line l := by
  refine ⟨rfl, ?_, fun l => ?_⟩
  · rw [Part.stopLoads_eq, p.halted.cutRun_eq]
    rfl
  · rw [Part.stopLoads_eq, p.halted.cutRun_eq]
    cases l <;> rfl

theorem Part.stopRun_cmp_none (h : p.cmp.comp = none) : p.stopRun.cmp = p.cmp := by
  obtain ⟨hstop, hcmp, -⟩ := p.stopRun_composer
  rw [← hcmp] at h
  rw [hstop, Part.stopComposition, h]
  exact hcmp

variable {p} {c : Composition} (hc : p.cmp.comp = some c)
include hc

theorem Part.stopRun_cmp_some :
    (p.remarks c → p.stopRun.cmp = (p.cmp.cutOff c).setRefresh c.line (p.cmp.refresh c.line ++ [c.address])) ∧
    (¬ p.remarks c → p.stopRun.cmp = p.cmp.cutOff c) := by
  obtain ⟨hstop, hcmp, hline⟩ := p.stopRun_composer
  let q : Part := p.halted.cutRun.stopLoads
  have hq : q.cmp.comp = some c := by rw [← hc, ← hcmp]
  have hdropped : q.dropComposition.cmp = p.cmp.cutOff c := by
    rw [Part.dropComposition_eq hq, ← hcmp]
    rfl
  have hrefresh : q.dropComposition.cmp.refresh c.line = p.cmp.refresh c.line := by rw [hdropped]; rfl
  have hlines : q.dropComposition.line c.line = p.line c.line := by
    rw [← hline c.line, Part.dropComposition_eq hq]
    cases c.line <;> rfl
  have hmark : p.stopRun.cmp = (q.dropComposition.markPanel c.line c.address).cmp := by
    rw [hstop]
    show q.stopComposition.cmp = _
    simp only [Part.stopComposition, hq]
  rw [hmark, Part.markPanel_eq, hrefresh, hlines, hdropped]
  exact ⟨fun h => congrArg Part.cmp (if_pos h), fun h => (congrArg Part.cmp (if_neg h)).trans hdropped⟩

/-- R122: what stays of the composer, and the slot, the decoder and the refresh list of the composition that ends. -/
theorem Part.stopRun_composition :
    (∀ i, i ≠ c.slot → p.stopRun.cmp.slots[i]? = p.cmp.slots[i]?) ∧
    (c.slot < p.cmp.slots.length → p.stopRun.cmp.slots[c.slot]? = some Slot.freed) ∧
    (∀ l, l ≠ c.line → p.stopRun.cmp.refresh l = p.cmp.refresh l) ∧
    p.stopRun.cmp.decoder = { p.cmp.decoder with buffer := [], bitPos := 0, pixelIndex := 0, ink := false } ∧
    (p.remarks c → p.stopRun.cmp.refresh c.line = p.cmp.refresh c.line ++ [c.address]) ∧
    (¬ p.remarks c → p.stopRun.cmp.refresh c.line = p.cmp.refresh c.line) := by
  obtain ⟨hmarked, hunmarked⟩ := Part.stopRun_cmp_some hc
  obtain ⟨hslots, hdecoder, hother⟩ : p.stopRun.cmp.slots = (p.cmp.cutOff c).slots ∧
      p.stopRun.cmp.decoder = p.cmp.decoder.start ∧
      ∀ l, l ≠ c.line → p.stopRun.cmp.refresh l = p.cmp.refresh l := by
    by_cases h : p.remarks c
    · rw [hmarked h]
      exact ⟨by simp, by simp [Composer.cutOff], fun l hl => Composer.refresh_setRefresh_of_ne _ _ hl⟩
    · rw [hunmarked h]
      exact ⟨rfl, rfl, fun _ _ => rfl⟩
  refine ⟨fun i hi => ?_, fun hslot => ?_, hother, hdecoder, fun h => ?_, fun h => ?_⟩
  · rw [hslots, Composer.cutOff, getElem?_changeAt, if_neg hi]
  · rw [hslots, Composer.cutOff, getElem?_changeAt, if_pos rfl, List.getElem?_eq_getElem hslot]
    rfl
  · rw [hmarked h, Composer.refresh_setRefresh]
  · rw [hunmarked h]
    rfl

end

section
variable (p : Part)

/-- R122: the rest of the composer stays. -/
theorem Part.stopRun_cmp_frame : { p.stopRun.cmp with
    comp := p.cmp.comp, slots := p.cmp.slots, decoder := p.cmp.decoder, refreshSeat := p.cmp.refreshSeat
    refreshEnd := p.cmp.refreshEnd, refreshDoor := p.cmp.refreshDoor } = p.cmp := by
  cases hc : p.cmp.comp with
  | none =>
    rw [p.stopRun_cmp_none hc, ← hc]
  | some c =>
    obtain ⟨hmarked, hunmarked⟩ := Part.stopRun_cmp_some hc
    by_cases h : p.remarks c
    · rw [hmarked h, ← hc]
      cases c.line <;> rfl
    · rw [hunmarked h, ← hc]
      rfl

theorem Part.stopRun_lines (l : Line) : p.stopRun.line l = { p.line l with boundaries := 0 } := by
  obtain ⟨-, -, hline⟩ := p.stopRun_composer
  have hdropped : p.stopRun.line l = (p.halted.cutRun.stopLoads.stopComposition.line l).dropBoundaries := by
    cases l <;> rfl
  have hstays : p.halted.cutRun.stopLoads.stopComposition.line l = p.halted.cutRun.stopLoads.line l := by
    cases l <;> simp [Part.line]
  rw [hdropped, hstays, hline]
  rfl

theorem Part.stopRun_regs :
    p.stopRun.regs = { p.regs with run := false } ∧ p.stopRun.swp = p.swp.stop := by
  simp only [Part.stopRun_eq, Part.dropBoundaries_keeps, Part.stopComposition_keeps, Part.stopLoads_keeps,
    Part.cutRun_keeps]
  exact ⟨rfl, rfl⟩

/-- R122: what is marked, in the statement's order. -/
theorem Part.remarks_iff (c : Composition) : p.remarks c ↔ ((p.line c.line).health c.address).drawn = true ∧
    c.address ∉ p.cmp.refresh c.line ∧ ∃ q ∈ p.cmp.panels, q.line = c.line ∧ q.address = c.address := by
  simp only [Part.remarks, Composer.configured, List.any_eq_true, Bool.and_eq_true, decide_eq_true_eq, beq_iff_eq]
  tauto

end

/-- Settles O59, by what RUN and FREEZE do as they change, and the part that stops block by block. -/
theorem controlSetsRunAndFreeze : Obligations.ControlSetsRunAndFreeze := by
  intro s v seen freeze frozen running w
  have hset : exec (.runSet v) s = .next { s with part := (seen.writeRun true).writeFreeze freeze } := exec_runSet s v
  have hclear : exec (.runClear v) s = .next { s with part := (seen.writeRun false).writeFreeze freeze } :=
    exec_runClear s v
  refine ⟨fun hrun => ?_, fun hrun => ?_, fun hrun hsync => ?_, fun hrun hsync => ?_, fun hrun => ?_, fun hbit => ?_,
    fun hbit => ?_⟩
  · rw [hset, seen.writeRun_same hrun]
    rfl
  · rw [hclear, seen.writeRun_same hrun]
    rfl
  · rw [hset, seen.writeRun_start hrun, seen.startRunning_following hsync]
    rfl
  · obtain ⟨hboundary, hlast⟩ := seen.begun_boundary hsync
    refine ⟨{ s with part := seen.begun.ownBoundary }, exec_sweepBoundary { s with part := seen.begun }, hboundary, hlast,
      ?_⟩
    rw [hset, seen.writeRun_start hrun, seen.startRunning_own hsync]
    rfl
  · obtain ⟨hregs, hswp⟩ := seen.stopRun_regs
    obtain ⟨hmem, hpins, hspi, hodo, hfree, -⟩ := seen.stopRun_keeps
    obtain ⟨htrk, hres, hntc⟩ := seen.stopRun_loads
    obtain ⟨hnoRun, hstage⟩ := seen.halted.cutRun_stage
    have hed := seen.stopRun_ed
    simp only [oweLoad_iff] at htrk hres hntc
    refine ⟨seen.stopRun, ?_, hregs, hmem, hodo, hswp, seen.stopRun_kind, ?_, ?_, ?_, ?_, ?_, ⟨htrk, hres, hntc⟩, ?_,
      seen.stopRun_rep, seen.stopRun_atRest.comp, seen.stopRun_cmp_frame, seen.stopRun_cmp_none, fun c hc => ?_,
      seen.stopRun_lines, hpins, hspi, hfree⟩
    · rw [hclear, seen.writeRun_stop hrun]
      rfl
    · rw [hed]
    · rw [hed]
    · rw [hed]
    · rw [hed]
      exact hnoRun
    · rw [hed]
      exact hstage
    · have hrunKept : seen.halted.cutRun.ed.run = seen.stopRun.ed.run := by rw [hed]
      have howedKept : seen.halted.cutRun.ed.owed = seen.stopRun.ed.owed := by rw [hed]
      rw [hrunKept, howedKept] at hed
      exact hed
    · obtain ⟨hslots, hslot, hother, hdecoder, hmarked, hunmarked⟩ := Part.stopRun_composition (p := seen) hc
      rw [Part.remarks_iff] at hmarked hunmarked
      exact ⟨hslots, hslot, hother, hdecoder, hmarked, hunmarked⟩
  · rw [exec_freezeSet, exec_freezeClear, exec_runSet, exec_runSet, freezeBit_or, freezeBit_and, hbit]
    exact ⟨rfl, rfl⟩
  · rw [exec_freezeSet, exec_freezeClear, exec_runClear, exec_runClear, freezeBit_or, freezeBit_and, hbit]
    exact ⟨rfl, rfl⟩

end Sys2Proof.Machine
end

section
/-! PROOF. The queue (O1), and what the elements of a composition are drawn from (11.4, R109 to R113, R53, R54, R121):
where the fields stand, and that a read that fails is that of a byte. -/

namespace Sys2Proof.Machine

/-- Settles O1: `step` takes the command at the front of the queue. -/
theorem stepRunsFrontCommand : Obligations.StepRunsFrontCommand := fun _ _ => rfl

/-! ### Pages (11.4) -/

/-- 11.4: a page descriptor's fields. -/
theorem View.pageHead_eq_ok {v : View} {a : Nat} {h : PageHead} : v.pageHead a = .ok h ↔ v.u16 a = .ok h.width ∧
    v.u8 (a + 2) = .ok h.height ∧ v.u8 (a + 3) = .ok h.paper ∧ v.u8 (a + 4) = .ok h.windows := by
  simp only [View.pageHead, bind_eq_ok_iff, Except.ok.injEq]
  constructor
  · rintro ⟨width, hwidth, height, hheight, paper, hpaper, windows, hwindows, rfl⟩
    exact ⟨hwidth, hheight, hpaper, hwindows⟩
  · rintro ⟨hwidth, hheight, hpaper, hwindows⟩
    exact ⟨_, hwidth, _, hheight, _, hpaper, _, hwindows, rfl⟩

/-- 11.4: the page table's offset, and a page's place in it. -/
theorem View.pageAddress_eq_ok {v : View} {copy index address : Nat} : v.pageAddress copy index = .ok address ↔
    ∃ table, v.u32 (copy + 0x10) = .ok table ∧ address = copy + table + 104 * index := by
  simp only [View.pageAddress, bind_eq_ok_iff, Except.ok.injEq, eq_comm (a := address)]

/-- 11.4: the page of an index. -/
theorem View.pageAt_eq_ok {v : View} {copy index address : Nat} {h : PageHead} :
    v.pageAt copy index = .ok (address, h) ↔ ∃ table, v.u32 (copy + 0x10) = .ok table ∧
      address = copy + table + 104 * index ∧ v.u16 address = .ok h.width ∧ v.u8 (address + 2) = .ok h.height ∧
      v.u8 (address + 3) = .ok h.paper ∧ v.u8 (address + 4) = .ok h.windows := by
  simp only [View.pageAt, bind_eq_ok_iff, Except.ok.injEq, Prod.mk.injEq, View.pageAddress_eq_ok]
  constructor
  · rintro ⟨_, ⟨table, htable, haddress⟩, _, hhead, rfl, rfl⟩
    exact ⟨table, htable, haddress, View.pageHead_eq_ok.mp hhead⟩
  · rintro ⟨table, htable, haddress, hhead⟩
    exact ⟨_, ⟨table, htable, haddress⟩, _, View.pageHead_eq_ok.mpr hhead, rfl, rfl⟩

/-- R121: a page's size and paper, without its windows. -/
theorem View.pagePaper_eq_ok {v : View} {copy index address : Nat} {h : PageHead} :
    v.pagePaper copy index = .ok (address, h) ↔ ∃ table, v.u32 (copy + 0x10) = .ok table ∧
      address = copy + table + 104 * index ∧ v.u16 address = .ok h.width ∧ v.u8 (address + 2) = .ok h.height ∧
      v.u8 (address + 3) = .ok h.paper ∧ h.windows = 0 := by
  simp only [View.pagePaper, bind_eq_ok_iff, Except.ok.injEq, Prod.mk.injEq, View.pageAddress_eq_ok]
  constructor
  · rintro ⟨_, ⟨table, htable, haddress⟩, width, hwidth, height, hheight, paper, hpaper, rfl, rfl⟩
    exact ⟨table, htable, haddress, hwidth, hheight, hpaper, rfl⟩
  · rintro ⟨table, htable, haddress, hwidth, hheight, hpaper, hwindows⟩
    refine ⟨_, ⟨table, htable, haddress⟩, _, hwidth, _, hheight, _, hpaper, rfl, ?_⟩
    rw [← hwindows]

theorem View.failsAtByte_pageHead (v : View) (a : Nat) : v.failsAtByte (v.pageHead a) :=
  View.failsAtByte_bind (v.failsAtByte_field _ 2) fun _ => View.failsAtByte_bind (v.failsAtByte_field _ 1) fun _ =>
    View.failsAtByte_bind (v.failsAtByte_field _ 1) fun _ => View.failsAtByte_bind (v.failsAtByte_field _ 1) fun _ =>
      v.failsAtByte_ok _

theorem View.failsAtByte_pageAt (v : View) (copy index : Nat) : v.failsAtByte (v.pageAt copy index) :=
  View.failsAtByte_bind (View.failsAtByte_bind (v.failsAtByte_field _ 4) fun _ => v.failsAtByte_ok _) fun _ =>
    View.failsAtByte_bind (v.failsAtByte_pageHead _) fun _ => v.failsAtByte_ok _

/-! ### Windows (11.4) -/

section
variable {v : View} {a : Nat} {k : WindowKind}

/-- 11.4: what stands in a TEXT window from byte 5 on. -/
theorem View.windowKind_text : v.windowKind a 1 = .ok k ↔
    ∃ ink paper zoomH zoomV flags speed field fixed,
      v.u8 (a + 5) = .ok ink ∧ v.u8 (a + 6) = .ok paper ∧ v.u8 (a + 7) = .ok zoomH ∧ v.u8 (a + 8) = .ok zoomV ∧
      v.u8 (a + 9) = .ok flags ∧ v.u8 (a + 10) = .ok speed ∧ v.u8 (a + 11) = .ok field ∧
      v.u16 (a + 12) = .ok fixed ∧ k = .text ink paper zoomH zoomV (flags.testBit 0) (flags.testBit 1) speed
        field (if fixed = 65535 then none else some fixed) := by
  simp only [View.windowKind, bind_eq_ok_iff, Except.ok.injEq, optional16, eq_comm (b := k), exists_and_left]

/-- 11.4: what stands in a BAR window from byte 5 on. -/
theorem View.windowKind_bar : v.windowKind a 2 = .ok k ↔ ∃ ink paper border, v.u8 (a + 5) = .ok ink ∧
    v.u8 (a + 6) = .ok paper ∧ v.u8 (a + 7) = .ok border ∧ k = .bar ink paper border := by
  simp only [View.windowKind, bind_eq_ok_iff, Except.ok.injEq, eq_comm (b := k), exists_and_left]

/-- 11.4: what stands in a STRIP window from byte 5 on. -/
theorem View.windowKind_strip : v.windowKind a 3 = .ok k ↔ ∃ index y0 fy marker, v.u8 (a + 5) = .ok index ∧
    v.u8 (a + 6) = .ok y0 ∧ v.u8 (a + 7) = .ok fy ∧ v.u8 (a + 8) = .ok marker ∧
      k = .strip index y0 fy (decide (marker ≠ 0)) := by
  simp only [View.windowKind, bind_eq_ok_iff, Except.ok.injEq, eq_comm (b := k), exists_and_left]

/-- 11.4: what stands in a FILL window from byte 5 on. -/
theorem View.windowKind_fill : v.windowKind a 4 = .ok k ↔ ∃ n, v.u8 (a + 5) = .ok n ∧ k = .fill n := by
  simp only [View.windowKind, bind_eq_ok_iff, Except.ok.injEq, eq_comm (b := k)]

/-- Log 49: of a kind code that 11.4 does not name nothing is read. -/
theorem View.windowKind_unnamed {code : Nat} (h : code = 0 ∨ 4 < code) : v.windowKind a code = .ok .other := by
  unfold View.windowKind
  split
  all_goals first | omega | rfl

end

/-- 11.4: what stands in a window from byte 5 on, by its kind code. -/
theorem View.windowKind_eq_ok {v : View} {a code : Nat} {k : WindowKind} : v.windowKind a code = .ok k ↔
    (code = 1 ∧ ∃ ink paper zoomH zoomV flags speed field fixed,
      v.u8 (a + 5) = .ok ink ∧ v.u8 (a + 6) = .ok paper ∧ v.u8 (a + 7) = .ok zoomH ∧ v.u8 (a + 8) = .ok zoomV ∧
      v.u8 (a + 9) = .ok flags ∧ v.u8 (a + 10) = .ok speed ∧ v.u8 (a + 11) = .ok field ∧
      v.u16 (a + 12) = .ok fixed ∧ k = .text ink paper zoomH zoomV (flags.testBit 0) (flags.testBit 1) speed
        field (if fixed = 65535 then none else some fixed)) ∨
    (code = 2 ∧ ∃ ink paper border, v.u8 (a + 5) = .ok ink ∧ v.u8 (a + 6) = .ok paper ∧
      v.u8 (a + 7) = .ok border ∧ k = .bar ink paper border) ∨
    (code = 3 ∧ ∃ index y0 fy marker, v.u8 (a + 5) = .ok index ∧ v.u8 (a + 6) = .ok y0 ∧ v.u8 (a + 7) = .ok fy ∧
      v.u8 (a + 8) = .ok marker ∧ k = .strip index y0 fy (decide (marker ≠ 0))) ∨
    (code = 4 ∧ ∃ n, v.u8 (a + 5) = .ok n ∧ k = .fill n) ∨ ((code = 0 ∨ 4 < code) ∧ k = .other) := by
  rw [← View.windowKind_text, ← View.windowKind_bar, ← View.windowKind_strip, ← View.windowKind_fill]
  by_cases hcode : code = 0 ∨ 4 < code
  · have hnot : code ≠ 1 ∧ code ≠ 2 ∧ code ≠ 3 ∧ code ≠ 4 := by omega
    simp only [View.windowKind_unnamed hcode, hcode, hnot, Except.ok.injEq, false_and, false_or, true_and, eq_comm]
  · have hnamed : code = 1 ∨ code = 2 ∨ code = 3 ∨ code = 4 := by omega
    rcases hnamed with rfl | rfl | rfl | rfl <;> simp

/-- 11.4: a window place's fields. -/
theorem View.window_eq_ok {v : View} {a : Nat} {w : Window} : v.window a = .ok w ↔ ∃ code, v.u8 a = .ok code ∧
    v.u8 (a + 1) = .ok w.startCol ∧ v.u8 (a + 2) = .ok w.stopCol ∧ v.u8 (a + 3) = .ok w.startRow ∧
    v.u8 (a + 4) = .ok w.stopRow ∧ v.windowKind a code = .ok w.kind := by
  simp only [View.window, bind_eq_ok_iff, Except.ok.injEq]
  constructor
  · rintro ⟨code, hcode, _, hstartCol, _, hstopCol, _, hstartRow, _, hstopRow, kind, hkind, rfl⟩
    exact ⟨code, hcode, hstartCol, hstopCol, hstartRow, hstopRow, hkind⟩
  · rintro ⟨code, hcode, hstartCol, hstopCol, hstartRow, hstopRow, hkind⟩
    exact ⟨code, hcode, _, hstartCol, _, hstopCol, _, hstartRow, _, hstopRow, _, hkind, rfl⟩

theorem View.failsAtByte_windowKind (v : View) (a code : Nat) : v.failsAtByte (v.windowKind a code) := by
  have hbyte {β : Type} (o : Nat) {g : Nat → Except MemFail β} (hg : ∀ n, v.failsAtByte (g n)) :
      v.failsAtByte (v.u8 o >>= g) := View.failsAtByte_bind (v.failsAtByte_field _ 1) hg
  unfold View.windowKind
  split
  · exact hbyte _ fun _ => hbyte _ fun _ => hbyte _ fun _ => hbyte _ fun _ => hbyte _ fun _ => hbyte _ fun _ =>
      hbyte _ fun _ => View.failsAtByte_bind (v.failsAtByte_field _ 2) fun _ => v.failsAtByte_ok _
  · exact hbyte _ fun _ => hbyte _ fun _ => hbyte _ fun _ => v.failsAtByte_ok _
  · exact hbyte _ fun _ => hbyte _ fun _ => hbyte _ fun _ => hbyte _ fun _ => v.failsAtByte_ok _
  · exact hbyte _ fun _ => v.failsAtByte_ok _
  · exact v.failsAtByte_ok _

theorem View.failsAtByte_window (v : View) (a : Nat) : v.failsAtByte (v.window a) :=
  View.failsAtByte_bind (v.failsAtByte_field _ 1) fun _ => View.failsAtByte_bind (v.failsAtByte_field _ 1) fun _ =>
    View.failsAtByte_bind (v.failsAtByte_field _ 1) fun _ => View.failsAtByte_bind (v.failsAtByte_field _ 1) fun _ =>
      View.failsAtByte_bind (v.failsAtByte_field _ 1) fun _ =>
        View.failsAtByte_bind (v.failsAtByte_windowKind a _) fun _ => v.failsAtByte_ok _

/-! ### The page and the seat of an area (R113) -/

/-- R75: the seat of a half is the first in store order that sits there. -/
theorem Reservations.seatAt_first {r : Reservations} {a : Nat} {half : SeatHalf} {i : Nat} {q : Seat}
    (hq : r.seats[i]? = some q) (hsits : q.address = a ∧ q.half = half)
    (hbefore : ∀ (j : Nat) (x : Seat), j < i → r.seats[j]? = some x → ¬(x.address = a ∧ x.half = half)) :
    r.seatAt a half = some q := by
  obtain ⟨hi, rfl⟩ := List.getElem?_eq_some_iff.mp hq
  refine List.find?_eq_some_iff_getElem.mpr ⟨by simpa using hsits, i, hi, rfl, fun j hj => ?_⟩
  simpa [imp_iff_not_or] using hbefore j _ hj (List.getElem?_eq_getElem (hj.trans hi))

/-- R75: an empty half. -/
theorem Reservations.seatAt_none {r : Reservations} {a : Nat} {half : SeatHalf}
    (h : ∀ q ∈ r.seats, ¬(q.address = a ∧ q.half = half)) : r.seatAt a half = none :=
  List.find?_eq_none.mpr fun q hq => by simpa using h q hq

/-- R113: an area of a seat-label module shows the page of the display state of the seat in its half. -/
theorem Part.presentPage_seat {p : Part} {a : Nat} {area : Area} {half : SeatHalf} {q : Seat}
    (h : area.half = some half) (hq : p.res.seatAt a half = some q) : p.presentPage .seat a area
      = (p.res.pages.bind (fun pages => pages[q.display.page]?), some q.number) := by
  simp only [Part.presentPage, h, hq]

/-- R113: an area whose half has no seat shows no page. -/
theorem Part.presentPage_empty {p : Part} {a : Nat} {area : Area} {half : SeatHalf} (h : area.half = some half)
    (hq : p.res.seatAt a half = none) : p.presentPage .seat a area = (none, none) := by
  simp only [Part.presentPage, h, hq]

/-! ### Source pixels of a strip (R53, R54) -/

/-- R53: a row or column of the source, the last one repeated. -/
theorem clampTo_eq (size n : Nat) : clampTo size n = if n < size then n else size - 1 := by
  unfold clampTo
  split <;> omega

theorem View.stripPixel_eq_ok {v : View} {copy row col q : Nat} {s : StripHeader} :
    v.stripPixel copy s row col = .ok q ↔
      ∃ b, v.byte (copy + s.pixels + clampTo s.height row * s.width + clampTo s.width col) = .ok b ∧ q = b.toNat := by
  unfold View.stripPixel
  split
  · next f hf => simp [hf]
  · next b hb => simp [hb, eq_comm]

theorem View.failsAtByte_stripPixel (v : View) (copy row col : Nat) (s : StripHeader) :
    v.failsAtByte (v.stripPixel copy s row col) := by
  intro f h
  unfold View.stripPixel at h
  split at h
  · next e he => exact v.failsAtByte_byte _ f (Except.error.inj h ▸ he)
  · cases h

/-- R53, R54: an output pixel, of its four source pixels. -/
theorem View.stripOutput_eq_ok {v : View} {copy u y0 fy i j q : Nat} {s : StripHeader} :
    v.stripOutput copy s u y0 fy i j = .ok q ↔
      let source (y x : Nat) := v.byte (copy + s.pixels + clampTo s.height y * s.width + clampTo s.width x)
      ∃ ul ur ll lr : Byte, source (y0 + i) (u / 16 + j) = .ok ul ∧ source (y0 + i) (u / 16 + j + 1) = .ok ur ∧
        source (y0 + i + 1) (u / 16 + j) = .ok ll ∧ source (y0 + i + 1) (u / 16 + j + 1) = .ok lr ∧
        q = filterPixel ul.toNat ur.toNat ll.toNat lr.toNat (u % 16) fy := by
  simp only [View.stripOutput, bind_eq_ok_iff, Except.ok.injEq, View.stripPixel_eq_ok]
  constructor
  · rintro ⟨_, ⟨ul, hul, rfl⟩, _, ⟨ur, hur, rfl⟩, _, ⟨ll, hll, rfl⟩, _, ⟨lr, hlr, rfl⟩, rfl⟩
    exact ⟨ul, ur, ll, lr, hul, hur, hll, hlr, rfl⟩
  · rintro ⟨ul, ur, ll, lr, hul, hur, hll, hlr, rfl⟩
    exact ⟨_, ⟨ul, hul, rfl⟩, _, ⟨ur, hur, rfl⟩, _, ⟨ll, hll, rfl⟩, _, ⟨lr, hlr, rfl⟩, rfl⟩

theorem View.failsAtByte_stripOutput (v : View) (copy u y0 fy i j : Nat) (s : StripHeader) :
    v.failsAtByte (v.stripOutput copy s u y0 fy i j) :=
  View.failsAtByte_bind (v.failsAtByte_stripPixel _ _ _ s) fun _ =>
    View.failsAtByte_bind (v.failsAtByte_stripPixel _ _ _ s) fun _ =>
      View.failsAtByte_bind (v.failsAtByte_stripPixel _ _ _ s) fun _ =>
        View.failsAtByte_bind (v.failsAtByte_stripPixel _ _ _ s) fun _ => v.failsAtByte_ok _

/-! ### Strings (R109, R121) -/

/-- R121: the characters of a string are its bytes, up to the first that cannot be read. -/
theorem View.characters_spec (v : View) (n a : Nat) :
    (∀ (i c : Nat), (v.characters n a).1[i]? = some c → ∃ b, v.byte (a + i) = .ok b ∧ c = b.toNat) ∧
      ((v.characters n a).2 = none → (v.characters n a).1.length = n) ∧
      ∀ f, (v.characters n a).2 = some f →
        (v.characters n a).1.length < n ∧ v.byte (a + (v.characters n a).1.length) = .error f := by
  induction n generalizing a with
  | zero => exact ⟨fun i c h => (nomatch h), fun _ => rfl, nofun⟩
  | succ n ih =>
    unfold View.characters
    cases hb : v.byte a with
    | error e =>
      refine ⟨fun i c h => (nomatch h), nofun, fun f hf => ⟨Nat.succ_pos n, ?_⟩⟩
      exact hb.trans (congrArg Except.error (Option.some.inj hf))
    | ok b =>
      obtain ⟨hchars, hwhole, hcut⟩ := ih (a + 1)
      refine ⟨fun i c h => ?_, fun h => congrArg (· + 1) (hwhole h), fun f hf => ?_⟩
      · cases i with
        | zero => exact ⟨b, hb, (Option.some.inj h).symm⟩
        | succ i =>
          rw [Nat.add_comm i 1, ← Nat.add_assoc]
          exact hchars i c h
      · obtain ⟨hlen, hbyte⟩ := hcut f hf
        refine ⟨Nat.succ_lt_succ hlen, ?_⟩
        rw [List.length_cons, Nat.add_comm _ 1, ← Nat.add_assoc]
        exact hbyte

section
variable {v : View} {copy pool o : Nat}

/-- R109: a reference outside the pool. -/
theorem View.poolString_outside (h : pool ≤ o) : v.poolString copy pool (some o) = ([], none) := if_pos h

section
variable (h : o < pool)
include h

/-- Log 83: the pool's offset cannot be read. -/
theorem View.poolString_unplaced {f : MemFail} (hstart : v.u32 (copy + 0x14) = .error f) :
    v.poolString copy pool (some o) = ([], some f) := by
  simp only [View.poolString, if_neg (Nat.not_le.mpr h), hstart]

section
variable {start : Nat} (hstart : v.u32 (copy + 0x14) = .ok start)
include hstart

/-- R121: the string's length cannot be read. -/
theorem View.poolString_unread {f : MemFail} (hn : v.u8 (copy + start + o) = .error f) :
    v.poolString copy pool (some o) = ([], some f) := by
  simp only [View.poolString, if_neg (Nat.not_le.mpr h), hstart, hn]

/-- R109: a string, by its length. -/
theorem View.poolString_read {n : Nat} (hn : v.u8 (copy + start + o) = .ok n) :
    v.poolString copy pool (some o)
      = if 48 < n ∨ pool < o + 1 + n then ([], none) else v.characters n (copy + start + o + 1) := by
  simp only [View.poolString, if_neg (Nat.not_le.mpr h), hstart, hn]

end
end
end

/-! ### Glyph records (11.4, R121) -/

/-- 11.4: a glyph record's fields. -/
theorem View.glyph_eq_ok {v : View} {a : Nat} {g : GlyphRecord} : v.glyph a = .ok g ↔ ∃ m, v.u8 a = .ok g.width ∧
    v.u8 (a + 1) = .ok g.height ∧ v.u8 (a + 2) = .ok m ∧ g.advance = m % 64 ∧ v.u16 (a + 4) = .ok g.offset ∧
    v.u16 (a + 6) = .ok g.length := by
  simp only [View.glyph, bind_eq_ok_iff, Except.ok.injEq]
  constructor
  · rintro ⟨width, hwidth, height, hheight, m, hm, offset, hoffset, length, hlength, rfl⟩
    exact ⟨m, hwidth, hheight, hm, rfl, hoffset, hlength⟩
  · rintro ⟨m, hwidth, hheight, hm, hadvance, hoffset, hlength⟩
    refine ⟨_, hwidth, _, hheight, m, hm, _, hoffset, _, hlength, ?_⟩
    rw [← hadvance]

theorem View.failsAtByte_glyph (v : View) (a : Nat) : v.failsAtByte (v.glyph a) :=
  View.failsAtByte_bind (v.failsAtByte_field _ 1) fun _ => View.failsAtByte_bind (v.failsAtByte_field _ 1) fun _ =>
    View.failsAtByte_bind (v.failsAtByte_field _ 1) fun _ => View.failsAtByte_bind (v.failsAtByte_field _ 2) fun _ =>
      View.failsAtByte_bind (v.failsAtByte_field _ 2) fun _ => v.failsAtByte_ok _

/-- Bytes are read one after another. -/
theorem View.bytes_succ_eq_ok {v : View} {a n : Nat} {bs : List Byte} : v.bytes a (n + 1) = .ok bs ↔
    ∃ b rest, v.byte a = .ok b ∧ v.bytes (a + 1) n = .ok rest ∧ bs = b :: rest := by
  rw [View.bytes]
  cases v.byte a with
  | error e => simp
  | ok b => cases v.bytes (a + 1) n <;> simp [eq_comm]

/-- The byte at a place of those read. -/
theorem View.bytes_place {v : View} {a n : Nat} {bs : List Byte} (h : v.bytes a n = .ok bs) {i : Nat} (hi : i < n) :
    v.byte (a + i) = .ok (bs.getD i 0) := by
  induction n generalizing a bs i with
  | zero => exact absurd hi (Nat.not_lt_zero i)
  | succ n ih =>
    obtain ⟨b, rest, hb, hrest, rfl⟩ := View.bytes_succ_eq_ok.mp h
    cases i with
    | zero => exact hb
    | succ i =>
      rw [show a + (i + 1) = a + 1 + i by omega]
      exact ih hrest (Nat.lt_of_succ_lt_succ hi)

section
variable {v : View} {copy : Nat} (code : Nat)

/-- R121: a glyph record that is lost before its advance. -/
theorem View.charRecord_unplaced {f : MemFail} (h : v.u32 (copy + 0x1C) = .error f) :
    v.charRecord copy code = { code := code, advance := 0, record := .error f } := by
  simp only [View.charRecord, h]

section
variable {code} {table : Nat} (h : v.u32 (copy + 0x1C) = .ok table)
include h

theorem View.charRecord_unread {f : MemFail} (hbytes : v.bytes (copy + table + 8 * code) 3 = .error f) :
    v.charRecord copy code = { code := code, advance := 0, record := .error f } := by
  simp only [View.charRecord, h, hbytes]

/-- R121: a glyph record whose advance is read. -/
theorem View.charRecord_read {bs : List Byte} (hbytes : v.bytes (copy + table + 8 * code) 3 = .ok bs) :
    v.charRecord copy code = { code := code, advance := (bs.getD 2 0).toNat % 64
                               record := v.glyph (copy + table + 8 * code) } := by
  simp only [View.charRecord, h, hbytes]

end

/-- A character keeps its code. -/
theorem View.charRecord_code (v : View) (copy code : Nat) : (v.charRecord copy code).code = code := by
  unfold View.charRecord
  split
  · rfl
  · split <;> rfl

end

end Sys2Proof.Machine
end

section
/-! PROOF. How a string is laid (R110, R111) and what a field draws (R112, R75). -/

namespace Sys2Proof.Machine

/-! ### The pen (R110, R111) -/

section
variable (centre marquee : Bool) (speed number : Nat) {tw ww : Nat}

/-- R110: a string that fits its window. -/
theorem penStarts_fits (h : tw ≤ ww) :
    penStarts centre marquee speed number tw ww = [if centre = true then (((ww - tw) / 2 : Nat) : Int) else 0] := by
  rw [penStarts, if_neg (Nat.not_lt.mpr h)]
  cases centre <;> rfl

/-- R110: a wider string without MARQUEE. -/
theorem penStarts_cut (h : ww < tw) : penStarts centre false speed number tw ww = [0] := if_pos h

/-- R111: a wider string with MARQUEE stands twice, 16 pixels apart. -/
theorem penStarts_marquee (h : ww < tw) : penStarts centre true speed number tw ww
    = [-(marqueeOffset number speed tw : Int), -(marqueeOffset number speed tw : Int) + ((tw + 16 : Nat) : Int)] :=
  if_pos h

end

/-- R110: the glyph that a character of a string lays at a pen position. -/
def TextLay.charJobs (t : TextLay) (pen : Int) (c : Machine.Char) : List GlyphJob :=
  match c.record with
  | .error _ => []
  | .ok g => [t.job c.code g pen]

/-- R110, R121: a character moves the pen by its advance, whether or not its glyph is lost. -/
theorem TextLay.jobs_cons (t : TextLay) (pen : Int) (c : Machine.Char) (rest : List Machine.Char) :
    t.jobs pen (c :: rest) = t.charJobs pen c ++ t.jobs (pen + t.zoomH * c.advance) rest := by
  rw [TextLay.jobs, TextLay.charJobs]
  cases c.record <;> rfl

/-- R110: each character stands behind the advances of those before it. -/
theorem TextLay.jobs_eq (t : TextLay) (start : Int) (chars : List Machine.Char) : t.jobs start chars
    = (chars.mapIdx (fun i c =>
        t.charJobs (start + ((t.zoomH * ((chars.take i).map (·.advance)).sum : Nat) : Int)) c)).flatten := by
  induction chars generalizing start with
  | nil => rfl
  | cons c rest ih =>
    have hpen (i : Nat) : start + ((t.zoomH * (((c :: rest).take (i + 1)).map (·.advance)).sum : Nat) : Int)
        = start + t.zoomH * c.advance + ((t.zoomH * ((rest.take i).map (·.advance)).sum : Nat) : Int) := by
      rw [List.take_succ_cons, List.map_cons, List.sum_cons]
      push_cast
      ring
    rw [TextLay.jobs_cons, ih, List.mapIdx_cons, List.flatten_cons]
    simp only [hpen]
    simp

/-! ### Fields (R112, R75) -/

/-- R112: a scheduled time as five characters; an absent one draws none. -/
theorem timeSource_eq (t : Option Nat) : timeSource t = match t with
    | none => .codes []
    | some m => .codes [48 + m / 600 % 10, 48 + m / 60 % 10, 58, 48 + m % 60 / 10, 48 + m % 10] := by
  cases t with
  | none => rfl
  | some m =>
    have hours : m / 60 / 10 % 10 = m / 600 % 10 := by omega
    have tens : m % 60 / 10 % 10 = m % 60 / 10 := by omega
    have units : m % 60 % 10 = m % 10 := by omega
    simp only [timeSource, timeCodes, twoDigits, hours, tens, units, List.cons_append, List.nil_append]

/-- R75: the characters of a seat number are its decimal digits, without leading zeros. -/
theorem numberCodes_decimal {n : Nat} (h : n < 1000) : (∀ c ∈ numberCodes n, 48 ≤ c ∧ c ≤ 57) ∧
    (numberCodes n).foldl (fun m c => 10 * m + (c - 48)) 0 = n ∧
    ((numberCodes n).head? = some 48 → n = 0 ∧ numberCodes n = [48]) ∧ numberCodes n ≠ [] := by
  unfold numberCodes
  split
  · simp
    omega
  · split
    · simp
      omega
    · simp
      omega

/-- R75: the shown label, or the note where it is absent. -/
theorem Shown.text_eq (s : Shown) : s.text = if s.label = none then s.note else s.label := by
  unfold Shown.text
  cases s.label <;> simp

/-- R26: the stop record at a place of the served view. -/
def Tracker.recordAt (t : Tracker) (i : Nat) : Option StopRecord := t.view[i]?.bind (fun q => t.stops[q.index]?)

/-- R26, R112: the records of the current and the next stop, where the coach has a place. -/
def Tracker.drawnStops (t : Tracker) : Option (Option StopRecord × Option StopRecord) :=
  match t.phase with
  | .atStop k | .running k | .approaching k | .halted k | .doubt k => some (t.recordAt k, t.recordAt (k + 1))
  | .ended => some (t.view.getLast?.bind (fun q => t.stops[q.index]?), none)
  | .unplaced | .lost => none

/-- R112: the records that the fields of the current and the next stop draw from. -/
theorem Tracker.drawnStops_eq (t : Tracker) :
    t.recordOf (currentStop t.phase t.view) = t.drawnStops.bind (·.1) ∧
      t.recordOf (nextStop t.phase t.view) = t.drawnStops.bind (·.2) := by
  unfold Tracker.drawnStops
  cases t.phase <;> exact ⟨rfl, rfl⟩

/-- R112: what the fields of the stops draw. -/
theorem Part.fieldSource_stops (p : Part) (seat fixed : Option Nat) :
    let current := p.trk.drawnStops.bind (·.1)
    let next := p.trk.drawnStops.bind (·.2)
    p.fieldSource seat 0 fixed = .ref fixed ∧ p.fieldSource seat 1 fixed = .ref (next.bind (·.name)) ∧
    p.fieldSource seat 2 fixed = .ref (next.bind (·.shortName)) ∧
    p.fieldSource seat 3 fixed = .ref (current.bind (·.name)) ∧
    p.fieldSource seat 4 fixed = .ref ((p.trk.recordOf p.trk.view.getLast?).bind (·.name)) ∧
    p.fieldSource seat 9 fixed = timeSource (next.bind (·.arrival)) ∧
    p.fieldSource seat 10 fixed = timeSource (current.bind (·.departure)) := by
  obtain ⟨hcurrent, hnext⟩ := p.trk.drawnStops_eq
  intro current next
  simp only [current, next, ← hcurrent, ← hnext]
  exact ⟨rfl, rfl, rfl, rfl, rfl, rfl, rfl⟩

/-- Log 49: a field that R106 does not name. -/
theorem Part.fieldSource_unnamed (p : Part) (seat fixed : Option Nat) {field : Nat} (h : 10 < field) :
    p.fieldSource seat field fixed = .codes [] := by
  unfold Part.fieldSource
  split
  all_goals first | omega | rfl

/-- R75, log 79: what the fields of the seat draw where no seat has the number now. -/
theorem Part.fieldSource_noSeat {p : Part} {seat : Option Nat} (fixed : Option Nat) (h : seat.bind p.res.seat = none) :
    p.fieldSource seat 5 fixed = .codes [] ∧ p.fieldSource seat 6 fixed = .ref none ∧
      p.fieldSource seat 7 fixed = .ref none ∧ p.fieldSource seat 8 fixed = .ref none := by
  simp only [Part.fieldSource, h]
  exact ⟨rfl, rfl, rfl, rfl⟩

/-- R75: what the fields of the seat draw. -/
theorem Part.fieldSource_seat {p : Part} {seat : Option Nat} {q : Seat} (fixed : Option Nat)
    (h : seat.bind p.res.seat = some q) :
    p.fieldSource seat 5 fixed = .codes (numberCodes q.number) ∧
      p.fieldSource seat 6 fixed = .ref (q.shown.bind (fun s => p.trk.nameOf s.fromCode)) ∧
      p.fieldSource seat 7 fixed = .ref (q.shown.bind (fun s => p.trk.nameOf s.toCode)) ∧
      p.fieldSource seat 8 fixed = .ref (q.shown.bind Shown.text) := by
  simp only [Part.fieldSource, h]
  exact ⟨rfl, rfl, rfl, rfl⟩

end Sys2Proof.Machine
end

section
/-! PROOF. The next element of a composition (R108, R119, R121): an area with its page, and a window by its kind (R51 to
R58, R110, R111); O42. -/

namespace Sys2Proof.Machine

/-! ### Painting (R108) -/

/-- A pixel of a rectangle, by its column and row within it. -/
theorem Rect.has_iff (r : Rect) (x y : Nat) :
    r.has x y = true ↔ (r.x ≤ x ∧ x < r.x + r.w) ∧ r.y ≤ y ∧ y < r.y + r.h := by
  simp [Rect.has, and_assoc]

/-- What an image is after painting, by the pixels inside the rectangle alone. -/
theorem Composition.painted_of_paint {c before after : Composition} {area r : Rect} {f g : Nat → Nat → Byte → Byte}
    (hafter : after.image = (c.paint area r f).image) (himage : c.image = before.image) (hline : c.line = before.line)
    (h : ∀ x y b, x < r.w → y < r.h → f x y b = g x y b) : before.painted after area r g := by
  obtain ⟨hlength, hpixel⟩ := c.paint_painted area r f
  rw [← hafter, himage] at hlength hpixel
  rw [hline] at hpixel
  refine ⟨hlength, fun i b hb => (hpixel i b hb).trans ?_⟩
  split
  · next hin =>
    obtain ⟨⟨hx, hx'⟩, hy, hy'⟩ := (r.has_iff _ _).mp hin.2
    rw [h _ _ _ (by omega) (by omega)]
  · rfl

/-! ### Areas and their pages (R108, R113, R119, R121) -/

/-- R119: no window of the page is left. -/
theorem Composition.openPage_none {c : Composition} (h : ∀ g, c.page = some g → g.windows ≤ g.next) :
    c.openPage = none := by
  unfold Composition.openPage
  split
  · rfl
  · next g hg => exact if_neg (Nat.not_lt.mpr (h g hg))

/-- R119: the page has a window left. -/
theorem Composition.openPage_some {c : Composition} {g : PageDraw} (hpage : c.page = some g) (h : g.next < g.windows) :
    c.openPage = some g := by
  simp only [Composition.openPage, hpage, if_pos h]

/-- R113: the page of an area is not in memory. -/
theorem Part.presentPage_hostWrites (p : Part) (bus : Bus) (l : Line) (a : Nat) (area : Area) :
    (p.hostWrites bus).presentPage l a area = p.presentPage l a area := rfl

section
variable {s : State} {bus : Bus} {c : Composition} {area : Area} {rest : List Area} (hcomp : s.part.cmp.comp = some c)
  (hglyphs : c.glyphs = []) (hpage : ∀ g, c.page = some g → g.windows ≤ g.next) (hareas : c.areas = area :: rest)
include hcomp hglyphs hpage hareas

/-- R119: the next element is an area. -/
theorem exec_elementBegin_area {q : Part}
    (h : (s.part.hostWrites bus).beginArea bus { c with areas := rest, page := none } area = q) :
    exec (.elementBegin bus) s = .next { s with part := q } := by
  refine exec_next (·.beginElement bus) rfl (Eq.trans ?_ h)
  simp only [Part.beginElement, hcomp, hglyphs, Composition.openPage_none hpage, hareas, ne_eq, not_true_eq_false,
    if_false]

/-- R108: an area without a page to draw stays at 0. -/
theorem exec_elementBegin_blankArea (h : (s.part.presentPage c.line c.address area).1 = none ∨ c.items = none ∨
    c.pin = none ∨ ∃ index items, (s.part.presentPage c.line c.address area).1 = some index ∧ c.items = some items ∧
      items.pageCount ≤ index) :
    exec (.elementBegin bus) s
      = .next { s with part := (s.part.hostWrites bus).setComp { c with areas := rest, page := none } } := by
  refine exec_elementBegin_area hcomp hglyphs hpage hareas ?_
  unfold Part.beginArea
  rw [Part.presentPage_hostWrites]
  dsimp only
  split
  · next index items pin hindex hitems hpin =>
    rw [hindex, hitems, hpin] at h
    have hbeyond : ¬ index < items.pageCount := by
      rcases h with h | h | h | ⟨i, x, hi, hx, hle⟩
      · cases h
      · cases h
      · cases h
      · cases hi
        cases hx
        exact Nat.not_lt.mpr hle
    rw [if_neg hbeyond]
  · rfl

section
variable {index : Nat} {items : ContentItems} {pin : ContentPin}
    (hindex : (s.part.presentPage c.line c.address area).1 = some index) (hitems : c.items = some items)
    (hpin : c.pin = some pin) (hlt : index < items.pageCount)
include hindex hitems hpin hlt

/-- R108: an area with its page. -/
theorem exec_elementBegin_page {address : Nat} {h : PageHead}
    (hread : ((s.part.hostWrites bus).view bus).pageAt pin.address index = .ok (address, h)) :
    exec (.elementBegin bus) s = .next { s with
      part := (s.part.hostWrites bus).setComp
        (Composition.beginPage { c with areas := rest, page := none } area
          (s.part.presentPage c.line c.address area).2 address h) } := by
  refine exec_elementBegin_area hcomp hglyphs hpage hareas ?_
  simp only [Part.beginArea, Part.presentPage_hostWrites, hindex, hitems, hpin, if_pos hlt, hread]

section
variable {f : MemFail} (hread : ((s.part.hostWrites bus).view bus).pageAt pin.address index = .error f)
include hread

/-- R121: an area whose page has a size and a paper, and a descriptor that cannot be read whole. -/
theorem exec_elementBegin_paper {address : Nat} {h : PageHead}
    (hpaper : ((s.part.hostWrites bus).view bus).pagePaper pin.address index = .ok (address, h)) :
    exec (.elementBegin bus) s = .next { s with
      part := ((s.part.hostWrites bus).setComp
        (Composition.beginPage { c with areas := rest, page := none } area
          (s.part.presentPage c.line c.address area).2 address h)).composerError f } := by
  refine exec_elementBegin_area hcomp hglyphs hpage hareas ?_
  simp only [Part.beginArea, Part.omitPage, Part.presentPage_hostWrites, hindex, hitems, hpin, if_pos hlt, hread,
    hpaper]

/-- Log 48: an area whose page's size and paper cannot be read either. -/
theorem exec_elementBegin_lostPage {e : MemFail}
    (hpaper : ((s.part.hostWrites bus).view bus).pagePaper pin.address index = .error e) :
    exec (.elementBegin bus) s = .next { s with
      part :=
        ((s.part.hostWrites bus).setComp { c with areas := rest, page := none }).composerError f } := by
  refine exec_elementBegin_area hcomp hglyphs hpage hareas ?_
  simp only [Part.beginArea, Part.omitPage, Part.presentPage_hostWrites, hindex, hitems, hpin, if_pos hlt, hread,
    hpaper]

end
end
end

/-- R108: a page's beginning paints the page and opens its windows. -/
theorem Composition.beginPage_painted {c before : Composition} (himage : c.image = before.image)
    (hline : c.line = before.line) (area : Area) (seat : Option Nat) (address : Nat) (h : PageHead) :
    before.painted (c.beginPage area seat address h) area.rect
        { x := area.rect.x, y := area.rect.y, w := h.width, h := h.height } (fun _ _ _ => BitVec.ofNat 8 h.paper) ∧
      { c.beginPage area seat address h with image := before.image } = { c with
        image := before.image
        page := some { area := area, seat := seat, address := address, width := h.width, height := h.height
                       paper := h.paper, windows := min h.windows 6, next := 0 } } :=
  ⟨Composition.painted_of_paint rfl himage hline fun _ _ _ _ _ => rfl, rfl⟩

/-! ### Windows and their clipping (R108) -/

section
variable {g : PageDraw} {w : Window}

/-- R108: a window outside the page, or one whose stop is before its start. -/
theorem PageDraw.clip_empty
    (h : g.width ≤ w.startCol ∨ g.height ≤ w.startRow ∨ w.stopCol < w.startCol ∨ w.stopRow < w.startRow) :
    (g.clip w).w = 0 ∨ (g.clip w).h = 0 := by
  unfold PageDraw.clip
  split
  · exact .inl rfl
  · dsimp only
    omega

/-- R108: any other window keeps pixels. -/
theorem PageDraw.clip_open (hcol : w.startCol < g.width) (hrow : w.startRow < g.height) (hcols : w.startCol ≤ w.stopCol)
    (hrows : w.startRow ≤ w.stopRow) :
    g.clip w = { x := g.area.rect.x + w.startCol, y := g.area.rect.y + w.startRow
                 w := min w.stopCol (g.width - 1) + 1 - w.startCol
                 h := min w.stopRow (g.height - 1) + 1 - w.startRow } ∧
      ¬(min w.stopCol (g.width - 1) + 1 - w.startCol = 0 ∨ min w.stopRow (g.height - 1) + 1 - w.startRow = 0) :=
  ⟨if_neg (by omega), by omega⟩

section
variable {s : State} {bus : Bus} {c : Composition} {pin : ContentPin} {items : ContentItems}
  (hcomp : s.part.cmp.comp = some c) (hglyphs : c.glyphs = []) (hpage : c.page = some g) (hnext : g.next < g.windows)
  (hpin : c.pin = some pin) (hitems : c.items = some items)
include hcomp hglyphs hpage hnext hpin hitems

/-- R121: a window that cannot be read ends its page. -/
theorem exec_elementBegin_lostWindow {f : MemFail}
    (hread : ((s.part.hostWrites bus).view bus).window (g.address + 8 + 16 * g.next) = .error f) :
    exec (.elementBegin bus) s = .next { s with
      part := ((s.part.hostWrites bus).setComp
        { c with page := some { g with next := g.windows } }).composerError f } := by
  refine exec_next (·.beginElement bus) rfl ?_
  simp only [Part.beginElement, hcomp, hglyphs, Composition.openPage_some hpage hnext, ne_eq, not_true_eq_false,
    if_false, Part.beginWindow, hpin, hitems, hread]

section
variable {q : Part} (hread : ((s.part.hostWrites bus).view bus).window (g.address + 8 + 16 * g.next) = .ok w)
include hread

/-- R119: the next element is a window. -/
theorem exec_elementBegin_window (h : (s.part.hostWrites bus).drawWindow bus
      { c with page := some { g with next := g.next + 1 } } g pin items w = q) :
    exec (.elementBegin bus) s = .next { s with part := q } := by
  refine exec_next (·.beginElement bus) rfl (Eq.trans ?_ h)
  simp only [Part.beginElement, hcomp, hglyphs, Composition.openPage_some hpage hnext, ne_eq, not_true_eq_false,
    if_false, Part.beginWindow, hpin, hitems, hread]

/-- R108: an empty window draws nothing; a STRIP window is noted all the same (log 33). -/
theorem exec_elementBegin_emptyWindow
    (h : g.width ≤ w.startCol ∨ g.height ≤ w.startRow ∨ w.stopCol < w.startCol ∨ w.stopRow < w.startRow) :
    exec (.elementBegin bus) s = .next { s with
      part := (s.part.hostWrites bus).setComp
        { c with page := some { g with next := g.next + 1 }, strip := c.strip || w.kind.isStrip } } :=
  exec_elementBegin_window hcomp hglyphs hpage hnext hpin hitems hread (if_pos (PageDraw.clip_empty h))

/-- R108: a window with pixels left is drawn by its kind. -/
theorem exec_elementBegin_openWindow {kind : WindowKind} {r : Rect} (hkind : w.kind = kind) (hclip : g.clip w = r)
    (hopen : ¬(r.w = 0 ∨ r.h = 0)) (h : (s.part.hostWrites bus).drawOpenWindow bus
      { c with page := some { g with next := g.next + 1 } } g pin items r kind = q) :
    exec (.elementBegin bus) s = .next { s with part := q } := by
  subst hkind hclip
  exact exec_elementBegin_window hcomp hglyphs hpage hnext hpin hitems hread ((if_neg hopen).trans h)

end
end
end

/-- The STRIP windows. -/
theorem WindowKind.isStrip_iff (k : WindowKind) :
    k.isStrip = true ↔ ∃ index y0 fy marker, k = .strip index y0 fy marker := by
  cases k <;> simp [WindowKind.isStrip]

/-! ### BAR windows (R51) -/

/-- R51: a bar's pixel. -/
theorem Part.drawBar_eq (p : Part) (c : Composition) (area r : Rect) (ink paper border : Nat) :
    ∃ f, p.drawBar c area r ink paper border
        = p.setComp { c.paint area r f with bars := c.bars ++ [barInner r.w r.h] } ∧
      ∀ x y b, f x y b = BitVec.ofNat 8
        (if barInner r.w r.h = 0 ∨ x = 0 ∨ y = 0 ∨ x + 1 = r.w ∨ y + 1 = r.h then border
         else if x < 1 + p.cmp.position.lit (barInner r.w r.h) then ink else paper) := by
  refine ⟨_, rfl, fun x y b => ?_⟩
  dsimp only
  split
  · rfl
  · next h =>
    have hlit : x - 1 < p.cmp.position.lit (barInner r.w r.h) ↔ x < 1 + p.cmp.position.lit (barInner r.w r.h) := by
      omega
    simp only [hlit]

/-! ### STRIP windows (R52 to R58) -/

/-- R53, R58: pixel `i` of a STRIP window as its filter leaves it: a column to the right of a strip that is no wider
than its window takes the paper. -/
def StripHeader.shown (s : StripHeader) (wp paper : Nat) (pixels : Nat → Nat) (i : Nat) : Byte :=
  BitVec.ofNat 8 (if s.width ≤ i % wp ∧ s.width ≤ wp then paper else pixels i)

section
variable {v : View} {copy : Nat} {s : StripHeader} {u y0 fy paper wp : Nat} {pixels : Nat → Nat}

/-- R53, R58: the filter's pixels from pixel `i` on in raster order, up to the first that cannot be read. -/
theorem View.stripPixels_from {m n i : Nat} {stop : Option MemFail}
    (h : ∀ j, i ≤ j → j < i + n → ¬(s.width ≤ j % wp ∧ s.width ≤ wp) →
      v.stripOutput copy s u y0 fy (j / wp) (j % wp) = .ok (pixels j))
    (hstop : (n = m ∧ stop = none) ∨ (n < m ∧ ¬(s.width ≤ (i + n) % wp ∧ s.width ≤ wp) ∧
      ∃ f, v.stripOutput copy s u y0 fy ((i + n) / wp) ((i + n) % wp) = .error f ∧ stop = some f)) :
    v.stripPixels copy s u y0 fy paper wp m i = ((List.range' i n).map (s.shown wp paper pixels), stop) := by
  induction m generalizing i n with
  | zero =>
    obtain ⟨rfl, rfl⟩ : n = 0 ∧ stop = none := hstop.resolve_right fun h => absurd h.1 (Nat.not_lt_zero n)
    rfl
  | succ m ih =>
    unfold View.stripPixels
    cases n with
    | zero =>
      obtain ⟨-, hsampled, f, hf, rfl⟩ := hstop.resolve_left fun h => absurd h.1 (Nat.succ_ne_zero m).symm
      rw [Nat.add_zero] at hsampled hf
      rw [if_neg hsampled]
      simp only [hf]
      rfl
    | succ n =>
      have hrest : v.stripPixels copy s u y0 fy paper wp m (i + 1)
          = ((List.range' (i + 1) n).map (s.shown wp paper pixels), stop) := by
        refine ih (fun j hj hj' => h j (by omega) (by omega)) ?_
        rw [show i + 1 + n = i + (n + 1) by omega]
        exact hstop.imp (And.imp_left Nat.succ.inj) (And.imp_left Nat.lt_of_succ_lt_succ)
      rw [hrest, List.range'_succ, List.map_cons]
      by_cases hsampled : s.width ≤ i % wp ∧ s.width ≤ wp
      · rw [if_pos hsampled, StripHeader.shown, if_pos hsampled]
      · have hout := h i (Nat.le_refl i) (Nat.lt_add_of_pos_right (Nat.succ_pos n)) hsampled
        rw [if_neg hsampled, StripHeader.shown, if_neg hsampled]
        simp only [hout]

/-- R53, R58: the filter's pixels of a whole window. -/
theorem View.stripPixels_eq {m n : Nat} {errors : List MemFail}
    (h : ∀ i, i < n → ¬(s.width ≤ i % wp ∧ s.width ≤ wp) →
      v.stripOutput copy s u y0 fy (i / wp) (i % wp) = .ok (pixels i))
    (hstop : (n = m ∧ errors = []) ∨ (n < m ∧ ¬(s.width ≤ n % wp ∧ s.width ≤ wp) ∧
      ∃ f, v.stripOutput copy s u y0 fy (n / wp) (n % wp) = .error f ∧ errors = [f])) :
    ∃ stop, stop.toList = errors ∧
      v.stripPixels copy s u y0 fy paper wp m 0 = ((List.range' 0 n).map (s.shown wp paper pixels), stop) := by
  have hreached : ∀ j, 0 ≤ j → j < 0 + n → ¬(s.width ≤ j % wp ∧ s.width ≤ wp) →
      v.stripOutput copy s u y0 fy (j / wp) (j % wp) = .ok (pixels j) := fun j _ hj => h j (Nat.zero_add n ▸ hj)
  rcases hstop with ⟨hn, rfl⟩ | ⟨hn, hsampled, f, hf, rfl⟩
  · exact ⟨none, rfl, View.stripPixels_from hreached (.inl ⟨hn, rfl⟩)⟩
  · refine ⟨some f, rfl, View.stripPixels_from hreached (.inr ?_)⟩
    rw [Nat.zero_add]
    exact ⟨hn, hsampled, f, hf, rfl⟩

/-- R58: of a window's pixels those that the filter did not reach take the paper. -/
theorem StripHeader.shown_getD {n x y : Nat} (hx : x < wp) :
    ((List.range' 0 n).map (s.shown wp paper pixels)).getD (y * wp + x) (BitVec.ofNat 8 paper)
      = BitVec.ofNat 8 (if (s.width ≤ x ∧ s.width ≤ wp) ∨ n ≤ y * wp + x then paper else pixels (y * wp + x)) := by
  have hcolumn : (y * wp + x) % wp = x := by rw [Nat.mul_add_mod_self_right, Nat.mod_eq_of_lt hx]
  by_cases hreached : y * wp + x < n
  · have hplace : (List.range' 0 n)[y * wp + x]? = some (y * wp + x) := by
      rw [List.getElem?_range' hreached, Nat.zero_add, Nat.one_mul]
    rw [List.getD_eq_getElem?_getD, List.getElem?_map, hplace]
    simp only [Option.map_some, Option.getD_some, StripHeader.shown, hcolumn, Nat.not_le.mpr hreached, or_false]
  · rw [List.getD_eq_default _ _ (by simpa using hreached), if_pos (.inr (Nat.not_lt.mp hreached))]

end

/-- R121: the errors reported leave the composer, and what the part reads of memory. -/
theorem Part.composerErrors_reads (p : Part) (bus : Bus) (fs : List MemFail) :
    (p.composerErrors fs).cmp = p.cmp ∧ (p.composerErrors fs).view bus = p.view bus := by
  simp [Part.view]

section
variable {p : Part} {bus : Bus} {c : Composition} {pin : ContentPin} {glyph u : Nat} {marker : Bool} {r area : Rect}

/-- R56: no marker is shown. -/
theorem Part.addMarker_none (h : p.cmp.position.marker = none ∨ marker = false) :
    p.addMarker bus c pin glyph u marker r area = p.setComp c := by
  unfold Part.addMarker
  split
  · next hm => exact absurd (h.resolve_left (by simp [hm])) (by decide)
  · rfl
  · rfl

section
variable {m : Nat} (hm : p.cmp.position.marker = some m)
include hm

/-- R58: a marker whose record cannot be read. -/
theorem Part.addMarker_lost {f : MemFail} (hf : ((p.view bus).charRecord pin.address glyph).record = .error f) :
    p.addMarker bus c pin glyph u true r area = (p.setComp c).composerError f := by
  simp only [Part.addMarker, hm, hf]

/-- R55: the marker's glyph is to be drawn. -/
theorem Part.addMarker_drawn {x : GlyphRecord} (hx : ((p.view bus).charRecord pin.address glyph).record = .ok x) :
    p.addMarker bus c pin glyph u true r area = p.setComp { c with glyphs := [markerJob glyph x m u r area] } := by
  simp only [Part.addMarker, hm, hx]

end
end

section
variable {p : Part} {bus : Bus} {c : Composition} {g : PageDraw} {pin : ContentPin} {items : ContentItems} {r : Rect}
  {index y0 fy : Nat} {marker : Bool}

/-- Log 49: a strip that the copy does not hold. -/
theorem Part.drawStrip_missing (h : items.strips[index]? = none) :
    p.drawStrip bus c g pin items r index y0 fy marker = p.setComp { c with strip := true } := by
  simp only [Part.drawStrip, h]

/-- R52, R53: a STRIP window as its filter has painted it. -/
def Composition.stripPainted (c : Composition) (g : PageDraw) (r : Rect) (drawn : List Byte) : Composition :=
  Composition.paint { c with strip := true } g.area.rect r
    (fun x y _ => drawn.getD (y * r.w + x) (BitVec.ofNat 8 g.paper))

section
variable {s : StripHeader} {drawn : List Byte} {stop : Option MemFail} (hs : items.strips[index]? = some s)
  (hdrawn : (p.view bus).stripPixels pin.address s (scrollOffset p.cmp.position.marker r.w s.width) y0 fy g.paper r.w
    (r.w * r.h) 0 = (drawn, stop))
include hs hdrawn

/-- R52 to R58: a STRIP window, by what its filter gives. -/
theorem Part.drawStrip_eq : p.drawStrip bus c g pin items r index y0 fy marker
    = (p.composerErrors stop.toList).addMarker bus (c.stripPainted g r drawn) pin items.markerGlyph
        (scrollOffset p.cmp.position.marker r.w s.width) marker r g.area.rect := by
  simp only [Part.drawStrip, hs, hdrawn, Composition.stripPainted]

/-- R56: a STRIP window without a marker. -/
theorem Part.drawStrip_plain (h : p.cmp.position.marker = none ∨ marker = false) :
    p.drawStrip bus c g pin items r index y0 fy marker
      = (p.composerErrors stop.toList).setComp (c.stripPainted g r drawn) := by
  obtain ⟨hcmp, -⟩ := p.composerErrors_reads bus stop.toList
  rw [Part.drawStrip_eq hs hdrawn, Part.addMarker_none (hcmp ▸ h)]

section
variable {m : Nat} (hm : p.cmp.position.marker = some m)
include hm

/-- R58: a STRIP window whose marker's record cannot be read. -/
theorem Part.drawStrip_lostMarker {f : MemFail}
    (hf : ((p.view bus).charRecord pin.address items.markerGlyph).record = .error f) :
    p.drawStrip bus c g pin items r index y0 fy true
      = ((p.composerErrors stop.toList).setComp (c.stripPainted g r drawn)).composerError f := by
  obtain ⟨hcmp, hview⟩ := p.composerErrors_reads bus stop.toList
  rw [Part.drawStrip_eq hs hdrawn, Part.addMarker_lost (hcmp ▸ hm) (hview ▸ hf)]

/-- R55: a STRIP window with its marker. -/
theorem Part.drawStrip_marker {x : GlyphRecord}
    (hx : ((p.view bus).charRecord pin.address items.markerGlyph).record = .ok x) :
    p.drawStrip bus c g pin items r index y0 fy true = (p.composerErrors stop.toList).setComp
      { c.stripPainted g r drawn with glyphs := [markerJob items.markerGlyph x m
          (scrollOffset p.cmp.position.marker r.w s.width) r g.area.rect] } := by
  obtain ⟨hcmp, hview⟩ := p.composerErrors_reads bus stop.toList
  rw [Part.drawStrip_eq hs hdrawn, Part.addMarker_drawn (hcmp ▸ hm) (hview ▸ hx)]

end
end
end

/-! ### TEXT windows (R110 to R112, R121) -/

/-- R121: the errors of a string's glyph records, in string order. -/
theorem charErrors_eq (chars : List Machine.Char) : charErrors chars = chars.filterMap (fun x => match x.record with
    | .ok _ => none
    | .error f => some f) := by
  induction chars with
  | nil => rfl
  | cons x rest ih =>
    rw [charErrors, List.filterMap_cons, ih]
    cases x.record <;> rfl

/-- Settles O42: what is read for an element and from where, then an area by its page and a window by its kind. -/
theorem elementsAreDrawn : Obligations.ElementsAreDrawn := by
  refine ⟨fun v copy index address h => ⟨View.pagePaper_eq_ok, View.pageAt_eq_ok, v.failsAtByte_pageAt copy index⟩,
    fun v a => ⟨fun w => ?_, v.failsAtByte_window a⟩,
    fun p a area => ⟨rfl, rfl, fun hhalf => ?_, fun half hhalf => ?_⟩,
    fun v copy strip u y0 fy i j => ⟨fun q => ?_, v.failsAtByte_stripOutput copy u y0 fy i j strip⟩,
    fun v copy pool => ⟨fun cs => rfl, rfl, fun o => ?_⟩, fun v copy code => ?_,
    fun centre marquee speed number tw ww => ?_, fun lay start chars => ?_, fun p seat fixed => ?_,
    fun s bus c area rest hcomp hglyphs hpage hareas => ?_,
    fun s bus c g pin items w hcomp hglyphs hpage hnext hpin hitems => ?_⟩
  · rw [View.window_eq_ok]
    simp only [View.windowKind_eq_ok]
  · simp only [Part.presentPage, hhalf]
  · refine ⟨fun hnone => Part.presentPage_empty hhalf (Reservations.seatAt_none hnone),
      fun i q hq hsits hbefore => ?_⟩
    refine (Part.presentPage_seat hhalf (Reservations.seatAt_first hq hsits hbefore)).trans ?_
    cases q.display <;> rfl
  · rw [View.stripOutput_eq_ok]
    simp only [clampTo_eq, filterPixel]
  · refine ⟨View.poolString_outside, fun h => ⟨fun f hf => View.poolString_unplaced h hf, fun start hstart =>
      ⟨fun f hf => View.poolString_unread h hstart hf, fun n hn => ?_⟩⟩⟩
    have htext : v.sourceCodes copy pool (.ref (some o)) = _ := View.poolString_read h hstart hn
    refine ⟨fun hbad => htext.trans (if_pos hbad), fun hshort hin => ?_⟩
    rw [htext, if_neg (by omega)]
    exact v.characters_spec n (copy + start + o + 1)
  · refine ⟨v.charRecord_code copy code, fun f hf => ?_, fun table htable => ⟨fun f hf => ?_, fun bs hbs => ?_⟩⟩
    · rw [View.charRecord_unplaced code hf]
      exact ⟨rfl, rfl⟩
    · rw [View.charRecord_unread htable hf]
      exact ⟨rfl, rfl⟩
    · rw [View.charRecord_read htable hbs]
      exact ⟨⟨_, View.bytes_place hbs (by decide), rfl⟩, v.failsAtByte_glyph _, fun g => View.glyph_eq_ok⟩
  · refine ⟨penStarts_fits centre marquee speed number, fun h hm => ?_, fun h hm => ?_⟩
    · rw [hm]
      exact penStarts_cut centre speed number h
    · rw [hm]
      exact penStarts_marquee centre speed number h
  · exact lay.jobs_eq start chars
  · intro draws stop last placed current next time name
    obtain ⟨h0, h1, h2, h3, h4, h9, h10⟩ := p.fieldSource_stops seat fixed
    refine ⟨h0, h1, h2, h3, h4, ?_, ?_, fun field => p.fieldSource_unnamed seat fixed, Part.fieldSource_noSeat fixed,
      fun q hq => ?_⟩
    · exact h9.trans (timeSource_eq _)
    · exact h10.trans (timeSource_eq _)
    · obtain ⟨h5, h6, h7, h8⟩ := Part.fieldSource_seat fixed hq
      refine ⟨fun hn => ⟨_, h5, numberCodes_decimal hn⟩, fun hs => ?_, fun shown hs => ?_⟩
      · rw [hs] at h6 h7 h8
        exact ⟨h6, h7, h8⟩
      · rw [hs] at h6 h7 h8
        exact ⟨h6, h7, h8.trans (congrArg TextSource.ref shown.text_eq)⟩
  · intro mem landed present
    refine ⟨exec_elementBegin_blankArea hcomp hglyphs hpage hareas,
      fun index items pin hindex hitems hpin hlt => ⟨fun f hf => ⟨fun ⟨e, he⟩ => ?_, fun address h hpaper => ?_⟩,
        fun address h hread => ?_⟩⟩
    · exact exec_elementBegin_lostPage hcomp hglyphs hpage hareas hindex hitems hpin hlt hf he
    · refine ⟨_, exec_elementBegin_paper hcomp hglyphs hpage hareas hindex hitems hpin hlt hf hpaper, ?_⟩
      obtain ⟨_, -, -, -, -, -, hnone⟩ := View.pagePaper_eq_ok.mp hpaper
      have hbegun := Composition.beginPage_painted (c := { c with areas := rest, page := none }) (before := c) rfl rfl
        area present.2 address h
      rw [hnone] at hbegun
      exact hbegun
    · exact ⟨_, exec_elementBegin_page hcomp hglyphs hpage hareas hindex hitems hpin hlt hread,
        Composition.beginPage_painted rfl rfl area present.2 address h⟩
  · intro mem landed omitted next report
    refine ⟨fun f => exec_elementBegin_lostWindow hcomp hglyphs hpage hnext hpin hitems, fun hread =>
      ⟨fun hempty => ?_, fun hcol hrow hcols hrows => ?_⟩⟩
    · have hrun := exec_elementBegin_emptyWindow hcomp hglyphs hpage hnext hpin hitems hread hempty
      refine ⟨fun hother => hrun.trans ?_, fun index y0 fy marker hkind => hrun.trans ?_⟩
      · have hnot : w.kind.isStrip = false := by
          rw [Bool.eq_false_iff, Ne, WindowKind.isStrip_iff]
          exact fun ⟨index, y0, fy, marker, h⟩ => hother index y0 fy marker h
        rw [hnot, Bool.or_false]
        rfl
      · rw [(WindowKind.isStrip_iff _).mpr ⟨index, y0, fy, marker, hkind⟩, Bool.or_true]
        rfl
    · obtain ⟨hclip, hopen⟩ := PageDraw.clip_open hcol hrow hcols hrows
      intro r
      have hrun {kind : WindowKind} {q : Part} (hkind : w.kind = kind)
          (h : landed.drawOpenWindow bus next g pin items r kind = q) :
          exec (.elementBegin bus) s = .next { s with part := q } :=
        exec_elementBegin_openWindow hcomp hglyphs hpage hnext hpin hitems hread hkind hclip hopen h
      refine ⟨fun hkind => hrun hkind rfl, fun n hkind => ⟨_, hrun hkind rfl, ?_, rfl⟩,
        fun ink paper border hkind => ?_,
        fun index y0 fy marker hkind hstrip => hrun hkind (Part.drawStrip_missing hstrip),
        fun index y0 fy marker strip pixels n errors hkind hstrip => ?_,
        fun ink paper zoomH zoomV centre marquee speed field fixed hkind => ?_⟩
      · exact Composition.painted_of_paint (c := next) rfl rfl rfl fun _ _ _ _ _ => rfl
      · obtain ⟨f, hbar, hpixel⟩ := landed.drawBar_eq next g.area.rect r ink paper border
        exact ⟨_, hrun hkind hbar, Composition.painted_of_paint (c := next) rfl rfl rfl fun x y b _ _ => hpixel x y b,
          rfl⟩
      · intro u unsampled output hpixels hstop filtered
        obtain ⟨stop, rfl, hdrawn⟩ := View.stripPixels_eq (paper := g.paper) hpixels hstop
        refine ⟨next.stripPainted g r _, Composition.painted_of_paint (c := { next with strip := true }) rfl rfl rfl
            fun x y b hx _ => StripHeader.shown_getD hx, rfl,
          fun hno => hrun hkind (Part.drawStrip_plain hstrip hdrawn hno), fun m hm hmarker => ?_⟩
        rw [hmarker] at hkind
        refine ⟨fun f hf => hrun hkind (Part.drawStrip_lostMarker hstrip hdrawn hm hf), fun glyph hglyph => ?_⟩
        exact hrun hkind (Part.drawStrip_marker hstrip hdrawn hm hglyph)
      · intro text chars tw lay errors
        have herrors : text.2.toList ++ charErrors chars = errors := congrArg (text.2.toList ++ ·) (charErrors_eq chars)
        refine ⟨{ next.flat g.area.rect r paper with
            glyphs := (penStarts centre marquee speed s.part.swp.number tw r.w).flatMap (fun x => lay.jobs x chars)
            overflowed := c.overflowed || (marquee && decide (r.w < tw)) }, hrun hkind ?_,
          Composition.painted_of_paint (c := next) rfl rfl rfl fun _ _ _ _ _ => rfl, rfl, rfl, rfl⟩
        rw [← herrors]
        rfl

end Sys2Proof.Machine
end

section
/-! PROOF. Checks made in order with reads between them (R174): the rows that a computation has passed or refused by,
composed step by step; and reads of a copy that the board answers without an error. -/

namespace Sys2Proof.Machine

/-! ### The first row that holds -/

open Classical in
/-- The result of the first row of a table that holds. -/
noncomputable def firstHolding (rows : List (Prop × Result)) : Option Result :=
  firstFailure (rows.map (fun x => (decide x.1, x.2)))

theorem firstHolding_append (xs ys : List (Prop × Result)) :
    firstHolding (xs ++ ys) = match firstHolding xs with
      | some r => some r
      | none => firstHolding ys := by
  rw [firstHolding, List.map_append, firstFailure_append]
  rfl

/-- A table refuses with the first of its rows that holds. -/
theorem refusesFirst_firstHolding (rows : List (Prop × Result)) : refusesFirst rows (firstHolding rows) := by
  refine firstFailure_refusesFirst ?_
  induction rows with
  | nil => exact .nil
  | cons x rest ih => exact .cons ⟨by simp, rfl⟩ ih

/-- No row holds where the table refuses nothing. -/
theorem firstHolding_none {rows : List (Prop × Result)} (h : firstHolding rows = none) : ∀ x ∈ rows, ¬ x.1 :=
  (refusesFirst_firstHolding rows).1.mp h

/-- A table refuses with one result at most. -/
theorem refusesFirst_unique {rows : List (Prop × Result)} {x y : Option Result} (hx : refusesFirst rows x)
    (hy : refusesFirst rows y) : x = y := by
  obtain ⟨hxnone, hxsome⟩ := hx
  obtain ⟨hynone, hysome⟩ := hy
  cases x with
  | none => exact (hynone.mpr (hxnone.mp rfl)).symm
  | some r => exact ((hysome r).mpr ((hxsome r).mp rfl)).symm

/-- Checks that are those of the rows refuse as they do. -/
theorem firstFailure_eq_firstHolding {rows : List (Prop × Result)} {checks : List (Bool × Result)}
    (h : List.Forall₂ SameCheck rows checks) : firstFailure checks = firstHolding rows :=
  refusesFirst_unique (firstFailure_refusesFirst h) (refusesFirst_firstHolding rows)

/-- Checks of one result are one check. -/
theorem firstFailure_uniform {checks : List (Bool × Result)} {r : Result} (h : ∀ x ∈ checks, x.2 = r) :
    firstFailure checks = firstFailure [(checks.any (·.1), r)] := by
  induction checks with
  | nil => rfl
  | cons x rest ih =>
    obtain ⟨bad, r'⟩ := x
    obtain ⟨rfl, hrest⟩ := List.forall_mem_cons.mp h
    cases bad with
    | true => rfl
    | false => exact ih hrest

/-! ### Computations that check (R174) -/

/-- What a computation answers, by the rows that it checks in their order: a memory error only where `stray` allows one,
the result of the first row that holds, or else a value as `good` says. -/
def Checks {α : Type} (rows : List (Prop × Result)) (stray : Prop) (x : Except Reject α) (good : α → Prop) : Prop :=
  match x with
  | .error (.memory _) => stray
  | .error (.result r) => firstHolding rows = some r
  | .ok y => firstHolding rows = none ∧ good y

section
variable {α β : Type} {rows rows' : List (Prop × Result)} {stray : Prop} {good : α → Prop} {good' : β → Prop}

theorem Checks.value {y : α} (h : good y) : Checks [] stray (.ok y) good := ⟨rfl, h⟩

theorem Checks.mono {x : Except Reject α} {better : α → Prop} (h : Checks rows stray x good)
    (hgood : ∀ y, good y → better y) : Checks rows stray x better := by
  cases x with
  | error e => cases e <;> exact h
  | ok y => exact ⟨h.1, hgood y h.2⟩

/-- A computation followed by another checks the rows of both in turn. -/
theorem Checks.bind {x : Except Reject α} {f : α → Except Reject β} (hx : Checks rows stray x good)
    (hf : ∀ y, good y → Checks rows' stray (f y) good') : Checks (rows ++ rows') stray (x >>= f) good' := by
  cases x with
  | error e =>
    cases e with
    | memory e => exact hx
    | result r =>
      show firstHolding (rows ++ rows') = some r
      rw [firstHolding_append, show firstHolding rows = some r from hx]
  | ok y =>
    obtain ⟨hnone, hy⟩ := hx
    have hrows : firstHolding (rows ++ rows') = firstHolding rows' := by rw [firstHolding_append, hnone]
    show Checks (rows ++ rows') stray (f y) good'
    unfold Checks
    rw [hrows]
    exact hf y hy

/-- What is made of a checked value is no check. -/
theorem Checks.map {x : Except Reject α} {f : α → β} (hx : Checks rows stray x good) (hf : ∀ y, good y → good' (f y)) :
    Checks rows stray (x >>= fun y => .ok (f y)) good' := by
  cases x with
  | error e => cases e <;> exact hx
  | ok y => exact ⟨hx.1, hf y hx.2⟩

/-- A read is no check. -/
theorem Checks.read {x : Except MemFail α} {f : α → Except Reject β} (hfail : ∀ e, x = .error e → stray)
    (hf : ∀ y, x = .ok y → Checks rows stray (f y) good') : Checks rows stray (mustRead x >>= f) good' := by
  cases x with
  | error e => exact hfail e rfl
  | ok y => exact hf y rfl

theorem Checks.read_ok {x : Except MemFail α} {y : α} {f : α → Except Reject β} (hx : x = .ok y)
    (hf : Checks rows stray (f y) good') : Checks rows stray (mustRead x >>= f) good' :=
  hx ▸ hf

/-- Checks that refuse as the rows do. -/
theorem Checks.refuse {checks : List (Bool × Result)} (h : firstFailure checks = firstHolding rows) :
    Checks rows stray (refuseIf checks) (fun _ => ∀ x ∈ rows, ¬ x.1) := by
  unfold refuseIf
  split
  · next hnone => exact ⟨h.symm.trans hnone, firstHolding_none (h.symm.trans hnone)⟩
  · next r hr => exact h.symm.trans hr

/-- Checks each of which is a row. -/
theorem Checks.refuse_rows {checks : List (Bool × Result)} (h : List.Forall₂ SameCheck rows checks) :
    Checks rows stray (refuseIf checks) (fun _ => ∀ x ∈ rows, ¬ x.1) :=
  Checks.refuse (firstFailure_eq_firstHolding h)

/-- Checks of one result that are one row. -/
theorem Checks.refuse_row {checks : List (Bool × Result)} {c : Prop} {r : Result} (hr : ∀ x ∈ checks, x.2 = r)
    (hc : c ↔ checks.any (·.1) = true) : Checks [(c, r)] stray (refuseIf checks) (fun _ => ¬ c) := by
  refine (Checks.refuse ?_).mono fun _ h => h (c, r) List.mem_cons_self
  rw [firstFailure_uniform hr]
  exact firstFailure_eq_firstHolding (.cons ⟨hc, rfl⟩ .nil)

/-- What a computation that checks rows answers, in the words of `refusesFirst`. -/
theorem Checks.refusesFirst {x : Except Reject α} : Checks rows stray x good → match x with
    | .error (.memory _) => stray
    | .error (.result r) => Machine.refusesFirst rows (some r)
    | .ok y => Machine.refusesFirst rows none ∧ good y := by
  intro h
  have hrows := refusesFirst_firstHolding rows
  cases x with
  | error e =>
    cases e with
    | memory e => exact h
    | result r =>
      have hr : firstHolding rows = some r := h
      rw [hr] at hrows
      exact hrows
  | ok y => exact ⟨h.1 ▸ hrows, h.2⟩

end

/-! ### Things checked one after another -/

/-- The rows of several things, the first apart. -/
theorem flatMap_range_succ {α : Type} (f : Nat → List α) (n : Nat) :
    (List.range (n + 1)).flatMap f = f 0 ++ (List.range n).flatMap (fun i => f (i + 1)) := by
  rw [List.range_succ_eq_map, List.flatMap_cons, List.flatMap_map]

/-- A loop over places checks the rows of each in turn. -/
theorem Checks.loop {loop : Nat → Nat → Except Reject Unit} {step : Nat → Except Reject Unit} {size : Nat}
    (hzero : ∀ a, loop 0 a = .ok ()) (hsucc : ∀ n a, loop (n + 1) a = step a >>= fun _ => loop n (a + size))
    {rows : Nat → List (Prop × Result)} {stray : Prop} {n a : Nat}
    (h : ∀ i, i < n → Checks (rows i) stray (step (a + size * i)) (fun _ => True)) :
    Checks ((List.range n).flatMap rows) stray (loop n a) (fun _ => True) := by
  induction n generalizing a rows with
  | zero =>
    rw [hzero]
    exact Checks.value trivial
  | succ n ih =>
    rw [hsucc, flatMap_range_succ]
    refine Checks.bind (h 0 (Nat.succ_pos n)) fun _ _ => ih fun i hi => ?_
    rw [show a + size + size * i = a + size * (i + 1) by rw [Nat.mul_succ]; omega]
    exact h (i + 1) (Nat.succ_lt_succ hi)

/-- Records read one after another check the rows of each in turn. -/
theorem Checks.records {α : Type} {read : Nat → Except MemFail α} {check : List α → Nat → α → Option Result}
    {size first n : Nat} {record : Nat → α} {rows : Nat → List (Prop × Result)} {stray : Prop}
    (hread : ∀ i, i < n → read (first + size * i) = .ok (record i))
    (hcheck : ∀ i, i < n → check ((List.range i).map record) i (record i) = firstHolding (rows i)) :
    Checks ((List.range n).flatMap rows) stray (mustReadRecords (readRecords read check size n 0 first []))
      (fun rs => rs = (List.range n).map record) := by
  suffices h : ∀ m i, i + m = n → Checks ((List.range' i m).flatMap rows) stray
      (mustReadRecords (readRecords read check size m i (first + size * i) ((List.range i).map record)))
      (fun rs => rs = (List.range n).map record) by
    have := h n 0 (Nat.zero_add n)
    rwa [← List.range_eq_range'] at this
  intro m
  induction m with
  | zero =>
    intro i hi
    obtain rfl : i = n := hi
    exact Checks.value rfl
  | succ m ih =>
    intro i hi
    have hnext := ih (i + 1) (by omega)
    rw [List.range_succ, List.map_append, Nat.mul_succ, ← Nat.add_assoc] at hnext
    simp only [List.range'_succ, List.flatMap_cons, readRecords, hread i (by omega), hcheck i (by omega)]
    cases hrow : firstHolding (rows i) with
    | some r =>
      show firstHolding (rows i ++ _) = some r
      rw [firstHolding_append, hrow]
    | none =>
      unfold Checks
      rw [firstHolding_append, hrow]
      exact hnext

/-! ### Reads that the board answers (11.1, R191) -/

section
variable (v : View) (a : Nat)

/-- R168: the byte at an offset of the copy at `a`. -/
def View.place (o : Nat) : Byte := Memory.read v.mem (busAddress v.base (a + o))

/-- R191: one byte of the copy as a number. -/
def View.at8 (o : Nat) : Nat := (v.place a o).toNat

/-- R191: two bytes of the copy as a number. -/
def View.at16 (o : Nat) : Nat := v.at8 a o + 256 * v.at8 a (o + 1)

/-- R191: four bytes of the copy as a number. -/
def View.at32 (o : Nat) : Nat := v.at16 a o + 65536 * v.at16 a (o + 2)

end

section
variable {v : View} {a : Nat} {b : Nat → Byte}

/-- R191: a number of `n` bytes. -/
theorem View.bytes_of_byte {n : Nat} (h : ∀ i, i < n → v.byte (a + i) = .ok (b i)) :
    v.bytes a n = .ok ((List.range n).map b) := by
  induction n generalizing a b with
  | zero => rfl
  | succ n ih =>
    have hrest := ih (a := a + 1) (b := fun i => b (i + 1)) fun i hi => by
      rw [show a + 1 + i = a + (i + 1) by omega]
      exact h (i + 1) (Nat.succ_lt_succ hi)
    rw [View.bytes_succ_eq_ok]
    exact ⟨b 0, _, h 0 (Nat.succ_pos n), hrest, by rw [List.range_succ_eq_map, List.map_cons, List.map_map]; rfl⟩

theorem View.field_of_byte {n : Nat} (h : ∀ i, i < n → v.byte (a + i) = .ok (b i)) :
    v.field a n = .ok (littleEndian ((List.range n).map b)) := by
  simp only [View.field, View.bytes_of_byte h]

theorem View.u8_of_byte (h : v.byte a = .ok (b 0)) : v.u8 a = .ok (b 0).toNat := by
  refine (View.field_of_byte (b := b) (n := 1) fun i hi => ?_).trans (congrArg Except.ok ?_)
  · obtain rfl : i = 0 := by omega
    exact h
  · simp [List.range_succ, littleEndian]

theorem View.u16_of_byte (h : ∀ i, i < 2 → v.byte (a + i) = .ok (b i)) :
    v.u16 a = .ok ((b 0).toNat + 256 * (b 1).toNat) := by
  refine (View.field_of_byte h).trans (congrArg Except.ok ?_)
  simp [List.range_succ, littleEndian]

theorem View.u32_of_byte (h : ∀ i, i < 4 → v.byte (a + i) = .ok (b i)) :
    v.u32 a = .ok ((b 0).toNat + 256 * (b 1).toNat + 65536 * (b 2).toNat + 16777216 * (b 3).toNat) := by
  refine (View.field_of_byte h).trans (congrArg Except.ok ?_)
  simp only [List.range_succ, List.range_zero, List.nil_append, List.cons_append, List.map_cons, List.map_nil,
    littleEndian]
  omega

/-- A byte that is read is that of its place. -/
theorem View.byte_value {o : Nat} {x : Byte} (h : v.byte (a + o) = .ok x) : x = v.place a o := by
  unfold View.byte at h
  split at h
  · cases h
  · split at h
    · cases h
    · exact (Except.ok.inj h).symm

/-- A one-byte number that is read is that of its place. -/
theorem View.u8_value {o n : Nat} (h : v.u8 (a + o) = .ok n) : n = v.at8 a o := by
  unfold View.u8 View.field at h
  split at h
  · cases h
  · next bs hbs =>
    obtain ⟨x, rest, hx, hrest, rfl⟩ := View.bytes_succ_eq_ok.mp hbs
    cases hrest
    cases h
    simp [View.at8, ← View.byte_value hx, littleEndian]

end

/-- The board answers every read of the `len` bytes at `a`, which lie in the window (R168, R169). -/
structure View.Answers (v : View) (a len : Nat) : Prop where
  clear : v.bus.readErrors = []
  window : a + len ≤ 16777216

section
variable {v : View} {a len o : Nat} (h : v.Answers a len)
include h

theorem View.Answers.byte (ho : o < len) : v.byte (a + o) = .ok (v.place a o) := by
  have hin : ¬ windowSize ≤ a + o := by
    have := h.window
    unfold windowSize
    omega
  rw [View.byte, if_neg hin, h.clear]
  rfl

theorem View.Answers.bytes {n : Nat} (ho : o + n ≤ len) :
    v.bytes (a + o) n = .ok ((List.range n).map (fun i => v.place a (o + i))) :=
  View.bytes_of_byte fun i hi => by
    rw [Nat.add_assoc]
    exact h.byte (by omega)

theorem View.Answers.u8 (ho : o < len) : v.u8 (a + o) = .ok (v.at8 a o) :=
  View.u8_of_byte (b := fun i => v.place a (o + i)) (h.byte ho)

theorem View.Answers.u16 (ho : o + 2 ≤ len) : v.u16 (a + o) = .ok (v.at16 a o) :=
  View.u16_of_byte (b := fun i => v.place a (o + i)) fun i hi => by
    rw [Nat.add_assoc]
    exact h.byte (by omega)

theorem View.Answers.u32 (ho : o + 4 ≤ len) : v.u32 (a + o) = .ok (v.at32 a o) := by
  refine (View.u32_of_byte (b := fun i => v.place a (o + i)) fun i hi => ?_).trans (congrArg Except.ok ?_)
  · rw [Nat.add_assoc]
    exact h.byte (by omega)
  · simp only [View.at32, View.at16, View.at8, Nat.add_assoc, Nat.reduceAdd, Nat.add_zero]
    omega

end

end Sys2Proof.Machine
end

section
/-! PROOF. The checks of a coach profile (R177 with R3, R24, R156, R85, R141 and R61), section by section, and the
values that a passed profile gives. -/

namespace Sys2Proof.Machine

/-! ### The sections before the lines (R3, R24, R156, R85) -/

section
variable (v : View) (a : Nat)

/-- R3: the row of the odometer parameters. -/
def View.odometerRow : Prop × Result :=
  (1 < v.at8 a 0x10 ∨ (v.at8 a 0x11 ≠ 1 ∧ v.at8 a 0x11 ≠ 4 ∧ v.at8 a 0x11 ≠ 16) ∨ v.at16 a 0x12 < 1500 ∨
    4000 < v.at16 a 0x12 ∨ v.at8 a 0x14 < 1 ∨ 200 < v.at8 a 0x14 ∨ v.at16 a 0x18 < 1 ∨ 4000 < v.at16 a 0x18 ∨
    3999 < v.at16 a 0x1A ∨ v.at8 a 0x15 < 1 ∨ 31 < v.at8 a 0x15 ∨ v.at8 a 0x16 < 1 ∨ 7 < v.at8 a 0x16 ∨
    v.at8 a 0x17 < 1 ∨ 31 < v.at8 a 0x17 ∨ v.at16 a 0x18 ≤ v.at16 a 0x1A, .range)

/-- R24: the row of the tracker parameters. -/
def View.trackerRow : Prop × Result :=
  (v.at8 a 0x1C < 1 ∨ 4 < v.at8 a 0x1C ∨ 60000 < v.at16 a 0x1E ∨ 10000 < v.at16 a 0x20 ∨ 20000 < v.at16 a 0x22, .range)

/-- R156: the row of the sweep parameters. -/
def View.sweepRow : Prop × Result :=
  (v.at16 a 0x24 < 50 ∨ 1000 < v.at16 a 0x24 ∨ 2 < v.at8 a 0x28 ∨ ∃ i, i < 4 ∧ 7 < v.at8 a (0x2C + i) % 128, .range)

/-- R85: the row of the default pages. -/
def View.defaultPageRow : Prop × Result := (63 < v.at8 a 0x29 ∨ 63 < v.at8 a 0x2A, .range)

end

/-- A read within a validation that succeeds. -/
theorem mustRead_ok {α : Type} (y : α) : mustRead (.ok y : Except MemFail α) = .ok y := rfl

/-- A computation that has succeeded goes on. -/
theorem ok_bind {ε α β : Type} (y : α) (f : α → Except ε β) : ((.ok y : Except ε α) >>= f) = f y := rfl

/-- 11.3: the output source codes in order. -/
theorem outSourceOf_eq (n : Nat) : outSourceOf n
    = [OutSource.off, .on, .chime, .doorsReleased, .moving, .sweepPulse, .panelFault, .attention][n]? := by
  unfold outSourceOf
  split <;> simp_all
  omega

/-- 11.3: the named roles. -/
theorem roleOf_eq_none (n : Nat) : roleOf n = none ↔ 2 < n := by
  unfold roleOf
  split <;> simp_all
  omega

section
variable {v : View} {a len : Nat} (h : v.Answers a len) {stray : Prop}
include h

/-- R3. -/
theorem View.profileOdometer_checks (hlen : 0x1C ≤ len) : Checks [v.odometerRow a] stray (v.profileOdometer a)
    (fun x => x = ({ rising := decide (v.at8 a 0x10 = 0), d := v.at8 a 0x11, c := v.at16 a 0x12, p := v.at8 a 0x14 },
      { vMove := v.at16 a 0x18, vStop := v.at16 a 0x1A, nMove := v.at8 a 0x15, nStill := v.at8 a 0x16
        nDoor := v.at8 a 0x17 })) := by
  unfold View.profileOdometer
  simp (disch := omega) only [h.u8, h.u16, mustRead_ok, ok_bind]
  refine Checks.map (Checks.refuse_row ?_ ?_) fun _ _ => rfl
  · simp
  · simp only [List.any_cons, List.any_nil, Bool.or_eq_true, decide_eq_true_eq, Bool.false_eq_true, or_false, or_assoc]

/-- R24. -/
theorem View.profileTracker_checks (hlen : 0x24 ≤ len) : Checks [v.trackerRow a] stray (v.profileTracker a)
    (fun x => x = { portion := v.at8 a 0x1C, a := v.at16 a 0x1E, w := v.at16 a 0x20, o := v.at16 a 0x22 }) := by
  unfold View.profileTracker
  simp (disch := omega) only [h.u8, h.u16, mustRead_ok, ok_bind]
  refine Checks.map (Checks.refuse_row ?_ ?_) fun _ _ => rfl
  · simp
  · simp only [List.any_cons, List.any_nil, Bool.or_eq_true, decide_eq_true_eq, Bool.false_eq_true, or_false, or_assoc]

end

/-- 11.3: the setting of an output whose source is named. -/
theorem outSetting_source {b : Byte} (hb : ¬ 7 < b.toNat % 128) :
    [OutSource.off, .on, .chime, .doorsReleased, .moving, .sweepPulse, .panelFault, .attention][b.toNat % 128]?
      = some (outSetting b).source := by
  have hlt : b.toNat % 128 < 8 := by omega
  rw [outSetting, outSourceOf_eq]
  dsimp only
  rw [List.getElem?_eq_getElem hlt]
  rfl

section
variable {v : View} {a len : Nat} (h : v.Answers a len) {stray : Prop}
include h

/-- R156. -/
theorem View.profileSweep_checks (hlen : 0x30 ≤ len) : Checks [v.sweepRow a] stray (v.profileSweep a)
    (fun x => x.period = v.at16 a 0x24 ∧ x.wrap = v.at16 a 0x26 ∧
      (v.at8 a 0x28 = 0 ∧ x.role = .alone ∨ v.at8 a 0x28 = 1 ∧ x.role = .lead ∨ v.at8 a 0x28 = 2 ∧ x.role = .follow) ∧
      x.outs.length = 4 ∧
      ∀ (i : Nat) (o : OutSetting), x.outs[i]? = some o → o.invert = (v.at8 a (0x2C + i)).testBit 7 ∧
        [OutSource.off, .on, .chime, .doorsReleased, .moving, .sweepPulse, .panelFault,
          .attention][v.at8 a (0x2C + i) % 128]? = some o.source) := by
  unfold View.profileSweep
  simp (disch := omega) only [h.u8, h.u16, h.bytes, mustRead_ok, ok_bind]
  refine Checks.map (Checks.refuse_row ?_ ?_) fun _ hrow => ⟨rfl, rfl, ?_, ?_, ?_⟩
  · simp
  · simp only [List.any_cons, List.any_nil, List.any_map, List.any_eq_true, List.mem_range, Function.comp_apply,
      Bool.or_eq_true, decide_eq_true_eq, Bool.false_eq_true, or_false, or_assoc, roleOf_eq_none, outSourceOf_eq,
      List.getElem?_eq_none_iff, List.length_cons, List.length_nil, Nat.succ_le_iff, View.at8]
  · have hrole : v.at8 a 0x28 = 0 ∨ v.at8 a 0x28 = 1 ∨ v.at8 a 0x28 = 2 := by omega
    rcases hrole with h | h | h <;> simp [h, roleOf]
  · simp
  · intro i o ho
    obtain ⟨hi, rfl⟩ := List.getElem?_eq_some_iff.mp ho
    simp only [List.length_map, List.length_range] at hi
    simp only [List.getElem_map, List.getElem_range]
    exact ⟨rfl, outSetting_source fun hb => hrow (.inr (.inr (.inr ⟨i, hi, hb⟩)))⟩

/-! ### The lines (R141) -/

end

section
variable (v : View) (a : Nat) (l : Line)

/-- 11.3: panel `i` of a line's descriptor. -/
def View.linePanel (i : Nat) : PanelPlace :=
  { address := v.at8 a (lineOffset l + 24 + 2 * i), group := v.at8 a (lineOffset l + 25 + 2 * i) }

/-- R141: the row of a line's panel count. -/
def View.lineCountRow : Prop × Result := (panelLimit l < v.at8 a (lineOffset l + 1), .count)

/-- R141: the rows of a line's panels, groups, rate and levels. -/
def View.linePanelRows : List (Prop × Result) :=
  let panels := v.at8 a (lineOffset l + 1)
  let address (i : Nat) : Nat := v.at8 a (lineOffset l + 24 + 2 * i)
  let group (i : Nat) : Nat := v.at8 a (lineOffset l + 25 + 2 * i)
  [ (∃ i, i < panels ∧ (address i = 0 ∨ 63 < address i), .range),
    (∃ i j, i < j ∧ j < panels ∧ address i = address j, .duplicate),
    ((∃ i, i < panels ∧ 3 < group i) ∨ (∃ g, g < 4 ∧ v.at8 a (lineOffset l + 2 + g) / 16 = 0), .range),
    (3 < v.at8 a (lineOffset l), .range), (∃ i, i < 9 ∧ 15 < v.at8 a (lineOffset l + 14 + i), .range) ]

/-- 11.3: the values of a line's descriptor. -/
def View.lineValues : LineConfig :=
  { rate := v.at8 a (lineOffset l)
    panels := (List.range (v.at8 a (lineOffset l + 1))).map (v.linePanel a l)
    groups := (List.range 4).map (fun g => { grouped := (v.at8 a (lineOffset l + 2 + g)).testBit 0
                                             hold := v.at8 a (lineOffset l + 2 + g) / 16 })
    thresholds := (List.range 8).map (fun i => v.at8 a (lineOffset l + 6 + i))
    levels := (List.range 9).map (fun i => v.at8 a (lineOffset l + 14 + i)) }

end

/-- 11.3: panels stand in twos, address then group. -/
theorem pairsOf_range (f : Nat → Byte) (n : Nat) : pairsOf ((List.range (2 * n)).map f)
    = (List.range n).map (fun i => { address := (f (2 * i)).toNat, group := (f (2 * i + 1)).toNat }) := by
  induction n generalizing f with
  | zero => rfl
  | succ n ih =>
    have htwo : (List.range (2 * (n + 1))).map f = f 0 :: f 1 :: (List.range (2 * n)).map (fun i => f (i + 2)) := by
      rw [show 2 * (n + 1) = 2 * n + 1 + 1 by omega, List.range_succ_eq_map, List.map_cons, List.map_map,
        List.range_succ_eq_map, List.map_cons, List.map_map]
      rfl
    rw [htwo, List.range_succ_eq_map, List.map_cons, List.map_map]
    exact congrArg _ (ih fun i => f (i + 2))

/-- 11.3: the panels of a line's descriptor. -/
theorem View.linePanels_eq (v : View) (a : Nat) (l : Line) (n : Nat) :
    pairsOf ((List.range (2 * n)).map (fun i => v.place a (lineOffset l + 24 + i)))
      = (List.range n).map (v.linePanel a l) := by
  rw [pairsOf_range]
  refine List.map_congr_left fun i _ => ?_
  rw [View.linePanel, show lineOffset l + 25 + 2 * i = lineOffset l + 24 + (2 * i + 1) by omega]
  rfl

/-- R141: some address of the list stands in it twice. -/
theorem repeatedAddress_iff (ps : List PanelPlace) :
    repeatedAddress ps = true ↔ ¬ ps.Pairwise (fun p q => p.address ≠ q.address) := by
  induction ps with
  | nil => simp [repeatedAddress]
  | cons p rest ih =>
    rw [repeatedAddress, Bool.or_eq_true, ih, List.pairwise_cons, Classical.not_and_iff_not_or_not]
    refine or_congr_left ?_
    simp only [List.any_eq_true, beq_iff_eq, ne_eq, not_forall, Classical.not_not, exists_prop]
    exact exists_congr fun q => and_congr_right fun _ => eq_comm

theorem repeatedAddress_range (place : Nat → PanelPlace) (n : Nat) :
    repeatedAddress ((List.range n).map place) = true ↔
      ∃ i j, i < j ∧ j < n ∧ (place i).address = (place j).address := by
  rw [repeatedAddress_iff, List.pairwise_iff_getElem]
  simp only [List.length_map, List.length_range, List.getElem_map, List.getElem_range]
  push Not
  constructor
  · rintro ⟨i, j, -, hj, hij, hsame⟩
    exact ⟨i, j, hij, hj, hsame⟩
  · rintro ⟨i, j, hij, hj, hsame⟩
    exact ⟨i, j, hij.trans hj, hj, hij, hsame⟩

/-- 11.3: every line's descriptor, with its greatest number of panels, lies before the seat map. -/
theorem lineOffset_fits (l : Line) : lineOffset l + 24 + 2 * panelLimit l ≤ 0x1A0 := by
  cases l <;> decide

section
variable {v : View} {a len : Nat} (h : v.Answers a len) (hlen : 0x1A0 ≤ len) {stray : Prop}
include h hlen

/-- R141: a line of a profile. -/
theorem View.profileLine_checks (l : Line) : Checks ([v.lineCountRow a l] ++ v.linePanelRows a l) stray
    (v.profileLine a l) (fun c => c = v.lineValues a l) := by
  have hfits := lineOffset_fits l
  unfold View.profileLine
  simp (disch := omega) only [Nat.add_assoc, h.u8, mustRead_ok, ok_bind]
  refine Checks.bind (Checks.refuse_row (c := panelLimit l < v.at8 a (lineOffset l + 1)) ?_ ?_) fun _ hcount => ?_
  · simp
  · simp
  · simp (disch := omega) only [h.bytes, mustRead_ok, ok_bind, View.linePanels_eq]
    refine Checks.map (Checks.refuse_rows (.cons ⟨?_, rfl⟩ (.cons ⟨?_, rfl⟩ (.cons ⟨?_, rfl⟩ (.cons ⟨?_, rfl⟩
      (.cons ⟨?_, rfl⟩ .nil)))))) fun _ _ => ?_
    · simp only [List.any_map, List.any_eq_true, List.mem_range, Function.comp_apply, Bool.or_eq_true,
        decide_eq_true_eq]
      rfl
    · rw [repeatedAddress_range]
      rfl
    · simp only [List.any_map, List.any_eq_true, List.mem_range, Function.comp_apply, Bool.or_eq_true,
        decide_eq_true_eq]
      rfl
    · simp
    · simp [View.at8]
    · simp only [View.lineValues, List.map_map]
      rfl

end

/-! ### The seat map and the seat pages (R61) -/

section
variable (v : View) (a : Nat)

/-- 11.3: entry `i` of the seat map as it stands in memory. -/
def View.rawSeat (i : Nat) : RawSeat :=
  { number := v.at16 a (0x1A0 + 4 * i), address := v.at8 a (0x1A0 + 4 * i + 2), half := v.at8 a (0x1A0 + 4 * i + 3) }

/-- R61: the rows of entry `i` of the seat map. -/
def View.seatPlaceRows (i : Nat) : List (Prop × Result) :=
  let seat (i : Nat) : Nat := 0x1A0 + 4 * i
  [ (v.at16 a (seat i) = 0 ∨ 999 < v.at16 a (seat i), .range),
    (∃ j, j < i ∧ v.at16 a (seat j) = v.at16 a (seat i), .duplicate),
    (v.at8 a (seat i + 2) = 0 ∨ 63 < v.at8 a (seat i + 2), .range),
    (∀ j, j < v.at8 a (lineOffset .seat + 1) → v.at8 a (lineOffset .seat + 24 + 2 * j) ≠ v.at8 a (seat i + 2), .range),
    (1 < v.at8 a (seat i + 3), .range),
    (∃ j, j < i ∧ v.at8 a (seat j + 2) = v.at8 a (seat i + 2) ∧ v.at8 a (seat j + 3) = v.at8 a (seat i + 3),
      .duplicate) ]

/-- R61: the row of the seat pages. -/
def View.seatPageRow : Prop × Result := (∃ i, i < 6 ∧ 63 < v.at8 a (0x30 + i), .range)

/-- R61: an entry is checked as its rows say, against the SEAT line and the entries before it. -/
theorem View.seatPlaceCheck_rows (i : Nat) :
    seatPlaceCheck (v.lineValues a .seat) ((List.range i).map (v.rawSeat a)) i (v.rawSeat a i)
      = firstHolding (v.seatPlaceRows a i) := by
  refine firstFailure_eq_firstHolding (.cons ⟨?_, rfl⟩ (.cons ⟨?_, rfl⟩ (.cons ⟨?_, rfl⟩ (.cons ⟨?_, rfl⟩
    (.cons ⟨?_, rfl⟩ (.cons ⟨?_, rfl⟩ .nil))))))
  · simp only [Bool.or_eq_true, decide_eq_true_eq]
    rfl
  · simp only [List.any_map, List.any_eq_true, List.mem_range, Function.comp_apply, beq_iff_eq]
    rfl
  · simp only [Bool.or_eq_true, decide_eq_true_eq]
    rfl
  · simp only [View.lineValues, List.any_map, Bool.not_eq_true', List.any_eq_false, List.mem_range,
      Function.comp_apply, beq_iff_eq]
    rfl
  · simp only [decide_eq_true_eq]
    rfl
  · simp only [List.any_map, List.any_eq_true, List.mem_range, Function.comp_apply, beq_iff_eq, Bool.and_eq_true]
    rfl

end

section
variable {v : View} {a n : Nat} (h : v.Answers a (416 + 4 * n)) {stray : Prop}
include h

/-- 11.3: an entry of the seat map. -/
theorem View.Answers.seatPlace {i : Nat} (hi : i < n) : v.seatPlace (a + 0x1A0 + 4 * i) = .ok (v.rawSeat a i) := by
  unfold View.seatPlace
  simp (disch := omega) only [Nat.add_assoc a, h.u16, h.u8, ok_bind]
  rfl

/-- R61: the seat map and the six seat pages. -/
theorem View.profileSeats_checks : Checks
    ([(96 < n, .count)] ++ ((List.range n).flatMap (v.seatPlaceRows a) ++ [v.seatPageRow a])) stray
    (v.profileSeats a n (v.lineValues a .seat))
    (fun x => x.1 = (List.range n).map (fun i => (v.rawSeat a i).toPlace) ∧
      x.2 = (List.range 6).map (fun i => v.at8 a (0x30 + i))) := by
  unfold View.profileSeats
  simp (disch := omega) only [h.bytes, mustRead_ok, ok_bind]
  refine Checks.bind (Checks.refuse_row (c := 96 < n) ?_ ?_) fun _ _ => Checks.bind (Checks.records
    (fun i hi => h.seatPlace hi) fun i _ => v.seatPlaceCheck_rows a i) fun seats hseats => ?_
  · simp
  · simp
  · subst hseats
    refine Checks.map (Checks.refuse_row ?_ ?_) fun _ _ => ⟨List.map_map, List.map_map⟩
    · simp
    · simp [View.at8]

end

/-! ### The whole profile (R177) -/

section
variable (v : View) (a n : Nat)

/-- R177: the rows of a coach profile of `n` seats, in the order of its checks. -/
def View.profileRows : List (Prop × Result) :=
  [v.odometerRow a, v.trackerRow a, v.sweepRow a, v.defaultPageRow a]
  ++ ([v.lineCountRow a .seat] ++ v.linePanelRows a .seat) ++ ([v.lineCountRow a .end_] ++ v.linePanelRows a .end_)
  ++ ([v.lineCountRow a .door] ++ v.linePanelRows a .door) ++ [(96 < n, .count)]
  ++ (List.range n).flatMap (v.seatPlaceRows a) ++ [v.seatPageRow a]

/-- 11.3: the values of a coach profile of `n` seats. -/
def View.profileGives (f : Profile) : Prop :=
  f.wheel = { rising := decide (v.at8 a 0x10 = 0), d := v.at8 a 0x11, c := v.at16 a 0x12, p := v.at8 a 0x14 } ∧
  f.motion = { vMove := v.at16 a 0x18, vStop := v.at16 a 0x1A, nMove := v.at8 a 0x15, nStill := v.at8 a 0x16
               nDoor := v.at8 a 0x17 } ∧
  f.portion = v.at8 a 0x1C ∧ f.a = v.at16 a 0x1E ∧ f.w = v.at16 a 0x20 ∧ f.o = v.at16 a 0x22 ∧
  f.period = v.at16 a 0x24 ∧ f.wrap = v.at16 a 0x26 ∧
  (v.at8 a 0x28 = 0 ∧ f.role = .alone ∨ v.at8 a 0x28 = 1 ∧ f.role = .lead ∨ v.at8 a 0x28 = 2 ∧ f.role = .follow) ∧
  f.outs.length = 4 ∧
  (∀ (i : Nat) (o : OutSetting), f.outs[i]? = some o → o.invert = (v.at8 a (0x2C + i)).testBit 7 ∧
    [OutSource.off, .on, .chime, .doorsReleased, .moving, .sweepPulse, .panelFault,
      .attention][v.at8 a (0x2C + i) % 128]? = some o.source) ∧
  f.endPage = v.at8 a 0x29 ∧ f.doorPage = v.at8 a 0x2A ∧
  f.seatPages = (List.range 6).map (fun i => v.at8 a (0x30 + i)) ∧
  f.seat = v.lineValues a .seat ∧ f.end_ = v.lineValues a .end_ ∧ f.door = v.lineValues a .door ∧
  f.seatMap = (List.range n).map (fun i => (v.rawSeat a i).toPlace)

end

/-- R177: a coach profile is checked section by section. -/
theorem View.profile_checks {v : View} {a n : Nat} (h : v.Answers a (416 + 4 * n)) {stray : Prop} :
    Checks (v.profileRows a n) stray (v.profile a n) (v.profileGives a n) := by
  have hrows : v.profileRows a n = [v.odometerRow a] ++ ([v.trackerRow a] ++ ([v.sweepRow a] ++ ([v.defaultPageRow a]
      ++ (([v.lineCountRow a .seat] ++ v.linePanelRows a .seat)
      ++ (([v.lineCountRow a .end_] ++ v.linePanelRows a .end_)
      ++ (([v.lineCountRow a .door] ++ v.linePanelRows a .door)
      ++ ([(96 < n, .count)] ++ ((List.range n).flatMap (v.seatPlaceRows a) ++ [v.seatPageRow a])))))))) := by
    simp only [View.profileRows, List.append_assoc, List.cons_append, List.nil_append]
  rw [hrows]
  unfold View.profile
  simp (disch := omega) only [h.u8, mustRead_ok, ok_bind]
  refine Checks.bind (View.profileOdometer_checks h (by omega)) fun odo hodo =>
    Checks.bind (View.profileTracker_checks h (by omega)) fun trk htrk =>
    Checks.bind (View.profileSweep_checks h (by omega)) fun swp hswp =>
    Checks.bind (Checks.refuse_row ?_ ?_) fun _ _ =>
    Checks.bind (View.profileLine_checks h (by omega) .seat) fun seat hseat =>
    Checks.bind (View.profileLine_checks h (by omega) .end_) fun end_ hend =>
    Checks.bind (View.profileLine_checks h (by omega) .door) fun door hdoor => ?_
  · simp
  · simp
  · subst hodo htrk hseat hend hdoor
    obtain ⟨hperiod, hwrap, hrole, hcount, houts⟩ := hswp
    exact Checks.map (View.profileSeats_checks h) fun seats ⟨hmap, hpages⟩ => ⟨rfl, rfl, rfl, rfl, rfl, rfl, hperiod,
      hwrap, hrole, hcount, houts, rfl, rfl, hpages, rfl, rfl, rfl, hmap⟩

end Sys2Proof.Machine
end

section
/-! PROOF. The checks of a content set (R192, R106, R126): its directory and areas, its pages with their windows, its
glyphs, its strips and its run code table. -/

namespace Sys2Proof.Machine

/-! ### Checks of one thing -/

/-- A check made by its result. -/
def refuseBy (r : Option Result) : Except Reject Unit :=
  match r with
  | some r => .error (.result r)
  | none => .ok ()

theorem Checks.refuseBy {r : Option Result} {rows : List (Prop × Result)} {stray : Prop} (h : r = firstHolding rows) :
    Checks rows stray (Machine.refuseBy r) (fun _ => True) := by
  subst h
  unfold Machine.refuseBy
  split
  · next r hr => exact hr
  · next hnone => exact ⟨hnone, trivial⟩

/-! ### Windows (R106) -/

/-- R106: the checks that a window's kind adds, in the order of the rows. -/
def kindChecks (pool : Nat) (height : Option Nat) (k : WindowKind) : List (Bool × Result) :=
  match k with
  | .text _ _ zoomH zoomV _ marquee speed field fixed =>
    [ (decide (zoomH < 1 ∨ 8 < zoomH ∨ zoomV < 1 ∨ 4 < zoomV ∨ 10 < field), .range),
      (marquee && decide (speed < 1 ∨ 64 < speed), .range),
      (decide (field = 0) && fixed.any (fun r => decide (pool ≤ r)), .range), (false, .range) ]
  | .strip _ y0 fy _ =>
    [(false, .range), (false, .range), (false, .range), (height.all (fun h => decide (h ≤ y0 ∨ 15 < fy)), .range)]
  | .bar _ _ _ | .fill _ | .other => [(false, .range), (false, .range), (false, .range), (false, .range)]

theorem windowCheck_eq (pool : Nat) (height : Option Nat) (w : Window) : windowCheck pool height w
    = firstFailure ([ (decide (w.kind = .other), .range),
        (decide (w.stopCol < w.startCol ∨ w.stopRow < w.startRow), .order) ] ++ kindChecks pool height w.kind) := by
  rw [firstFailure_append, windowCheck]
  cases firstFailure [ (decide (w.kind = .other), .range),
      (decide (w.stopCol < w.startCol ∨ w.stopRow < w.startRow), .order) ] with
  | some r => rfl
  | none =>
    cases w.kind with
    | text ink paper zoomH zoomV centre marquee speed field fixed =>
      cases fixed <;> simp [textCheck, kindChecks, firstFailure]
    | strip index y0 fy marker => cases height <;> rfl
    | bar ink paper border => rfl
    | fill n => rfl
    | other => rfl

section
variable (v : View) (a : Nat)

/-- 11.4: what stands in a window from byte 5 on, by its kind code. -/
def View.kindAt (o code : Nat) : WindowKind :=
  match code with
  | 1 => .text (v.at8 a (o + 5)) (v.at8 a (o + 6)) (v.at8 a (o + 7)) (v.at8 a (o + 8)) ((v.at8 a (o + 9)).testBit 0)
      ((v.at8 a (o + 9)).testBit 1) (v.at8 a (o + 10)) (v.at8 a (o + 11)) (optional16 (v.at16 a (o + 12)))
  | 2 => .bar (v.at8 a (o + 5)) (v.at8 a (o + 6)) (v.at8 a (o + 7))
  | 3 => .strip (v.at8 a (o + 5)) (v.at8 a (o + 6)) (v.at8 a (o + 7)) (decide (v.at8 a (o + 8) ≠ 0))
  | 4 => .fill (v.at8 a (o + 5))
  | _ => .other

/-- 11.4: the window place at an offset of the copy. -/
def View.windowAt (o : Nat) : Window :=
  { startCol := v.at8 a (o + 1), stopCol := v.at8 a (o + 2), startRow := v.at8 a (o + 3), stopRow := v.at8 a (o + 4)
    kind := v.kindAt a o (v.at8 a o) }

/-- 11.4: where the header of strip `i` stands. -/
def View.stripAt (i : Nat) : Nat := v.at32 a (0x34 + 4 * i)

/-- R106: the height of the strip that a window names, where the copy holds it (log 77). -/
def View.heightAt (k : WindowKind) : Option Nat :=
  match k with
  | .strip index _ _ _ =>
    if index < v.at8 a 0x1B ∧ index < 2 then some (v.at8 a (v.stripAt a index + 2)) else none
  | .text _ _ _ _ _ _ _ _ _ | .bar _ _ _ | .fill _ | .other => none

/-- R106: the rows of what a window's kind adds. -/
def View.kindRows (o : Nat) : List (Prop × Result) :=
  let b := v.at8 a
  [ (b o = 1 ∧ (b (o + 7) < 1 ∨ 8 < b (o + 7) ∨ b (o + 8) < 1 ∨ 4 < b (o + 8) ∨ 10 < b (o + 11)), .range),
    (b o = 1 ∧ (b (o + 9)).testBit 1 = true ∧ (b (o + 10) < 1 ∨ 64 < b (o + 10)), .range),
    (b o = 1 ∧ b (o + 11) = 0 ∧ v.at16 a (o + 12) ≠ 65535 ∧ v.at16 a 0x18 ≤ v.at16 a (o + 12), .range),
    (b o = 3 ∧ (b 0x1B ≤ b (o + 5) ∨ 2 ≤ b (o + 5) ∨ b (v.stripAt a (b (o + 5)) + 2) ≤ b (o + 6) ∨ 15 < b (o + 7)),
      .range) ]

/-- R106: the rows of the window at an offset of the copy. -/
def View.windowRows (o : Nat) : List (Prop × Result) :=
  [ (v.at8 a o < 1 ∨ 4 < v.at8 a o, .range),
    (v.at8 a (o + 2) < v.at8 a (o + 1) ∨ v.at8 a (o + 4) < v.at8 a (o + 3), .order) ] ++ v.kindRows a o

/-- 11.4: a kind code is one of the four named or another. -/
theorem View.kindAt_cases (o code : Nat) : (code = 1 ∨ code = 2 ∨ code = 3 ∨ code = 4) ∨
    (code < 1 ∨ 4 < code) ∧ v.kindAt a o code = .other := by
  by_cases h : code < 1 ∨ 4 < code
  · refine .inr ⟨h, ?_⟩
    unfold View.kindAt
    split
    · omega
    · omega
    · omega
    · omega
    · rfl
  · exact .inl (by omega)

theorem View.kindAt_eq_other (o code : Nat) : v.kindAt a o code = .other ↔ code < 1 ∨ 4 < code := by
  obtain (rfl | rfl | rfl | rfl) | ⟨hcode, hother⟩ := v.kindAt_cases a o code
  · simp [View.kindAt]
  · simp [View.kindAt]
  · simp [View.kindAt]
  · simp [View.kindAt]
  · simp only [hcode, hother]

/-- R106: the checks that a kind adds are its rows. -/
theorem View.kindChecks_rows (o : Nat) : List.Forall₂ SameCheck (v.kindRows a o)
    (kindChecks (v.at16 a 0x18) (v.heightAt a (v.kindAt a o (v.at8 a o))) (v.kindAt a o (v.at8 a o))) := by
  simp only [View.kindRows]
  obtain (h | h | h | h) | ⟨hcode, hother⟩ := v.kindAt_cases a o (v.at8 a o)
  · by_cases habsent : v.at16 a (o + 12) = 65535 <;> simp [h, habsent, View.kindAt, kindChecks, SameCheck, optional16]
  · simp [h, View.kindAt, kindChecks, SameCheck]
  · simp only [h, View.kindAt, View.heightAt]
    split
    · next hheld =>
      obtain ⟨hcount, htwo⟩ := hheld
      simp [kindChecks, SameCheck, Nat.not_le.mpr hcount, Nat.not_le.mpr htwo]
    · next hheld =>
      simp [kindChecks, SameCheck]
      omega
  · simp [h, View.kindAt, kindChecks, SameCheck]
  · have hnot : v.at8 a o ≠ 1 ∧ v.at8 a o ≠ 3 := by omega
    simp [hother, hnot, kindChecks, SameCheck]

/-- R106: a window is checked as its rows say. -/
theorem View.windowCheck_rows (o : Nat) :
    windowCheck (v.at16 a 0x18) (v.heightAt a (v.windowAt a o).kind) (v.windowAt a o)
      = firstHolding (v.windowRows a o) := by
  rw [windowCheck_eq]
  exact firstFailure_eq_firstHolding (List.rel_append
    (.cons ⟨(v.kindAt_eq_other a o _).symm.trans decide_eq_true_iff.symm, rfl⟩
      (.cons ⟨decide_eq_true_iff.symm, rfl⟩ .nil))
    (v.kindChecks_rows a o))

end

section
variable {v : View} {a len o : Nat} (h : v.Answers a len)
include h

/-- 11.4: what a window's kind gives it. -/
theorem View.Answers.windowKind (ho : o + 16 ≤ len) (code : Nat) :
    v.windowKind (a + o) code = .ok (v.kindAt a o code) := by
  unfold View.windowKind View.kindAt
  split <;> simp (disch := omega) only [Nat.add_assoc a, h.u8, h.u16, ok_bind]

/-- 11.4: a window place. -/
theorem View.Answers.windowPlace (ho : o + 16 ≤ len) : v.window (a + o) = .ok (v.windowAt a o) := by
  unfold View.window
  simp (disch := omega) only [h.windowKind ho, Nat.add_assoc a, h.u8, ok_bind]
  rfl

/-- 11.4: the header of a strip that lies in the copy. -/
theorem View.Answers.strip {i : Nat} (hi : i < 2) (hlen : 64 ≤ len) (hfits : v.stripAt a i + 8 ≤ len) : v.strip a i
    = .ok { width := v.at16 a (v.stripAt a i), height := v.at8 a (v.stripAt a i + 2)
            pixels := v.at32 a (v.stripAt a i + 4) } := by
  refine View.strip_eq_ok.mpr ⟨v.stripAt a i, ?_, h.u16 (by omega), ?_, ?_⟩
  · rw [Nat.add_assoc a]
    exact h.u32 (by omega)
  · rw [Nat.add_assoc a]
    exact h.u8 (by omega)
  · rw [Nat.add_assoc a]
    exact h.u32 (by omega)

/-- R106: the height that is read is that of the strip that the window names. -/
theorem View.Answers.stripHeight_value {w : Window} {x : Option Nat} (hlen : 64 ≤ len)
    (hx : v.stripHeightOf a (v.at8 a 0x1B) w = .ok x) : x = v.heightAt a w.kind := by
  unfold View.stripHeightOf at hx
  unfold View.heightAt
  split at hx
  · next index _ _ _ hkind =>
    simp only [hkind]
    split at hx
    · next hheld =>
      obtain ⟨s, hs, hx⟩ := bind_eq_ok hx
      obtain ⟨at_, hat, -, hheight, -⟩ := View.strip_eq_ok.mp hs
      rw [Nat.add_assoc a, h.u32 (by omega)] at hat
      cases hat
      rw [Nat.add_assoc a] at hheight
      cases hx
      rw [if_pos hheld, View.u8_value hheight]
      rfl
    · next hheld =>
      cases hx
      rw [if_neg hheld]
  · next hkind =>
    cases hx
    cases hk : w.kind with
    | strip index y0 fy marker => exact absurd hk (hkind index y0 fy marker)
    | text | bar | fill | other => rfl

/-- R192: the strips that the copy holds lie in it. -/
def View.StripsFit (v : View) (a len : Nat) : Prop :=
  v.at8 a 0x1B ≤ 2 → ∀ i, i < v.at8 a 0x1B → v.stripAt a i + 8 ≤ len

/-- R106: where the strips that the copy holds lie in it, a height is not read only of a copy with too many strips
(log 77). -/
theorem View.Answers.stripHeight_fails {w : Window} {e : MemFail} (hlen : 64 ≤ len) (hfits : v.StripsFit a len)
    (he : v.stripHeightOf a (v.at8 a 0x1B) w = .error e) : 2 < v.at8 a 0x1B := by
  by_contra hfew
  unfold View.stripHeightOf at he
  split at he
  · split at he
    · next hheld =>
      obtain ⟨hcount, htwo⟩ := hheld
      rw [h.strip htwo hlen (hfits (by omega) _ hcount)] at he
      cases he
    · cases he
  · cases he

end

/-! ### Pages and glyphs (R106) -/

/-- R106: one step of the loop over a page's windows. -/
def View.checkWindow (v : View) (copy : Nat) (d : Directory) (a : Nat) : Except Reject Unit := do
  let w ← mustRead (v.window a)
  let height ← mustRead (v.stripHeightOf copy d.stripCount w)
  refuseBy (windowCheck d.poolLength height w)

theorem View.checkWindows_succ (v : View) (copy : Nat) (d : Directory) (n a : Nat) :
    v.checkWindows copy d (n + 1) a = v.checkWindow copy d a >>= fun _ => v.checkWindows copy d n (a + 16) := by
  rw [View.checkWindows, View.checkWindow]
  cases mustRead (v.window a) with
  | error e => rfl
  | ok w =>
    simp only [ok_bind]
    cases mustRead (v.stripHeightOf copy d.stripCount w) with
    | error e => rfl
    | ok height =>
      simp only [ok_bind, Machine.refuseBy]
      cases windowCheck d.poolLength height w <;> rfl

/-- R106: one step of the loop over the pages. -/
def View.checkPage (v : View) (copy : Nat) (d : Directory) (a : Nat) : Except Reject Unit := do
  let p ← mustRead (v.pageHead a)
  refuseIf
    [ (decide (p.width = 0 ∨ 256 < p.width ∨ p.height = 0 ∨ 32 < p.height), .range),
      (decide (p.windows = 0 ∨ 6 < p.windows), .count) ]
  v.checkWindows copy d p.windows (a + 8)

theorem View.checkPages_succ (v : View) (copy : Nat) (d : Directory) (n a : Nat) :
    v.checkPages copy d (n + 1) a = v.checkPage copy d a >>= fun _ => v.checkPages copy d n (a + 104) := by
  rw [View.checkPages, View.checkPage]
  simp only [bind_assoc]

/-- R106: one step of the loop over the glyphs. -/
def View.checkGlyph (v : View) (streamLength a : Nat) : Except Reject Unit := do
  let g ← mustRead (v.glyph a)
  refuseIf
    [ (decide (g.width = 0 ∨ 32 < g.width ∨ g.height = 0 ∨ 32 < g.height), .range),
      (decide (streamLength < g.offset + g.length), .range) ]

theorem View.checkGlyphs_succ (v : View) (streamLength n a : Nat) :
    v.checkGlyphs streamLength (n + 1) a
      = v.checkGlyph streamLength a >>= fun _ => v.checkGlyphs streamLength n (a + 8) := by
  rw [View.checkGlyphs, View.checkGlyph]
  simp only [bind_assoc]

section
variable (v : View) (a : Nat)

/-- 11.4: the directory of the copy at `a`. -/
def View.directoryAt : Directory :=
  { pageTable := v.at32 a 0x10, poolOffset := v.at32 a 0x14, poolLength := v.at16 a 0x18, markerGlyph := v.at8 a 0x1A
    stripCount := v.at8 a 0x1B, glyphTable := v.at32 a 0x1C, streamOffset := v.at32 a 0x20
    streamLength := v.at32 a 0x24 }

/-- R106: the rows of the page at an offset of the copy. -/
def View.pageRows (o : Nat) : List (Prop × Result) :=
  [ (v.at16 a o = 0 ∨ 256 < v.at16 a o ∨ v.at8 a (o + 2) = 0 ∨ 32 < v.at8 a (o + 2), .range),
    (v.at8 a (o + 4) = 0 ∨ 6 < v.at8 a (o + 4), .count) ]
  ++ (List.range (v.at8 a (o + 4))).flatMap (fun i => v.windowRows a (o + 8 + 16 * i))

/-- R106: the rows of the glyph at an offset of the copy. -/
def View.glyphRows (o : Nat) : List (Prop × Result) :=
  [ (v.at8 a o = 0 ∨ 32 < v.at8 a o ∨ v.at8 a (o + 1) = 0 ∨ 32 < v.at8 a (o + 1), .range),
    (v.at32 a 0x24 < v.at16 a (o + 4) + v.at16 a (o + 6), .range) ]

end

section
variable {v : View} {a len o : Nat} (h : v.Answers a len)
include h

theorem View.checkWindow_checks (hlen : 64 ≤ len) (hfits : v.StripsFit a len) (ho : o + 16 ≤ len) :
    Checks (v.windowRows a o) (2 < v.at8 a 0x1B) (v.checkWindow a (v.directoryAt a) (a + o)) (fun _ => True) :=
  Checks.read_ok (h.windowPlace ho) <| Checks.read (fun _ he => h.stripHeight_fails hlen hfits he) fun x hheight => by
    rw [h.stripHeight_value hlen hheight]
    exact Checks.refuseBy (v.windowCheck_rows a o)

theorem View.checkPage_checks (hlen : 64 ≤ len) (hfits : v.StripsFit a len) (ho : o + 104 ≤ len) :
    Checks (v.pageRows a o) (2 < v.at8 a 0x1B) (v.checkPage a (v.directoryAt a) (a + o)) (fun _ => True) := by
  unfold View.checkPage View.pageHead
  simp (disch := omega) only [Nat.add_assoc a, h.u16, h.u8, mustRead_ok, ok_bind]
  refine Checks.bind (Checks.refuse_rows
    (.cons ⟨decide_eq_true_iff.symm, rfl⟩ (.cons ⟨decide_eq_true_iff.symm, rfl⟩ .nil))) fun _ hrows => ?_
  obtain ⟨-, hcount⟩ := List.forall_mem_cons.mp hrows
  have hcount : ¬ (v.at8 a (o + 4) = 0 ∨ 6 < v.at8 a (o + 4)) := hcount _ List.mem_cons_self
  refine Checks.loop (fun _ => rfl) (v.checkWindows_succ a (v.directoryAt a)) fun i hi => ?_
  rw [Nat.add_assoc a]
  exact View.checkWindow_checks h hlen hfits (by omega)

theorem View.checkGlyph_checks {stray : Prop} (ho : o + 8 ≤ len) :
    Checks (v.glyphRows a o) stray (v.checkGlyph (v.at32 a 0x24) (a + o)) (fun _ => True) := by
  unfold View.checkGlyph View.glyph
  simp (disch := omega) only [Nat.add_assoc a, h.u16, h.u8, mustRead_ok, ok_bind]
  exact (Checks.refuse_rows (.cons ⟨decide_eq_true_iff.symm, rfl⟩ (.cons ⟨decide_eq_true_iff.symm, rfl⟩ .nil))).mono
    fun _ _ => trivial

/-- 11.4: the directory. -/
theorem View.Answers.directory (hlen : 64 ≤ len) : v.directory a = .ok (v.directoryAt a) := by
  unfold View.directory
  simp (disch := omega) only [h.u8, h.u16, h.u32, ok_bind]
  rfl

end

/-! ### The whole content set (R192, R106, R126) -/

section
variable (v : View) (a : Nat)

/-- 11.4: the header of strip `i`. -/
def View.stripHeaderAt (i : Nat) : StripHeader :=
  { width := v.at16 a (v.stripAt a i), height := v.at8 a (v.stripAt a i + 2), pixels := v.at32 a (v.stripAt a i + 4) }

/-- R192: the rows of the areas that the directory names. -/
def View.areaRows (length count : Nat) : List (Prop × Result) :=
  [ (length < v.at32 a 0x10 + 104 * count, .range), (length < v.at32 a 0x14 + v.at16 a 0x18, .range),
    (length < v.at32 a 0x1C + 2048, .range), (length < v.at32 a 0x20 + v.at32 a 0x24, .range),
    (v.at8 a 0x1B ≤ 2 ∧ ∃ i, i < v.at8 a 0x1B ∧ length < v.stripAt a i + 8, .range) ]

/-- R106: the row of the strip headers. -/
def View.stripRow (length : Nat) : Prop × Result :=
  (∃ i, i < v.at8 a 0x1B ∧ (v.at16 a (v.stripAt a i) = 0 ∨ 4096 < v.at16 a (v.stripAt a i) ∨
    v.at8 a (v.stripAt a i + 2) = 0 ∨ 64 < v.at8 a (v.stripAt a i + 2) ∨
    length < v.at32 a (v.stripAt a i + 4) + v.at16 a (v.stripAt a i) * v.at8 a (v.stripAt a i + 2)), .range)

/-- R126: the row of the run code table. -/
def View.runTableRow : Prop × Result :=
  let x (i : Nat) : Nat := v.at8 a (0x2C + i) % 8
  let ends (i : Nat) : Bool := (v.at8 a (0x2C + i)).testBit 7
  (1 < v.at8 a 0x28 ∨ 1 < v.at8 a 0x2A ∨ 1 < v.at8 a 0x2B ∨ (v.at8 a 0x28 = 1 ∧ 6 < v.at8 a 0x29) ∨
    (v.at8 a 0x28 = 0 ∧ ∃ i, i < 8 ∧ 6 < x i) ∨ (v.at8 a 0x2A = 1 ∧ ∀ i, i < 8 → ends i = false) ∨
    (v.at8 a 0x2A = 0 ∧ ∃ i, i < 8 ∧ ends i = true), .range)

/-- R192, R106, R126: the rows of a content set, in the order of its checks. -/
def View.contentRows (length count : Nat) : List (Prop × Result) :=
  v.areaRows a length count ++ [(count = 0 ∨ 64 < count, .count)]
  ++ (List.range count).flatMap (fun i => v.pageRows a (v.at32 a 0x10 + 104 * i)) ++ [(16384 < v.at16 a 0x18, .range)]
  ++ (List.range 256).flatMap (fun i => v.glyphRows a (v.at32 a 0x1C + 8 * i))
  ++ [(2 < v.at8 a 0x1B, .count), v.stripRow a length, v.runTableRow a]

/-- 11.4: of a strip count above 2 no offset counts as an area (log 77). -/
theorem stripsHeld_le (count : Nat) : stripsHeld count ≤ 2 := by
  unfold stripsHeld
  split <;> omega

/-- A check of one condition. -/
theorem iff_any_decide (c : Prop) [Decidable c] {r : Result} :
    c ↔ [(decide c, r)].any (fun x : Bool × Result => x.1) = true := by
  simp

/-- R192: the areas are checked as their rows say. -/
theorem View.areaFailures_rows (length count : Nat) : List.Forall₂ SameCheck (v.areaRows a length count)
    (areaFailures length count (v.directoryAt a)
      ((List.range (stripsHeld (v.at8 a 0x1B))).map (v.stripAt a))) := by
  refine .cons ⟨decide_eq_true_iff.symm, rfl⟩ (.cons ⟨decide_eq_true_iff.symm, rfl⟩
    (.cons ⟨decide_eq_true_iff.symm, rfl⟩ (.cons ⟨decide_eq_true_iff.symm, rfl⟩ (.cons ⟨?_, rfl⟩ .nil))))
  simp only [List.any_map, List.any_eq_true, List.mem_range, Function.comp_apply, decide_eq_true_eq]
  constructor
  · rintro ⟨hfew, i, hi, hbeyond⟩
    exact ⟨i, by rw [stripsHeld, if_neg (by omega)]; exact hi, hbeyond⟩
  · rintro ⟨i, hi, hbeyond⟩
    unfold stripsHeld at hi
    split at hi
    · omega
    · exact ⟨by omega, i, hi, hbeyond⟩

/-- R126: the run code table is checked as its row says. -/
theorem View.runTableBad_iff : (v.runTableRow a).1 ↔ runTableBad ((List.range 4).map (fun i => v.place a (0x28 + i)))
    (((List.range 8).map (fun i => v.place a (0x2C + i))).map runEntry) = true := by
  have hhead (i : Nat) (hi : i < 4) :
      (((List.range 4).map (fun i => v.place a (0x28 + i))).getD i 0).toNat = v.at8 a (0x28 + i) := by
    rw [List.getD_eq_getElem _ _ (by simpa using hi), List.getElem_map, List.getElem_range]
    rfl
  have hx : (((List.range 8).map (fun i => v.place a (0x2C + i))).map runEntry).any (fun e => decide (6 < e.x)) = true
      ↔ ∃ i, i < 8 ∧ 6 < v.at8 a (0x2C + i) % 8 := by
    simp only [List.any_map, List.any_eq_true, List.mem_range, Function.comp_apply, decide_eq_true_eq]
    rfl
  have hends : (((List.range 8).map (fun i => v.place a (0x2C + i))).map runEntry).any (·.endFlag) = true
      ↔ ∃ i, i < 8 ∧ (v.at8 a (0x2C + i)).testBit 7 = true := by
    simp only [List.any_map, List.any_eq_true, List.mem_range, Function.comp_apply]
    rfl
  have hnone : (∀ i, i < 8 → ¬ (v.at8 a (0x2C + i)).testBit 7 = true)
      ↔ ¬ ∃ i, i < 8 ∧ (v.at8 a (0x2C + i)).testBit 7 = true := by
    simp
  simp only [runTableBad, runTableOf, hhead 0 (by omega), hhead 1 (by omega), hhead 2 (by omega), hhead 3 (by omega),
    Bool.or_eq_true, Bool.and_eq_true, Bool.not_eq_true', decide_eq_true_eq, ← Bool.not_eq_true, hx, hends,
    View.runTableRow, Nat.add_zero, Nat.reduceAdd]
  rw [hnone]
  by_cases hshort : 1 < v.at8 a 0x28
  · simp only [hshort, true_or]
  by_cases hend : 1 < v.at8 a 0x2A
  · simp only [hend, true_or, or_true]
  have hshortOn : v.at8 a 0x28 = 1 ↔ ¬ v.at8 a 0x28 = 0 := by omega
  have hendOn : v.at8 a 0x2A = 1 ↔ ¬ v.at8 a 0x2A = 0 := by omega
  simp only [hshortOn, hendOn, ne_eq, not_not, or_assoc]

end

section
variable {v : View} {a len : Nat} (h : v.Answers a len) (hlen : 64 ≤ len)
include h hlen

/-- 11.4: the strip offsets. -/
theorem View.Answers.stripOffsets {n i : Nat} (hi : i + n ≤ 2) :
    v.stripOffsets a n i = .ok ((List.range' i n).map (v.stripAt a)) := by
  induction n generalizing i with
  | zero => rfl
  | succ n ih =>
    have hoffset : v.stripOffset a i = .ok (v.stripAt a i) := by
      rw [View.stripOffset, Nat.add_assoc a]
      exact h.u32 (by omega)
    rw [View.stripOffsets, hoffset, ok_bind, ih (by omega)]
    rfl

/-- 11.4: the strips that a copy holds. -/
theorem View.Answers.strips (hfew : ¬ 2 < v.at8 a 0x1B) (hfits : v.StripsFit a len) :
    v.strips a (stripsHeld (v.at8 a 0x1B)) 0 = .ok ((List.range (v.at8 a 0x1B)).map (v.stripHeaderAt a)) := by
  rw [stripsHeld, if_neg hfew]
  refine View.strips_eq_ok.mpr ⟨by simp, fun j s hs => ?_⟩
  obtain ⟨hj, rfl⟩ := List.getElem?_eq_some_iff.mp hs
  rw [List.length_map, List.length_range] at hj
  rw [List.getElem_map, List.getElem_range, Nat.zero_add]
  exact h.strip (by omega) hlen (hfits (by omega) j hj)

end

/-- R192, R106, R126: a content set is checked area by area. -/
theorem View.validContent_checks {v : View} {a : Nat} {hd : Header} (h : v.Answers a hd.length)
    (hlen : 64 ≤ hd.length) :
    Checks (v.contentRows a hd.length hd.count) (2 < v.at8 a 0x1B) (v.validContent a hd) (fun _ => True) := by
  have hrows : v.contentRows a hd.length hd.count = v.areaRows a hd.length hd.count
      ++ ([(hd.count = 0 ∨ 64 < hd.count, .count)]
      ++ ((List.range hd.count).flatMap (fun i => v.pageRows a (v.at32 a 0x10 + 104 * i))
      ++ ([(16384 < v.at16 a 0x18, .range)]
      ++ ((List.range 256).flatMap (fun i => v.glyphRows a (v.at32 a 0x1C + 8 * i))
      ++ ([(2 < v.at8 a 0x1B, .count)] ++ ([v.stripRow a hd.length] ++ [v.runTableRow a])))))) := by
    simp only [View.contentRows, List.append_assoc, List.cons_append, List.nil_append]
  rw [hrows]
  unfold View.validContent
  simp only [h.directory hlen, h.stripOffsets hlen (n := stripsHeld (v.directoryAt a).stripCount) (i := 0)
    (by have := stripsHeld_le (v.directoryAt a).stripCount; omega), ← List.range_eq_range', mustRead_ok, ok_bind]
  refine Checks.bind (Checks.refuse_rows (v.areaFailures_rows a hd.length hd.count)) fun _ hareas => ?_
  simp only [View.areaRows, List.forall_mem_cons] at hareas
  obtain ⟨hpages, -, hglyphs, -, hstrips, -⟩ := hareas
  have hfits : v.StripsFit a hd.length := fun hfew i hi => by
    by_contra hbeyond
    exact hstrips ⟨hfew, i, hi, by omega⟩
  refine Checks.bind (Checks.refuse_row (c := hd.count = 0 ∨ 64 < hd.count) (by simp) (iff_any_decide _)) fun _ _ =>
    Checks.bind (Checks.loop (fun _ => rfl) (v.checkPages_succ a (v.directoryAt a)) fun i hi => ?_) fun _ _ =>
    Checks.bind (Checks.refuse_row (c := 16384 < v.at16 a 0x18) (by simp) (iff_any_decide _)) fun _ _ =>
    Checks.bind (Checks.loop (fun _ => rfl) (v.checkGlyphs_succ _) fun i hi => ?_) fun _ _ =>
    Checks.bind (Checks.refuse_row (c := 2 < v.at8 a 0x1B) (by simp) (iff_any_decide _)) fun _ hfew => ?_
  · rw [Nat.add_assoc a]
    exact View.checkPage_checks h hlen hfits (by omega)
  · rw [Nat.add_assoc a]
    exact View.checkGlyph_checks h (by omega)
  · refine Checks.read_ok (h.strips hlen hfew hfits) (Checks.bind (Checks.refuse_row ?_ ?_) fun _ _ => ?_)
    · simp
    · rw [List.any_cons, List.any_nil, Bool.or_false]
      simp only [List.any_map, List.any_eq_true, List.mem_range, Function.comp_apply, stripBad, decide_eq_true_eq]
      rfl
    · unfold View.runBytes
      simp (disch := omega) only [h.bytes, mustRead_ok, ok_bind]
      refine (Checks.refuse_row ?_ ?_).mono fun _ _ => trivial
      · simp
      · rw [List.any_cons, List.any_nil, Bool.or_false]
        exact v.runTableBad_iff a

end Sys2Proof.Machine
end

section
/-! PROOF. A validation that ends in a memory error names a byte that could not be read (R169, R174), and the parts of a
validation: the header (R174), the checks of each kind, and the numbers of a copy (R191, 11.3). -/

namespace Sys2Proof.Machine

/-! ### Reads that fail at a byte -/

section
variable {α β : Type} {v : View} {a : Nat}

theorem View.failsAtByte.u8 {f : Nat → Except MemFail β} (hf : ∀ n, v.failsAtByte (f n)) :
    v.failsAtByte (v.u8 a >>= f) :=
  View.failsAtByte_bind (v.failsAtByte_field _ 1) hf

theorem View.failsAtByte.u16 {f : Nat → Except MemFail β} (hf : ∀ n, v.failsAtByte (f n)) :
    v.failsAtByte (v.u16 a >>= f) :=
  View.failsAtByte_bind (v.failsAtByte_field _ 2) hf

theorem View.failsAtByte.u32 {f : Nat → Except MemFail β} (hf : ∀ n, v.failsAtByte (f n)) :
    v.failsAtByte (v.u32 a >>= f) :=
  View.failsAtByte_bind (v.failsAtByte_field _ 4) hf

end

section
variable (v : View)

theorem View.failsAtByte_stop (a : Nat) : v.failsAtByte (v.stop a) :=
  .u16 fun _ => .u16 fun _ => .u16 fun _ => .u8 fun _ => .u8 fun _ => .u32 fun _ => .u16 fun _ => .u16 fun _ =>
    .u16 fun _ => v.failsAtByte_ok _

theorem View.failsAtByte_segments (n a : Nat) : v.failsAtByte (v.segments n a) := by
  induction n generalizing a with
  | zero => exact v.failsAtByte_ok []
  | succ n ih =>
    have hsegment : v.failsAtByte (v.segment a) :=
      .u8 fun _ => .u16 fun _ => .u16 fun _ => .u16 fun _ => .u16 fun _ => v.failsAtByte_ok _
    exact View.failsAtByte_bind hsegment fun _ => View.failsAtByte_bind (ih (a + 12)) fun _ => v.failsAtByte_ok _

theorem View.failsAtByte_seatEntry (a : Nat) : v.failsAtByte (v.seatEntry a) :=
  .u16 fun _ => .u8 fun _ => View.failsAtByte_bind (v.failsAtByte_segments _ _) fun _ => v.failsAtByte_ok _

theorem View.failsAtByte_notice (a : Nat) : v.failsAtByte (v.notice a) :=
  .u8 fun _ => .u8 fun _ => .u16 fun _ => .u8 fun _ => .u8 fun _ => .u16 fun _ => .u8 fun _ => .u8 fun _ =>
    .u16 fun _ => .u16 fun _ => .u8 fun _ => .u8 fun _ => v.failsAtByte_ok _

theorem View.failsAtByte_seatPlace (a : Nat) : v.failsAtByte (v.seatPlace a) :=
  .u16 fun _ => .u8 fun _ => .u8 fun _ => v.failsAtByte_ok _

theorem View.failsAtByte_directory (a : Nat) : v.failsAtByte (v.directory a) :=
  .u32 fun _ => .u32 fun _ => .u16 fun _ => .u8 fun _ => .u8 fun _ => .u32 fun _ => .u32 fun _ => .u32 fun _ =>
    v.failsAtByte_ok _

theorem View.failsAtByte_stripOffsets (a n i : Nat) : v.failsAtByte (v.stripOffsets a n i) := by
  induction n generalizing i with
  | zero => exact v.failsAtByte_ok []
  | succ n ih => exact .u32 fun _ => View.failsAtByte_bind (ih (i + 1)) fun _ => v.failsAtByte_ok _

theorem View.failsAtByte_stripHeightOf (a count : Nat) (w : Window) : v.failsAtByte (v.stripHeightOf a count w) := by
  unfold View.stripHeightOf
  split
  · split
    · exact View.failsAtByte_bind (v.failsAtByte_strip a _) fun _ => v.failsAtByte_ok _
    · exact v.failsAtByte_ok _
  · exact v.failsAtByte_ok _

end

/-! ### Validations that end at a byte -/

/-- R169: a memory error of a validation is that of the byte it names. -/
def View.rejectsAtByte {α : Type} (v : View) (x : Except Reject α) : Prop :=
  ∀ f, x = .error (.memory f) → v.byte f.address = .error f

section
variable {α β : Type} {v : View}

theorem View.rejectsAtByte.ok {y : α} : v.rejectsAtByte (.ok y) := fun _ h => nomatch h

theorem View.rejectsAtByte.bind {x : Except Reject α} {f : α → Except Reject β} (hx : v.rejectsAtByte x)
    (hf : ∀ y, v.rejectsAtByte (f y)) : v.rejectsAtByte (x >>= f) := by
  cases x with
  | error e => exact fun g h => hx g (congrArg Except.error (Except.error.inj h))
  | ok y => exact hf y

theorem View.rejectsAtByte.read {x : Except MemFail α} {f : α → Except Reject β} (hx : v.failsAtByte x)
    (hf : ∀ y, v.rejectsAtByte (f y)) : v.rejectsAtByte (mustRead x >>= f) := by
  cases x with
  | error e =>
    intro g h
    cases h
    exact hx e rfl
  | ok y => exact hf y

theorem View.rejectsAtByte.u8 {a : Nat} {f : Nat → Except Reject β} (hf : ∀ n, v.rejectsAtByte (f n)) :
    v.rejectsAtByte (mustRead (v.u8 a) >>= f) :=
  .read (v.failsAtByte_field _ 1) hf

theorem View.rejectsAtByte.u16 {a : Nat} {f : Nat → Except Reject β} (hf : ∀ n, v.rejectsAtByte (f n)) :
    v.rejectsAtByte (mustRead (v.u16 a) >>= f) :=
  .read (v.failsAtByte_field _ 2) hf

theorem View.rejectsAtByte.bytes {a n : Nat} {f : List Byte → Except Reject β} (hf : ∀ bs, v.rejectsAtByte (f bs)) :
    v.rejectsAtByte (mustRead (v.bytes a n) >>= f) :=
  .read (v.failsAtByte_bytes _ n) hf

/-- A check names no byte. -/
theorem View.rejectsAtByte.check (checks : List (Bool × Result)) : v.rejectsAtByte (refuseIf checks) := by
  intro f h
  unfold refuseIf at h
  split at h <;> cases h

theorem View.rejectsAtByte.refuse {checks : List (Bool × Result)} {f : Unit → Except Reject β}
    (hf : ∀ y, v.rejectsAtByte (f y)) : v.rejectsAtByte (refuseIf checks >>= f) :=
  .bind (.check checks) hf

theorem View.rejectsAtByte.records {read : Nat → Except MemFail α} {check : List α → Nat → α → Option Result}
    (hread : ∀ a, v.failsAtByte (read a)) (size n i a : Nat) (before : List α) :
    v.rejectsAtByte (mustReadRecords (readRecords read check size n i a before)) := by
  induction n generalizing i a before with
  | zero => exact .ok
  | succ n ih =>
    unfold readRecords
    split
    · next f hf =>
      intro g hg
      cases hg
      exact hread a f hf
    · split
      · exact fun g hg => nomatch hg
      · exact ih _ _ _

end

section
variable (v : View)

theorem View.rejectsAtByte_profileLine (a : Nat) (l : Line) : v.rejectsAtByte (v.profileLine a l) :=
  .u8 fun _ => .u8 fun _ => .refuse fun _ => .bytes fun _ => .bytes fun _ => .bytes fun _ => .bytes fun _ =>
    .refuse fun _ => .ok

theorem View.rejectsAtByte_profile (a n : Nat) : v.rejectsAtByte (v.profile a n) := by
  have hodo : v.rejectsAtByte (v.profileOdometer a) :=
    .u8 fun _ => .u8 fun _ => .u16 fun _ => .u8 fun _ => .u8 fun _ => .u8 fun _ => .u8 fun _ => .u16 fun _ =>
      .u16 fun _ => .refuse fun _ => .ok
  have htrk : v.rejectsAtByte (v.profileTracker a) :=
    .u8 fun _ => .u16 fun _ => .u16 fun _ => .u16 fun _ => .refuse fun _ => .ok
  have hswp : v.rejectsAtByte (v.profileSweep a) :=
    .u16 fun _ => .u16 fun _ => .u8 fun _ => .bytes fun _ => .refuse fun _ => .ok
  have hseats (l : LineConfig) : v.rejectsAtByte (v.profileSeats a n l) :=
    .refuse fun _ => .bind (.records v.failsAtByte_seatPlace _ _ _ _ _) fun _ => .bytes fun _ => .refuse fun _ => .ok
  exact .bind hodo fun _ => .bind htrk fun _ => .bind hswp fun _ => .u8 fun _ => .u8 fun _ => .refuse fun _ =>
    .bind (v.rejectsAtByte_profileLine a _) fun _ => .bind (v.rejectsAtByte_profileLine a _) fun _ =>
    .bind (v.rejectsAtByte_profileLine a _) fun _ => .bind (hseats _) fun _ => .ok

theorem View.rejectsAtByte_checkWindows (copy : Nat) (d : Directory) (n a : Nat) :
    v.rejectsAtByte (v.checkWindows copy d n a) := by
  induction n generalizing a with
  | zero => exact .ok
  | succ n ih =>
    have hstep : v.rejectsAtByte (v.checkWindow copy d a) :=
      .read (v.failsAtByte_window a) fun w => .read (v.failsAtByte_stripHeightOf copy _ w) fun height => by
        unfold refuseBy
        split
        · exact fun _ h => nomatch h
        · exact .ok
    rw [View.checkWindows_succ]
    exact .bind hstep fun _ => ih (a + 16)

theorem View.rejectsAtByte_checkPages (copy : Nat) (d : Directory) (n a : Nat) :
    v.rejectsAtByte (v.checkPages copy d n a) := by
  induction n generalizing a with
  | zero => exact .ok
  | succ n ih =>
    exact .read (v.failsAtByte_pageHead a) fun _ => .refuse fun _ =>
      .bind (v.rejectsAtByte_checkWindows copy d _ _) fun _ => ih (a + 104)

theorem View.rejectsAtByte_checkGlyphs (streamLength n a : Nat) : v.rejectsAtByte (v.checkGlyphs streamLength n a) := by
  induction n generalizing a with
  | zero => exact .ok
  | succ n ih => exact .read (v.failsAtByte_glyph a) fun _ => .refuse fun _ => ih (a + 8)

theorem View.rejectsAtByte_validContent (a : Nat) (h : Header) : v.rejectsAtByte (v.validContent a h) :=
  .read (v.failsAtByte_directory a) fun _ => .read (v.failsAtByte_stripOffsets a _ _) fun _ => .refuse fun _ =>
    .refuse fun _ => .bind (v.rejectsAtByte_checkPages a _ _ _) fun _ => .refuse fun _ =>
    .bind (v.rejectsAtByte_checkGlyphs _ _ _) fun _ => .refuse fun _ => .read (v.failsAtByte_strips a _ _) fun _ =>
    .refuse fun _ => .read (v.failsAtByte_runBytes a) fun _ => .check _

/-- R174: what the checks of a kind do not read fails nothing. -/
theorem View.rejectsAtByte_validBody (k : Kind) (floor : Option Nat) (a : Nat) (h : Header) :
    v.rejectsAtByte (v.validBody k floor a h) := by
  cases k with
  | coachProfile => exact .bind (v.rejectsAtByte_profile a h.count) fun _ => .ok
  | stopList => exact .refuse fun _ => .bind (.records v.failsAtByte_stop _ _ _ _ _) fun _ => .ok
  | reservationTable => exact .refuse fun _ => .bind (.records v.failsAtByte_seatEntry _ _ _ _ _) fun _ => .ok
  | noticeTable => exact .refuse fun _ => .bind (.records v.failsAtByte_notice _ _ _ _ _) fun _ => .ok
  | contentSet => exact .bind (v.rejectsAtByte_validContent a h) fun _ => .ok

end

end Sys2Proof.Machine
end

section
/-! PROOF. The steps of a validation (R174): the header, and the checks of each kind after it; and the edition floor of
the checks (R63, log 66). -/

namespace Sys2Proof.Machine

/-! ### The header (R174) -/

/-- R174: a copy that cannot stand at its address. -/
theorem View.validate_outside (v : View) (k : Kind) (floor : Option Nat) {a : Nat}
    (h : a % 16 ≠ 0 ∨ 16777216 < a + 16) :
    v.validate k floor a = .error (.memory { cause := .window, address := a }) := by
  have hheader : v.validHeader k a = .error (.memory { cause := .window, address := a }) := if_pos h
  rw [View.validate, hheader]
  rfl

section
variable {v : View} {k : Kind} {floor : Option Nat} {a : Nat} {h : Header} (halign : a % 16 = 0)
  (hwindow : a + 16 ≤ 16777216)
include halign hwindow

theorem View.validate_inside : v.validate k floor a = (mustRead (v.header a) >>= fun h =>
    refuseIf [(decide (h.kind ≠ Kind.number k), .kind), (decide (h.length < leastLength k h.count), .count)] >>=
    fun _ =>
    (if windowSize < a + h.length then .error (.memory { cause := .window, address := a }) else .ok h) >>= fun h =>
    v.validBody k floor a h >>= fun f => .ok { header := h, profile := f }) := by
  have hin : ¬ (a % 16 ≠ 0 ∨ windowSize < a + 16) := by
    unfold windowSize
    omega
  rw [View.validate, View.validHeader, if_neg hin]
  simp only [bind_assoc]

/-- R174: a header that is not read. -/
theorem View.validate_unread {f : MemFail} (hf : v.header a = .error f) :
    v.validate k floor a = .error (.memory f) := by
  rw [View.validate_inside halign hwindow, hf]
  rfl

variable (hread : v.header a = .ok h)
include hread

/-- R174: a header of another kind. -/
theorem View.validate_kind (hkind : h.kind ≠ Kind.number k) : v.validate k floor a = .error (.result .kind) := by
  rw [View.validate_inside halign hwindow, hread, mustRead_ok, ok_bind, decide_eq_true hkind]
  rfl

variable (hkind : h.kind = Kind.number k)
include hkind

/-- R174: a length below that of its records. -/
theorem View.validate_short (hlength : h.length < leastLength k h.count) :
    v.validate k floor a = .error (.result .count) := by
  rw [View.validate_inside halign hwindow, hread, mustRead_ok, ok_bind, decide_eq_false (not_not_intro hkind),
    decide_eq_true hlength]
  rfl

variable (hlength : leastLength k h.count ≤ h.length)
include hlength

/-- R174: a copy that does not end in the window. -/
theorem View.validate_beyond (hend : 16777216 < a + h.length) :
    v.validate k floor a = .error (.memory { cause := .window, address := a }) := by
  rw [View.validate_inside halign hwindow, hread, mustRead_ok, ok_bind, decide_eq_false (not_not_intro hkind),
    decide_eq_false (Nat.not_lt.mpr hlength), if_pos (show windowSize < a + h.length from hend)]
  rfl

/-- R174: after the header the checks of the kind. -/
theorem View.validate_body (hend : a + h.length ≤ 16777216) : v.validate k floor a
    = v.validBody k floor a h >>= fun f => .ok { header := h, profile := f } := by
  rw [View.validate_inside halign hwindow, hread, mustRead_ok, ok_bind, decide_eq_false (not_not_intro hkind),
    decide_eq_false (Nat.not_lt.mpr hlength), if_neg (show ¬ windowSize < a + h.length from Nat.not_lt.mpr hend)]
  rfl

end

/-- R174: a passed copy has a header as its kind asks, and the values of a coach profile stand with no other kind. -/
theorem View.validate_ok {v : View} {k : Kind} {floor : Option Nat} {a : Nat} {h : Header} {ok : Validated}
    (halign : a % 16 = 0) (hwindow : a + 16 ≤ 16777216) (hread : v.header a = .ok h)
    (hok : v.validate k floor a = .ok ok) : ok.header = h ∧ (k = .coachProfile ↔ ok.profile ≠ none) := by
  rw [View.validate_inside halign hwindow, hread, mustRead_ok, ok_bind] at hok
  obtain ⟨-, -, hok⟩ := bind_eq_ok hok
  obtain ⟨h', hlen, hok⟩ := bind_eq_ok hok
  obtain ⟨f, hbody, hok⟩ := bind_eq_ok hok
  cases hok
  split at hlen
  · cases hlen
  · cases hlen
    refine ⟨rfl, ?_⟩
    cases k with
    | coachProfile =>
      obtain ⟨f, -, hbody⟩ := bind_eq_ok hbody
      cases hbody
      exact ⟨fun _ => nofun, fun _ => rfl⟩
    | stopList | reservationTable | noticeTable =>
      obtain ⟨-, -, hbody⟩ := bind_eq_ok hbody
      obtain ⟨-, -, hbody⟩ := bind_eq_ok hbody
      cases hbody
      exact ⟨nofun, fun hnone => absurd rfl hnone⟩
    | contentSet =>
      obtain ⟨-, -, hbody⟩ := bind_eq_ok hbody
      cases hbody
      exact ⟨nofun, fun hnone => absurd rfl hnone⟩

/-- 11.3: the fields of a header. -/
theorem View.header_eq_ok {v : View} {a : Nat} {h : Header} : v.header a = .ok h ↔ v.u8 a = .ok h.kind ∧
    v.u32 (a + 4) = .ok h.edition ∧ v.u32 (a + 8) = .ok h.length ∧ v.u16 (a + 12) = .ok h.count := by
  constructor
  · intro hread
    obtain ⟨kind, hkind, hread⟩ := bind_eq_ok hread
    obtain ⟨edition, hedition, hread⟩ := bind_eq_ok hread
    obtain ⟨length, hlength, hread⟩ := bind_eq_ok hread
    obtain ⟨count, hcount, hread⟩ := bind_eq_ok hread
    cases hread
    exact ⟨hkind, hedition, hlength, hcount⟩
  · rintro ⟨hkind, hedition, hlength, hcount⟩
    exact bind_eq_ok_iff.mpr ⟨_, hkind, bind_eq_ok_iff.mpr ⟨_, hedition, bind_eq_ok_iff.mpr ⟨_, hlength,
      bind_eq_ok_iff.mpr ⟨_, hcount, rfl⟩⟩⟩⟩

/-! ### The checks of each kind (R21, R64, R86, R177, R192) -/

/-- R174: a body that is the reading of its records passes and fails with them. -/
def JudgedBy {α : Type} (body : Except Reject (Option Profile)) (records : Except (Nat × Reject) α) : Prop :=
  (∀ rs, records = .ok rs → body = .ok none) ∧ ∀ at_ e, records = .error (at_, e) → body = .error e

theorem judgedBy_of_eq {α : Type} {body : Except Reject (Option Profile)} {records : Except (Nat × Reject) α}
    (h : body = mustReadRecords records >>= fun _ => .ok none) : JudgedBy body records := by
  subst h
  constructor
  · rintro rs rfl
    rfl
  · rintro at_ e rfl
    rfl

section
variable (v : View) (floor : Option Nat) (a : Nat) (h : Header)

/-- R21. -/
theorem View.validBody_stopList :
    (h.count = 0 ∨ 64 < h.count → v.validBody .stopList floor a h = .error (.result .count)) ∧
    (1 ≤ h.count → h.count ≤ 64 → JudgedBy (v.validBody .stopList floor a h) (v.stops a h.count)) := by
  constructor
  · intro hcount
    rw [View.validBody, (stopCountBad_iff h.count).mpr hcount]
    rfl
  · intro hlow hhigh
    refine judgedBy_of_eq ?_
    have hbad : stopCountBad h.count = false := by
      rw [← Bool.not_eq_true, stopCountBad_iff]
      omega
    rw [View.validBody, hbad]
    rfl

/-- R64. -/
theorem View.validBody_reservationTable :
    ((∃ m, floor = some m ∧ h.edition ≤ m) →
      v.validBody .reservationTable floor a h = .error (.result .editionOrder)) ∧
    ((∀ m, floor = some m → m < h.edition) →
      (96 < h.count → v.validBody .reservationTable floor a h = .error (.result .count)) ∧
      (h.count ≤ 96 → JudgedBy (v.validBody .reservationTable floor a h) (v.seatEntries a h.count))) := by
  constructor
  · rintro ⟨m, rfl, hm⟩
    rw [View.validBody, belowFloor, decide_eq_true hm]
    rfl
  · intro hfloor
    have habove : belowFloor floor h.edition = false := by
      cases floor with
      | none => rfl
      | some m => exact decide_eq_false (Nat.not_le.mpr (hfloor m rfl))
    constructor
    · intro hcount
      rw [View.validBody, habove, seatEntryCountBad, decide_eq_true hcount]
      rfl
    · intro hcount
      refine judgedBy_of_eq ?_
      rw [View.validBody, habove, seatEntryCountBad, decide_eq_false (Nat.not_lt.mpr hcount)]
      rfl

/-- R86. -/
theorem View.validBody_noticeTable :
    (32 < h.count → v.validBody .noticeTable floor a h = .error (.result .count)) ∧
    (h.count ≤ 32 → JudgedBy (v.validBody .noticeTable floor a h) (v.notices a h.count)) := by
  constructor
  · intro hcount
    rw [View.validBody, noticeCountBad, decide_eq_true hcount]
    rfl
  · intro hcount
    refine judgedBy_of_eq ?_
    rw [View.validBody, noticeCountBad, decide_eq_false (Nat.not_lt.mpr hcount)]
    rfl

/-- R177. -/
theorem View.validBody_coachProfile :
    (∀ f, v.profile a h.count = .ok f → v.validBody .coachProfile floor a h = .ok (some f)) ∧
    ∀ e, v.profile a h.count = .error e → v.validBody .coachProfile floor a h = .error e := by
  constructor <;> intro x hx <;> rw [View.validBody, hx] <;> rfl

/-- R192. -/
theorem View.validBody_contentSet :
    (v.validContent a h = .ok () → v.validBody .contentSet floor a h = .ok none) ∧
    ∀ e, v.validContent a h = .error e → v.validBody .contentSet floor a h = .error e := by
  constructor
  · intro hok
    rw [View.validBody, hok]
    rfl
  · intro e he
    rw [View.validBody, he]
    rfl

end

/-! ### The edition floor (R63) -/

/-- R63: without a load in progress the floor is the store's edition. -/
theorem Reservations.floor_rest {r : Reservations} (h : r.load = .idle ∨ r.load = .owed) :
    r.floor = r.storeEdition := by
  unfold Reservations.floor
  rcases h with h | h <;> rw [h]

/-- R63: a load in progress counts in the floor (log 66). -/
theorem Reservations.floor_loading {r : Reservations} {c : Copy} {a e : Nat} (h : r.load = .loading c a e) :
    (r.storeEdition = none → r.floor = some e) ∧ ∀ m, r.storeEdition = some m → r.floor = some (max m e) := by
  unfold Reservations.floor
  rw [h]
  constructor
  · intro hstore
    rw [hstore]
  · intro m hstore
    rw [hstore]

end Sys2Proof.Machine
end

section
/-! PROOF. How a switch ends (R174, R175, R176): its completion and its refusal, what the loading blocks are told, and
the statement of the switches' ends. -/

namespace Sys2Proof.Machine

/-! ### What the blocks are told (R175) -/

/-- R107, R113: a panel whose kept windows are discarded. -/
def PanelDraw.forgotten (q : PanelDraw) : PanelDraw := { q with strip := false, bars := [] }

/-- R107, R113: the part with every kept window discarded. -/
def Part.windowsForgotten (p : Part) : Part :=
  { p with cmp := { p.cmp with panels := p.cmp.panels.map PanelDraw.forgotten } }

theorem Part.contentSwitched_eq (p : Part) : p.contentSwitched = p.windowsForgotten.markWhere (fun _ => true) := rfl

/-- R107, R113: of the panels their places stand. -/
theorem Part.windowsForgotten_addresses (p : Part) (l : Line) :
    (p.windowsForgotten.cmp.panels.filter (fun q => decide (q.line = l))).map (·.address)
      = (p.cmp.panels.filter (fun q => decide (q.line = l))).map (·.address) := by
  simp only [Part.windowsForgotten, List.filter_map, List.map_map]
  rfl

/-- R115: a content-set switch marks every panel. -/
theorem Part.contentSwitched_marksExactly (p : Part) : p.marksExactly p.contentSwitched (fun _ => True) := by
  rw [Part.contentSwitched_eq]
  intro l
  obtain ⟨new, hnew, hnodup, hsub, hmem⟩ := p.windowsForgotten.markWhere_marksExactly (fun _ => true) l
  have hrefresh : p.windowsForgotten.cmp.refresh l = p.cmp.refresh l := by cases l <;> rfl
  have hline : p.windowsForgotten.line l = p.line l := by cases l <;> rfl
  rw [hrefresh] at hnew
  rw [p.windowsForgotten_addresses] at hsub
  refine ⟨new, hnew, hnodup, hsub, fun x => (hmem x).trans ?_⟩
  rw [hrefresh, hline]
  refine and_congr_right fun _ => and_congr_right fun _ => ?_
  constructor
  · rintro ⟨q', hq', hl, ha, -⟩
    obtain ⟨q, hq, rfl⟩ := List.mem_map.mp hq'
    exact ⟨q, hq, hl, ha, trivial⟩
  · rintro ⟨q, hq, hl, ha, -⟩
    exact ⟨q.forgotten, List.mem_map_of_mem hq, hl, ha, rfl⟩

/-- R107, R113: besides its marks, a content-set switch discards the kept windows alone. -/
theorem Part.contentSwitched_same (p : Part) : p.windowsForgotten.sameButRefresh p.contentSwitched :=
  Part.markWhere_sameButRefresh _ _

/-! ### The end of a switch (R174, R175, R176) -/

/-- R176: the run leaves the completion's full write owed, or made with the request as it is read again. -/
def CompletesWith (s : State) (k : Kind) (w : Switch) (bus : Bus) (p : Part) (run : Instr) : Prop :=
  (bus.wait = true → exec run s
    = .next { s with part := { p with ed := { p.ed with owed := p.ed.owed ++ [.full k w.request] } } }) ∧
  (bus.wait = false →
    (∀ f, (p.view bus).u8 (slotEntry k + 8) = .error f → exec run s
      = .next { s with part := ((p.memoryError .edition f.address f.cause).lateWrites bus).fullWrite bus [] }) ∧
    (∀ r, (p.view bus).u8 (slotEntry k + 8) = .ok r → exec run s
      = .next { s with part := (p.lateWrites bus).fullWrite bus (if r = w.request then [k] else []) }))

theorem completesWith_of_finish {s : State} {k : Kind} {w : Switch} {bus : Bus} {p : Part} {run : Instr}
    (h : exec run s = .next { s with part := p.finishSwitch bus k w }) : CompletesWith s k w bus p run := by
  refine ⟨fun hwait => ?_, fun hwait => ⟨fun f hf => ?_, fun r hr => ?_⟩⟩
  · rw [h, Part.finishSwitch, hwait]
    rfl
  · rw [h, Part.finishSwitch, hwait, if_neg Bool.false_ne_true, Part.completionWrite, Part.requestBack, hf]
  · rw [h, Part.finishSwitch, hwait, if_neg Bool.false_ne_true, Part.completionWrite, Part.requestBack, hr]

section
variable {s : State} {k : Kind} {w : Switch} {bus : Bus} (hw : (s.part.ed.kind k).switch = some w)
include hw

/-- R175: the runs where the validation has passed. -/
theorem switch_passed {v : Validated} (hv : (s.part.hostWrites bus).validation k w bus = .ok v) :
    exec (.switchCompletion k bus) s = .next { s with part := (s.part.hostWrites bus).passSwitch k w v bus } ∧
    exec (.switchRefusal k bus) s = .next s := by
  constructor
  · refine exec_next (·.completeSwitch k bus) rfl ?_
    simp only [Part.completeSwitch, hw, hv]
  · refine exec_next (·.failSwitch k bus) rfl ?_
    simp only [Part.failSwitch, hw, hv]

/-- R174: the runs where it has failed. -/
theorem switch_failed {e : Reject} (he : (s.part.hostWrites bus).validation k w bus = .error e) :
    exec (.switchCompletion k bus) s = .next s ∧
    exec (.switchRefusal k bus) s = .next { s with part := (s.part.hostWrites bus).refuseSwitch k w e bus } := by
  constructor
  · refine exec_next (·.completeSwitch k bus) rfl ?_
    simp only [Part.completeSwitch, hw, he]
  · refine exec_next (·.failSwitch k bus) rfl ?_
    simp only [Part.failSwitch, hw, he]

end

/-- R169: a refusal after a memory error reports it and leaves the editions to the refusal. -/
theorem Part.refuseSwitch_memory (p : Part) (k : Kind) (w : Switch) (f : MemFail) (bus : Bus) :
    p.refuseSwitch k w (.memory f) bus = (Part.raise { p.memoryError .edition f.address f.cause with
      ed := p.ed.setKind k ((p.ed.kind k).refuse w .memory) } .switchRefused).finishSwitch bus k w := by
  have hed : (p.memoryError .edition f.address f.cause).ed = p.ed := by simp
  rw [← hed]
  rfl

/-- Settles O56, clause by clause: each part of a validation by the rows that it checks, and the ends of a switch by the
cases of its validation and of the re-read of its request. -/
theorem switchesEnd : Obligations.SwitchesEnd := by
  refine ⟨?kinds, ?profile, ?content, ?header, ?numbers, ?floor, ?ends, ?told⟩
  case kinds =>
    intro v k floor a h
    refine ⟨fun hread halign hwindow hkind hlength hend => ?_, v.rejectsAtByte_validBody k floor a h,
      ?_, ?_, ?_, ?_, ?_⟩
    · rw [View.validate_body halign hwindow hread hkind hlength hend]
      exact ⟨fun f hf => hf ▸ rfl, fun e he => he ▸ rfl⟩
    · rintro rfl
      exact v.validBody_stopList floor a h
    · rintro rfl
      exact v.validBody_reservationTable floor a h
    · rintro rfl
      exact v.validBody_noticeTable floor a h
    · rintro rfl
      exact v.validBody_coachProfile floor a h
    · rintro rfl
      exact v.validBody_contentSet floor a h
  case profile =>
    intro v a n hclear hwindow b w start most address group panels line seat place table config
    have hanswers : v.Answers a (416 + 4 * n) := ⟨hclear, by omega⟩
    have hchecks := (View.profile_checks hanswers (stray := False)).refusesFirst
    cases hx : v.profile a n with
    | error e =>
      rw [hx] at hchecks
      cases e <;> exact hchecks
    | ok f =>
      rw [hx] at hchecks
      exact hchecks
  case content =>
    intro v a h hclear hlen hend b w d strips strip window page glyph x ends table
    have hanswers : v.Answers a h.length := ⟨hclear, hend⟩
    have hchecks := (View.validContent_checks hanswers hlen).refusesFirst
    cases hx : v.validContent a h with
    | error e =>
      rw [hx] at hchecks
      cases e <;> exact hchecks
    | ok y =>
      rw [hx] at hchecks
      exact hchecks.1
  case header =>
    refine fun v k floor a => ⟨fun hout => ⟨_, rfl, v.validate_outside k floor hout⟩, fun halign hwindow =>
      ⟨fun f hf => View.validate_unread halign hwindow hf, fun h hread => ⟨View.validate_kind halign hwindow hread,
        fun hkind => ⟨View.validate_short halign hwindow hread hkind, fun hlength hend => ?_,
          fun ok hok => View.validate_ok halign hwindow hread hok⟩⟩⟩⟩
    exact ⟨_, rfl, View.validate_beyond halign hwindow hread hkind hlength hend⟩
  case numbers =>
    exact ⟨rfl, fun n => rfl, fun v a h => View.header_eq_ok, fun v a b =>
      ⟨View.u8_of_byte, View.u16_of_byte, View.u32_of_byte⟩⟩
  case floor => exact fun r => ⟨Reservations.floor_rest, fun c a e => Reservations.floor_loading⟩
  case ends =>
    refine fun s k w bus hw => ⟨fun ok hok => ?_, fun e he => ?_⟩
    · obtain ⟨hcompletion, hrefusal⟩ := switch_passed hw hok
      exact ⟨completesWith_of_finish hcompletion, hrefusal⟩
    · obtain ⟨hcompletion, hrefusal⟩ := switch_failed hw he
      refine ⟨hcompletion, ?_, ?_⟩
      · rintro result rfl
        exact completesWith_of_finish hrefusal
      · rintro f rfl
        rw [Part.refuseSwitch_memory] at hrefusal
        exact completesWith_of_finish hrefusal
  case told =>
    exact fun p f none_or => ⟨rfl, rfl, rfl, p.contentSwitched_marksExactly, p.contentSwitched_same, rfl⟩

end Sys2Proof.Machine
end
